-- ==== Sys2Proof/Word.lean ====
section
/-! DEFINITION. The plainest data of the part: bytes and words as the links carry them, numbers that
saturate (section 5.3), and tables of a fixed number of places. -/

namespace Sys2Proof

abbrev Byte := BitVec 8

abbrev Word16 := BitVec 16

/-- Section 5.3: a counter or age at its stated maximum stays there. -/
def satAdd (top n k : Nat) : Nat := min top (n + k)

/-- A fixed number of like things: `n` places, numbered from 0 (section 5.4). -/
structure Tab (α : Type) (n : Nat) where
  list : List α
  len : list.length = n
deriving DecidableEq, Repr

def Tab.replicate {α : Type} (n : Nat) (a : α) : Tab α n := ⟨List.replicate n a, List.length_replicate⟩

/-- What place `i` holds; past the last place, the empty value of the type. -/
def Tab.get {α : Type} {n : Nat} [Inhabited α] (t : Tab α n) (i : Nat) : α := t.list.getD i default

/-- The table with place `i` overwritten; past the last place, the table as it was. -/
def Tab.set {α : Type} {n : Nat} (t : Tab α n) (i : Nat) (a : α) : Tab α n :=
  ⟨t.list.set i a, by simp [t.len]⟩

def Tab.modify {α : Type} {n : Nat} [Inhabited α] (t : Tab α n) (i : Nat) (f : α → α) : Tab α n :=
  t.set i (f (t.get i))

def Tab.map {α β : Type} {n : Nat} (f : α → β) (t : Tab α n) : Tab β n :=
  ⟨t.list.map f, by simp [t.len]⟩

/-- The list with each element replaced, `i` being the number of its first place. -/
def mapFrom {α β : Type} (f : Nat → α → β) : Nat → List α → List β
  | _, [] => []
  | i, a :: rest => f i a :: mapFrom f (i + 1) rest

theorem length_mapFrom {α β : Type} (f : Nat → α → β) (l : List α) :
    ∀ i, (mapFrom f i l).length = l.length := by
  induction l with
  | nil => intro i; rfl
  | cons a l ih => intro i; simp [mapFrom, ih]

/-- Every place recomputed from its number and what it holds. -/
def Tab.mapIdx {α β : Type} {n : Nat} (f : Nat → α → β) (t : Tab α n) : Tab β n :=
  ⟨mapFrom f 0 t.list, by rw [length_mapFrom, t.len]⟩

/-- The places with their numbers, in ascending order. -/
def Tab.enum {α : Type} {n : Nat} (t : Tab α n) : List (Nat × α) := mapFrom Prod.mk 0 t.list

/-- The number of the first place, in ascending order, of which `p` holds. -/
def firstFrom {α : Type} (p : Nat → α → Bool) : Nat → List α → Option Nat
  | _, [] => none
  | i, a :: rest => if p i a then some i else firstFrom p (i + 1) rest

def Tab.first {α : Type} {n : Nat} (p : Nat → α → Bool) (t : Tab α n) : Option Nat := firstFrom p 0 t.list

/-- Two tables walked together, place by place. -/
def Tab.zip {α β : Type} {n : Nat} (t : Tab α n) (u : Tab β n) : Tab (α × β) n :=
  ⟨t.list.zip u.list, by simp [t.len, u.len]⟩

end Sys2Proof
end

