-- ==== Sys2Proof/Config.lean ====
section
/-! DEFINITION. What the part fixes once for all: the capacities of section 4 of the introduction, the
constants of the frame and image layouts (R172, R176), and the start values the spec names outside
any table; and the one free value, where the spec leaves a moment open (R36). -/

namespace Sys2Proof.Config

/-- Section 4: node records. -/
def nodeCount : Nat := 48
/-- Section 4: points. -/
def pointCount : Nat := 256
/-- Section 4: actuator channels. -/
def channelCount : Nat := 512
/-- R167: replies the reply queue holds. -/
def replyRoom : Nat := 8
/-- R167: frames the report/notice queue holds. -/
def reportRoom : Nat := 16
/-- R117: long requests in progress. -/
def longRoom : Nat := 2
/-- R115: operations the memory port queue holds, the one in flight included. -/
def memoryRoom : Nat := 8
/-- R146: items the stage holds. -/
def stageRoom : Nat := 64
/-- R145: depth of nesting. -/
def nestingDepth : Nat := 4
/-- R122: settle time of a bank, in ms. -/
def settleMs : Nat := 20
/-- R163: bracket limit after a reset, in s. -/
def bracketLimit : Nat := 600
/-- R163: trunk silence limit after a reset, in s. -/
def silenceLimit : Nat := 60
/-- Section 5.3: the top of a counter or an age. -/
def top16 : Nat := 65535
/-- R161: bytes a reply body holds. -/
def replyBody : Nat := 1023
/-- R172: greatest length field of a trunk frame. -/
def trunkLength : Nat := 1024
/-- R172: the start mark of every frame, 5Ah. -/
def startMark : Byte := 0x5A
/-- R176: the signature of the stored image, "SHLD". -/
def signature : List Byte := [0x53, 0x48, 0x4C, 0x44]
/-- R176: the format version. -/
def formatVersion : Nat := 3
/-- R176: the header's length in bytes. -/
def headerLength : Nat := 164
/-- R176: the image region's length in bytes. -/
def imageRegion : Nat := 131072
/-- What a byte of the serial memory that the part has not written, or has erased, reads as.
DESIGN CHOICE (log 2): the spec names no erased value. -/
def erasedByte : Byte := 0xFF

/-- R36: how many of the newest events of the channel image come behind the composition that ends the n-th slot to find a
series there. A free value: nothing constrains it. DESIGN CHOICE (log 50): the spec lets a composition fall between any two
writes of a series. -/
opaque laterEvents : Nat → Nat

/-- R165: the 27 counts of the CAPACITY tuple, in its order. -/
def capacities : List Nat :=
  [48, 62, 256, 12, 512, 16, 128, 48, 32, 32, 101, 8, 8, 4, 16, 4, 32, 48, 4, 8, 4, 64, 8, 16, 8, 16, 2]

end Sys2Proof.Config
end

