-- ==== Sys2Proof/Machine/Bytes.lean ====
section
/-! DEFINITION. Bytes on the links and in the serial memory: numbers most significant byte first, signed
numbers in two's complement, presence bytes, and the CRC-16 (R172, R173). -/

namespace Sys2Proof.Machine

/-- R172: a one-byte field. -/
def u8 (n : Nat) : List Byte := [BitVec.ofNat 8 n]

/-- R172: a two-byte field, high byte first. -/
def u16 (n : Nat) : List Byte := [BitVec.ofNat 8 (n / 256), BitVec.ofNat 8 n]

/-- R172: a four-byte field, high byte first. -/
def u32 (n : Nat) : List Byte :=
  [BitVec.ofNat 8 (n / 16777216), BitVec.ofNat 8 (n / 65536), BitVec.ofNat 8 (n / 256), BitVec.ofNat 8 n]

/-- R172: a signed two-byte field, in two's complement. -/
def s16 (z : Int) : List Byte := u16 (BitVec.ofInt 16 z).toNat

/-- R173 point 3: a flag or mark, 0 for clear and 1 for set. -/
def flag (b : Bool) : List Byte := if b then [1] else [0]

/-- R173 point 5: a field that may be absent, `width` value bytes behind its presence byte. -/
def optField {α : Type} (width : Nat) (enc : α → List Byte) : Option α → List Byte
  | some a => 1 :: enc a
  | none => 0 :: List.replicate width 0

def opt8 : Option Nat → List Byte := optField 1 u8
def opt16 : Option Nat → List Byte := optField 2 u16
def opt32 : Option Nat → List Byte := optField 4 u32
def optS16 : Option Int → List Byte := optField 2 s16

/-- The byte at offset `o`, read as a number. -/
def rd8 (bs : List Byte) (o : Nat) : Nat := (bs.getD o 0).toNat

def rd16 (bs : List Byte) (o : Nat) : Nat := rd8 bs o * 256 + rd8 bs (o + 1)

def rd32 (bs : List Byte) (o : Nat) : Nat := rd16 bs o * 65536 + rd16 bs (o + 2)

/-- A word read as a signed number (R172). -/
def signed (n : Nat) : Int := (BitVec.ofNat 16 n).toInt

def rdS16 (bs : List Byte) (o : Nat) : Int := signed (rd16 bs o)

/-- One bit of the CRC-16 register moved on under the polynomial x¹⁶ + x¹² + x⁵ + 1 (R172). -/
def crcBit (r : Word16) : Word16 := if r.msb then (r <<< 1) ^^^ 0x1021#16 else r <<< 1

/-- R172: one byte taken into the check, most significant bit first. -/
def crcByte (r : Word16) (b : Byte) : Word16 :=
  crcBit (crcBit (crcBit (crcBit (crcBit (crcBit (crcBit (crcBit (r ^^^ (b.setWidth 16 <<< 8)))))))))

/-- R172: the CRC-16 over a run of bytes, from the initial value of all ones, with no inversion at the
end. -/
def crc16 (bs : List Byte) : Word16 := bs.foldl crcByte 0xFFFF#16

/-- R172: a frame on either link: the start mark, the bytes the check covers, and the check, high byte
first. -/
def closeFrame (body : List Byte) : List Byte := Config.startMark :: body ++ u16 (crc16 body).toNat

/-- R172: a trunk frame of the given kind. -/
def trunkFrame (kind : Nat) (body : List Byte) : List Byte :=
  closeFrame (u16 (body.length + 1) ++ u8 kind ++ body)

/-- `n` runs of consecutive bytes taken off a list, each of the length its number asks for. -/
def splitRuns (len : Nat → Nat) : Nat → Nat → List Byte → List (Nat × List Byte)
  | _, 0, _ => []
  | i, n + 1, bs => (i, bs.take (len i)) :: splitRuns len (i + 1) n (bs.drop (len i))

/-- Section 5.3: a counter or age moved on by one, staying at 65,535. -/
def satSucc (n : Nat) : Nat := satAdd Config.top16 n 1

/-- "clamped to a..b" (section 5.2). -/
def clampInt (lo hi z : Int) : Int := max lo (min z hi)

/-- The whole seconds a timer or an age in ms shows. -/
def wholeSeconds (ms : Nat) : Nat := min Config.top16 (ms / 1000)

/-- The remaining time of a running timer in whole seconds: it falls by one at each whole second since
the timer's start. DEDUCED (log 5). -/
def remainingSeconds (ms : Nat) : Nat := (ms + 999) / 1000

end Sys2Proof.Machine
end

