-- ==== Sys2Proof/Syntax.lean ====
section
/-! DEFINITION. The commands of the part: one constructor for each row of spec/opcode_table.json. A
request carries the arguments R172 lays out, as the bytes and words of its frame; an event carries
what the outside world decides about it. -/

namespace Sys2Proof

/-- R175: the level of the BOOT strap. -/
inductive Boot
  | auto | hold
deriving DecidableEq, Repr, Inhabited

/-- R175: the straps as the part samples them at the start after a reset. -/
structure Straps where
  boot : Boot
  rate1 : Bool
  rate0 : Bool
deriving DecidableEq, Repr, Inhabited

/-- R172: the node quality of a REPORT item. -/
inductive NodeQuality
  | ok | fault
deriving DecidableEq, Repr, Inhabited

/-- R172: one item of a REPORT. -/
structure Item where
  index : Byte
  value : Word16
  quality : NodeQuality
deriving DecidableEq, Repr, Inhabited

/-- R145: the kind of bracket an OPEN_BRACKET asks for. -/
inductive BracketKind
  | openKind | countedKind
deriving DecidableEq, Repr, Inhabited

/-- The commands. In a request, `tag` is the tag its reply echoes (R159). `receiving` says whether a
frame is arriving on the field segment when the command would start a transmission (R1). `cut` is
the number of byte writes the memory operation in flight, if there is one, has made when a reset or
a loss of supply cuts it off (R125, R179). `flaws` lists the bytes of the serial memory that, after
a write, hold something else than what was written, so that the read-back sees it (R116, R179). -/
inductive Instr
  | powerOn (straps : Straps) (cut : Nat)
  | resetPin (straps : Straps) (cut : Nat)
  | softReset (straps : Straps) (cut : Nat)
  | imageLoad (receiving : Bool)
  | trunkBadFrame
  | readInfo (tag : Byte)
  | readStatus (tag : Byte)
  | readTable (tag table : Byte) (first count : Word16)
  | writeTable (tag table : Byte) (first count : Word16) (content : List Byte)
  | clearFlags (tag : Byte) (mask value : Word16)
  | enterRun (tag : Byte) (receiving : Bool)
  | enterConfig (tag : Byte)
  | saveImage (tag : Byte)
  | resetPart (tag : Byte)
  | setChannel (tag : Byte) (channel value : Word16) (direct : Bool)
  | setZone (tag zone : Byte) (occupied : Option Bool) (occupiedSet unoccupiedSet : Option Word16)
  | cue (tag bank row : Byte) (fade : Option Word16) (releaseAfter : Bool)
  | releaseBank (tag bank : Byte)
  | releaseWatch (tag : Byte) (mask : BitVec 32)
  | openBracket (tag : Byte) (kind : BracketKind) (count : Byte) (strict notify : Bool)
  | closeBracket (tag : Byte)
  | abandonBracket (tag : Byte)
  | trunkFrameSent
  | trunkSilenceExpiry
  | pollSent
  | goodReport (address : Byte) (items : List Item)
  | replyTimeout (receiving : Bool)
  | fieldBadFrame
  | setSent (receiving : Bool)
  | pointStale (point : Fin 256)
  | refreshExpiry (address : Byte)
  | refreshLapse (address : Byte)
  | qualifyExpiry (entry : Fin 32)
  | releaseExpiry (entry : Fin 32)
  | holdExpiry (entry : Fin 32)
  | windowExpiry (entry : Fin 32)
  | patternStepExpiry (station : Fin 8)
  | dehumidRunExpiry
  | dehumidRestExpiry
  | dispatchTimerExpiry
  | dispatchResultDelivery
  | activateComplete
  | rowWriteComplete (flaws : List (Nat × Byte))
  | rowReadComplete
  | imageSaveComplete (flaws : List (Nat × Byte))
  | activationDelivery (bank : Fin 4)
  | settleExpiry (bank : Fin 4)
  | fadeStepExpiry (engine : Fin 4)
  | bracketTimerExpiry
  | malformedRequest (tag code : Byte)
  | resetPinAsserted (cut : Nat)
  | powerFails (cut : Nat)
  | ignoredFieldFrameEnd
deriving DecidableEq, Repr

end Sys2Proof
end

