-- ==== Sys2Proof/Machine/State.lean ====
section
/-! DEFINITION. The state of the part as plain data: the working tables, the run state of each of the
twelve blocks, the external serial memory, the supply, the RESET pin and the straps, and the queue of
waiting commands; the ways a step can stop; and the part right after reset. -/

namespace Sys2Proof.Machine

open Sys2Proof

/-! ### Named values (R173 point 2: numbered from 0 in the order of their rule)

A field of a table that holds a named value takes one byte, and a write in CONFIG is stored as written
(R162), so each such type has a last constructor for a byte its rule does not list. -/

/-- R2. -/
inductive NodeKind
  | sensor | actuator | mixed | unlisted (code : Byte)
deriving DecidableEq, Repr, Inhabited

/-- R13. -/
inductive UnitKind
  | temp | rh | flow | power | state | raw | unlisted (code : Byte)
deriving DecidableEq, Repr, Inhabited

/-- R41. -/
inductive Compare
  | above | below | outside | unlisted (code : Byte)
deriving DecidableEq, Repr, Inhabited

/-- R41. -/
inductive WatchMode
  | delay | pulse | rate | count | unlisted (code : Byte)
deriving DecidableEq, Repr, Inhabited

/-- R41; `neither` is the edge select NONE. -/
inductive EdgeSelect
  | enter | leave | both | neither | unlisted (code : Byte)
deriving DecidableEq, Repr, Inhabited

/-- R41. -/
inductive Severity
  | advisory | warm | critical | unlisted (code : Byte)
deriving DecidableEq, Repr, Inhabited

/-- R41. -/
inductive StalePolicy
  | hold | trip | clear | unlisted (code : Byte)
deriving DecidableEq, Repr, Inhabited

/-- R22; `unowned` is the owner NONE. -/
inductive Owner
  | unowned | supervisor | lighting | zones | dispatch | fog | unlisted (code : Byte)
deriving DecidableEq, Repr, Inhabited

/-- R173 point 8. -/
inductive SlotKind
  | poll | set | free | unlisted (code : Byte)
deriving DecidableEq, Repr, Inhabited

/-- R83; `unused` is the kind NONE. -/
inductive SinkKind
  | unused | zones | dehumid | proportional | fixed | unlisted (code : Byte)
deriving DecidableEq, Repr, Inhabited

/-- R81. -/
inductive Trigger
  | timer | arrivals | unlisted (code : Byte)
deriving DecidableEq, Repr, Inhabited

/-- R127. -/
inductive Curve
  | linear | square | unlisted (code : Byte)
deriving DecidableEq, Repr, Inhabited

/-- A field that may be NONE, as it is stored: its presence byte and its value (R173 point 5). -/
structure OptNum where
  present : Byte
  value : Nat
deriving DecidableEq, Repr, Inhabited

/-! ### Working tables (R161, R176) -/

/-- R2. -/
structure NodeRec where
  address : Nat
  kind : NodeKind
  refresh : Nat
  silent : Nat
  offline : Nat
deriving DecidableEq, Repr, Inhabited

/-- R13. -/
structure PointRec where
  node : Nat
  index : Nat
  unitKind : UnitKind
  low : Int
  high : Int
  maxAge : Nat
  forward : Byte
  deadband : Nat
deriving DecidableEq, Repr, Inhabited

/-- R41. -/
structure WatchRec where
  point : OptNum
  compare : Compare
  threshold : Nat
  highThreshold : Nat
  hysteresis : Nat
  mode : WatchMode
  edge : EdgeSelect
  qualify : Nat
  release : Nat
  hold : Nat
  window : Nat
  limit : Nat
  severity : Severity
  latch : Byte
  stale : StalePolicy
  chain : Byte
deriving DecidableEq, Repr, Inhabited

/-- R63: the three points of one station. -/
structure FogMapRec where
  humidity : OptNum
  air : OptNum
  chill : OptNum
deriving DecidableEq, Repr, Inhabited

/-- R64: the tune fields of one station. Patterns hold bit n for step n (R173 point 6). -/
structure FogTuneRec where
  warn : Int
  risk : Int
  hysteresis : Nat
  watchDemand : Nat
  riskDemand : Nat
  fan : OptNum
  fanLevel : Nat
  clearPattern : Word16
  watchPattern : Word16
  riskPattern : Word16
  period : Nat
deriving DecidableEq, Repr, Inhabited

/-- R64, entry 8: the dehumidifier's least times, in s. -/
structure DehumidTimes where
  minRun : Nat
  minRest : Nat
deriving DecidableEq, Repr, Inhabited

/-- R81. -/
structure DispatchRec where
  flow : OptNum
  supply : OptNum
  ret : OptNum
  factor : Nat
  trigger : Trigger
  arrivalCount : Nat
  period : Nat
deriving DecidableEq, Repr, Inhabited

/-- R83. -/
structure SinkMapRec where
  kind : SinkKind
  capacity : Nat
  valve : OptNum
  input : Nat
  essential : Byte
deriving DecidableEq, Repr, Inhabited

/-- R84. -/
structure SinkTuneRec where
  sinkClass : Nat
  weight : Nat
  setpoint : Int
  gain : Nat
  fixedDemand : Nat
  slew : Nat
deriving DecidableEq, Repr, Inhabited

/-- R100. -/
structure ZoneMapRec where
  point : OptNum
  coil : Nat
  primary : Nat
  coilCapacity : Nat
  primaryCapacity : Nat
  iceAdjacent : Byte
deriving DecidableEq, Repr, Inhabited

/-- R101. -/
structure ZoneSetRec where
  occupiedSet : Int
  unoccupiedSet : Int
  occupied : Byte
  gain : Nat
  fallback : Nat
deriving DecidableEq, Repr, Inhabited

/-- R22. -/
structure ChannelRec where
  owner : Owner
  node : Nat
  nodeChannel : Nat
  floor : Nat
  ceiling : Nat
  heatBearing : Byte
  warmCap : Nat
  criticalCap : Nat
  start : Nat
deriving DecidableEq, Repr, Inhabited

/-- R173 point 8, entry 0 of SCHEDULE. -/
structure ScheduleHead where
  slotCount : Nat
  bitRate : Nat
  replyTimeout : Nat
deriving DecidableEq, Repr, Inhabited

/-- R173 point 8, one slot. -/
structure SlotRec where
  kind : SlotKind
  address : Nat
deriving DecidableEq, Repr, Inhabited

/-- R163. -/
structure TimersRec where
  bracketLimit : Nat
  silenceLimit : Nat
deriving DecidableEq, Repr, Inhabited

/-- R127. -/
structure ProfileRec where
  period : Nat
  curve : Curve
deriving DecidableEq, Repr, Inhabited

/-- The 17 tables the stored image carries (R176), as the part holds them. -/
structure Tables where
  nodes : Tab NodeRec 48
  points : Tab PointRec 256
  watch : Tab WatchRec 32
  saturation : Tab Nat 101
  fogMap : Tab FogMapRec 8
  motor : OptNum
  sinkMap : Tab SinkMapRec 8
  zoneMap : Tab ZoneMapRec 16
  channels : Tab ChannelRec 512
  scheduleHead : ScheduleHead
  slots : Tab SlotRec 128
  thresholds : Tab Int 32
  fogTune : Tab FogTuneRec 8
  dehumid : DehumidTimes
  sinkTune : Tab SinkTuneRec 8
  dispatch : DispatchRec
  zoneSet : Tab ZoneSetRec 16
  timers : TimersRec
  enables : Word16
  profile : ProfileRec
deriving DecidableEq, Repr

/-- The tables after a reset with BOOT = HOLD, and after a failed load: structural tables empty (R6,
R13, R22, R41, R61, R63, R83, R100), tunable tables at their HOLD values (R39, R64, R81, R84, R101),
TIMERS and the enables at the values of R163, LIGHT_PROFILE 20 ms LINEAR (R127). An entry of NODES
whose every field is 0 holds no record: DESIGN CHOICE (log 3). The fields of an empty WATCH entry but for its
point and its flags: DESIGN CHOICE (log 38). The fields of an empty SINK_MAP entry but for its kind, and of an empty
ZONE_MAP entry but for its temperature point: DESIGN CHOICE (log 48). -/
def Tables.empty : Tables where
  nodes := .replicate 48 ⟨0, .sensor, 0, 0, 0⟩
  points := .replicate 256 ⟨0, 0, .temp, 0, 0, 0, 0, 0⟩
  watch := .replicate 32 ⟨⟨0, 0⟩, .above, 0, 0, 0, .delay, .enter, 0, 0, 0, 0, 0, .advisory, 0, .hold, 0⟩
  saturation := .replicate 101 0
  fogMap := .replicate 8 ⟨⟨0, 0⟩, ⟨0, 0⟩, ⟨0, 0⟩⟩
  motor := ⟨0, 0⟩
  sinkMap := .replicate 8 ⟨.unused, 0, ⟨0, 0⟩, 0, 0⟩
  zoneMap := .replicate 16 ⟨⟨0, 0⟩, 0, 0, 0, 0, 0⟩
  channels := .replicate 512 ⟨.unowned, 0, 0, 0, 0, 0, 0, 0, 0⟩
  scheduleHead := ⟨0, 0, 0⟩
  slots := .replicate 128 ⟨.free, 0⟩
  thresholds := .replicate 32 0
  fogTune := .replicate 8 ⟨0, 0, 0, 0, 0, ⟨0, 0⟩, 0, 0, 0, 0, 1⟩
  dehumid := ⟨60, 60⟩
  sinkTune := .replicate 8 ⟨0, 1, 0, 0, 0, 1000⟩
  dispatch := ⟨⟨0, 0⟩, ⟨0, 0⟩, ⟨0, 0⟩, 0, .timer, 0, 0⟩
  zoneSet := .replicate 16 ⟨0, 0, 0, 0, 0⟩
  timers := ⟨Config.bracketLimit, Config.silenceLimit⟩
  enables := 0xFFFF
  profile := ⟨20, .linear⟩

/-- R172: the 28 tables a request may name. -/
inductive TableId
  | nodes | points | watch | saturation | fogMap | sinkMap | zoneMap | channels | schedule
  | thresholds | fogTune | sinkTune | dispatch | zoneSet | timers | flagEnables | lightProfile | scenes
  | info | nodeState | pointValues | channelValues | watchState | fogResult | dispatchResult
  | zoneResult | bankState | abortRecord
deriving DecidableEq, Repr, Inhabited

/-! ### Supply, pins, straps and the image loader (chapter 11) -/

/-- R175: the reset cause record. -/
inductive ResetCause
  | power | pin | soft
deriving DecidableEq, Repr, Inhabited

/-- The supply, the RESET pin and what the part sampled at its last start (R175). `powerHeld` is set
from a power-on that found the RESET pin asserted to the release of the pin, so that the start is
recorded POWER. -/
structure Power where
  supply : Bool
  pinAsserted : Bool
  powerHeld : Bool
  straps : Straps
  cause : ResetCause
deriving DecidableEq, Repr, Inhabited

/-- Section 3.3 and R174: the operating state. -/
inductive OpState
  | loading | config | run
deriving DecidableEq, Repr, Inhabited

/-- R174: why a stored image is INVALID. -/
inductive ImageReason
  | noSignature | format | length | check | validation (table : TableId) (entry : Nat)
deriving DecidableEq, Repr, Inhabited

/-- R174: the image status. -/
inductive ImageStatus
  | notLoaded | valid | invalid (reason : ImageReason)
deriving DecidableEq, Repr, Inhabited

structure Loader where
  op : OpState
  image : ImageStatus
deriving DecidableEq, Repr, Inhabited

/-- The external serial memory: the image region (R176), as the cells that do not read as erased, in
rising order; and the place of each of the 128 scene rows, row (b, r) at place 32 × b + r, as the
bytes from its channel count to its row check (R173 point 7), none where nothing was ever written. -/
structure SerialMemory where
  image : List Host.Cell
  rows : Tab (List Byte) 128
deriving DecidableEq, Repr

/-! ### Segment master (chapter 1) -/

/-- R3. -/
inductive NodeState
  | unknown | online | silent | offline
deriving DecidableEq, Repr, Inhabited

/-- R3, with the mark that the refresh expiry of this restart of the age has happened (R34: "once for
each restart of the age"). `lastSetMs` is the last-SET age, in ms. -/
structure NodeRun where
  state : NodeState
  misses : Nat
  lastSetMs : Nat
  lapse : Bool
  refreshed : Bool
deriving DecidableEq, Repr, Inhabited

/-- R31. -/
inductive JoinReason
  | start | value | refresh
deriving DecidableEq, Repr, Inhabited

/-- R31: one entry of the urgent queue. -/
structure UrgentEntry where
  address : Nat
  reason : JoinReason
deriving DecidableEq, Repr, Inhabited

/-- R7, R10, R11: the frame a slot transmits: a POLL of a node, or a SET frame of a node with the pairs it was
composed of. -/
inductive Outgoing
  | poll (node : Nat)
  | set (node : Nat) (pairs : List (Nat × Nat))
deriving DecidableEq, Repr, Inhabited

/-- What the slot at the slot position is doing (R7, R8, R10, R11). `held` has its frame ready and waits for the
frame that is being received to end (R1), `stale` saying that its reception began outside RUN. -/
inductive SlotPhase
  | silent
  | held (stale : Bool) (frame : Outgoing)
  | sendingPoll (node : Nat)
  | awaiting (node : Nat)
  | sendingSet (node : Nat) (pairs : List (Nat × Nat))
deriving DecidableEq, Repr, Inhabited

/-- R25. -/
structure ChannelRun where
  demand : Nat
  commanded : Nat
deriving DecidableEq, Repr, Inhabited

/-- How an event at the channel image follows the one before it: as the first of its step, as a further one of the same
step, or as a further write of the same series (R29), before which R36 lets a composition fall. -/
inductive EventLink
  | first | sameStep | sameSeries
deriving DecidableEq, Repr, Inhabited

/-- R36: one event the channel image has taken, a demand write or a re-clamp: the channels it changed as they stood
before it, the length of the urgent queue before it, the nodes it offered, in order, and how it follows the one before. -/
structure ImageEvent where
  before : List (Nat × ChannelRun)
  queued : Nat
  offers : List Nat
  link : EventLink
deriving DecidableEq, Repr, Inhabited

/-- The segment master's run state. A timer is absent when stopped and holds its remaining ms when
running. `bitRate` and `replyTimeout` are the values taken on entry to RUN (R1, R12). `log` holds,
oldest first, the events of the channel image since the last slot start and since time last passed, and `draws` counts the
compositions that found a series in it: the model's own fields, by which R36's composition may fall between two writes of
a series (log 50). -/
structure Segment where
  nodes : Tab NodeRun 48
  slotPos : Nat
  phase : SlotPhase
  replyTimer : Option Nat
  urgent : List UrgentEntry
  checkErrors : Nat
  bitRate : Nat
  replyTimeout : Nat
  log : List ImageEvent
  draws : Nat
deriving DecidableEq, Repr

/-! ### Point table (chapter 1) -/

/-- R14. -/
inductive Quality
  | never | good | suspect | fault | stale
deriving DecidableEq, Repr, Inhabited

/-- R14. `ageMs` is the age in ms; the age in s is its whole seconds. -/
structure PointRun where
  value : Option Int
  quality : Quality
  ageMs : Nat
  sentValue : Option Int
  sentQuality : Option Quality
deriving DecidableEq, Repr, Inhabited

/-- The point table's run state; `runMs` is the time since entry to RUN, from which a point that has
never been GOOD or SUSPECT counts its age (R18). -/
structure PointUnit where
  runs : Tab PointRun 256
  runMs : Nat
deriving DecidableEq, Repr

/-! ### Channel image (chapter 2) -/

/-! ### Surface watch (chapter 3) -/

/-- R57. -/
inductive GuardLevel
  | normal | warm | critical
deriving DecidableEq, Repr, Inhabited

/-- R43. -/
inductive WatchState
  | idle | qualifying | tripped | releasing | latched
deriving DecidableEq, Repr, Inhabited

/-- R43; `timer` holds the remaining ms of the running timer. -/
structure WatchRun where
  cond : Bool
  state : WatchState
  count : Nat
  timer : Option Nat
  lost : Bool
deriving DecidableEq, Repr, Inhabited

structure WatchUnit where
  runs : Tab WatchRun 32
  guard : GuardLevel
deriving DecidableEq, Repr

/-! ### Fog monitor (chapter 4) -/

/-- R65. -/
inductive FogState
  | unknown | clear | watch | risk
deriving DecidableEq, Repr, Inhabited

/-- R65. -/
structure StationRun where
  state : FogState
  dewPoint : Option Int
  margin : Option Int
  lowE : Bool
  highE : Bool
  step : Nat
  timer : Option Nat
deriving DecidableEq, Repr, Inhabited

/-- Section 4.8. -/
inductive DehumidState
  | off | running | resting
deriving DecidableEq, Repr, Inhabited

/-- The fog monitor's run state: stations, dehumidifier run record and published record (R74). -/
structure FogUnit where
  stations : Tab StationRun 8
  unitState : DehumidState
  runTimer : Option Nat
  restTimer : Option Nat
  served : Bool
  demand : Nat
  promotion : Bool
deriving DecidableEq, Repr

/-! ### Heat dispatcher (chapter 5) -/

/-- R85: what the dispatch result holds for one sink. -/
structure SinkResult where
  demand : Nat
  effClass : Nat
  grant : Nat
  target : Nat
deriving DecidableEq, Repr, Inhabited

/-- R85. `passMade` says that a pass has been made since entry to RUN (R90). -/
structure HeatUnit where
  available : Nat
  blind : Bool
  sinks : Tab SinkResult 8
  ageMs : Nat
  valves : Tab Nat 8
  timer : Option Nat
  arrivals : Nat
  passMade : Bool
deriving DecidableEq, Repr

/-! ### Zone controller (chapter 6) -/

/-- R102. -/
structure ZoneRun where
  demand : Nat
  eligible : Nat
  offered : Nat
  share : Nat
  primaryPart : Nat
  coil : Nat
  primary : Nat
  fallback : Bool
deriving DecidableEq, Repr, Inhabited

/-- R102: the split record. -/
structure Split where
  grant : Nat
  offeredSum : Nat
  residual : Nat
deriving DecidableEq, Repr, Inhabited

/-- R105: what the delivery of one dispatch result carries. -/
structure Delivery where
  grant : Nat
  offered : Tab Nat 16
deriving DecidableEq, Repr

/-- The zone controller's run state, with the dispatch results published but not yet taken, oldest
first (R97, R103). -/
structure ZoneUnit where
  runs : Tab ZoneRun 16
  split : Option Split
  deliveries : List Delivery
deriving DecidableEq, Repr

/-! ### Scene store and cue engine (chapters 7 and 8) -/

/-- R120. -/
inductive BankState
  | idle | activating | active | closing
deriving DecidableEq, Repr, Inhabited

/-- R120; `settle` holds the remaining ms of the settle timer. -/
structure Bank where
  state : BankState
  row : Option Nat
  pairs : List (Nat × Nat)
  fade : Nat
  skipped : Nat
  releaseAfter : Bool
  settle : Option Nat
  orphan : Bool
deriving DecidableEq, Repr, Inhabited

/-- R115: an operation of the memory port. A long request's operation carries the request's tag, and
IMAGE_SAVE the copy of the tables taken at its acceptance (R179). -/
inductive MemOp
  | activate (bank row : Nat)
  | rowWrite (tag : Byte) (bank row : Nat) (content : List Byte)
  | rowRead (tag : Byte) (bank row : Nat)
  | imageSave (tag : Byte) (copy : Tables)
deriving DecidableEq, Repr

/-- The scene store's run state; the head of the queue is in flight. `completions` holds the banks
whose activation has completed and is not yet delivered to the fade engine (R121, R129). -/
structure SceneStore where
  banks : Tab Bank 4
  queue : List MemOp
  completions : List Nat
deriving DecidableEq, Repr

/-- R128. -/
inductive EngineState
  | free | pending | running
deriving DecidableEq, Repr, Inhabited

/-- R128: one entry of a held list. -/
structure Held where
  channel : Nat
  start : Nat
  target : Nat
deriving DecidableEq, Repr, Inhabited

/-- R128; `timer` holds the remaining ms of the step timer. -/
structure Engine where
  state : EngineState
  row : Option Nat
  fade : Option Nat
  releaseAfter : Bool
  total : Nat
  step : Nat
  timer : Option Nat
  held : List Held
deriving DecidableEq, Repr, Inhabited

/-! ### Bracket unit (chapter 9) -/

/-- Section 9.1. -/
inductive BracketState
  | idle | opened (depth : Nat) | counted (n k : Nat) | aborted (residual : Nat)
deriving DecidableEq, Repr, Inhabited

/-- A stageable request as it stands after its checks (R143). -/
inductive StagedReq
  | setChannel (channel value : Nat)
  | setZone (zone : Nat) (occupied : Option Bool) (occupiedSet unoccupiedSet : Option Int)
  | cue (bank row : Nat) (fade : Option Nat) (releaseAfter : Bool)
  | releaseBank (bank : Nat)
deriving DecidableEq, Repr, Inhabited

/-- R143. -/
structure StageItem where
  ordinal : Nat
  request : StagedReq
deriving DecidableEq, Repr, Inhabited

/-- R160: the result codes, 00h to 10h in this order. -/
inductive ResultCode
  | done | clamped | accepted | staged | busy | state | starting | badRequest | badTable | badEntry
  | owned | bankBusy | rowActive | guarded | noBracket | aborted | failed
deriving DecidableEq, Repr, Inhabited

/-- R151, R172: the abort codes, 00h to 09h in this order. -/
inductive AbortCode
  | abandoned | guard | timeout | link | capacity | nest | restricted | strictRefusal | conflict | stop
deriving DecidableEq, Repr, Inhabited

/-- R151: the abort record. -/
structure AbortRecord where
  code : AbortCode
  kind : BracketKind
  depth : Nat
  stagedCount : Nat
  ordinal : Option Nat
  refusal : Option ResultCode
  guard : GuardLevel
  duration : Nat
deriving DecidableEq, Repr, Inhabited

/-- R143. `openMs` is the open time, in ms, which stands still while no bracket is open: DESIGN CHOICE (log 51); `timer`
the remaining ms of the bracket timer. -/
structure BracketUnit where
  state : BracketState
  kind : BracketKind
  strict : Bool
  notify : Bool
  ordinal : Nat
  openMs : Nat
  stage : List StageItem
  timer : Option Nat
  record : Option AbortRecord
deriving DecidableEq, Repr, Inhabited

/-! ### Trunk interface (chapter 10) -/

/-- R168: the event flags, numbered 0 to 15 in this order. -/
inductive EventFlag
  | resetSeen | guardChanged | watchLatched | fogChanged | dispatchBlind | shortfall | nodeChanged
  | refreshLapse | cueDone | bankFault | bracketAborted | imageEvent | uplinkDropped | requestDropped
  | trunkSilent | fieldErrors
deriving DecidableEq, Repr, Inhabited

/-- R160, R172: a reply frame's body. -/
structure Reply where
  tag : Byte
  code : Byte
  result : ResultCode
  data : List Byte
deriving DecidableEq, Repr, Inhabited

/-- R20, R172: one entry of an UPLINK. -/
structure UplinkEntry where
  point : Nat
  value : Option Int
  quality : Quality
deriving DecidableEq, Repr, Inhabited

/-- R167: a frame of the report/notice queue. -/
inductive Report
  | uplink (entries : List UplinkEntry)
  | notice (flags enables : Word16) (record : Option AbortRecord)
deriving DecidableEq, Repr, Inhabited

/-- R167: what the transmitter is sending; a frame in transmission stands at the head of its queue. -/
inductive Transmit
  | idle | reply | report
deriving DecidableEq, Repr, Inhabited

/-- R158: the trunk counters. -/
structure Counters where
  goodFrames : Nat
  checkErrors : Nat
  requestsDropped : Nat
  uplinksDropped : Nat
  noticesDropped : Nat
deriving DecidableEq, Repr, Inhabited

/-- The trunk interface's run state; `silence` holds the remaining ms of the trunk silence timer. -/
structure TrunkUnit where
  flags : Word16
  replies : List Reply
  reports : List Report
  sending : Transmit
  silence : Option Nat
  counters : Counters
deriving DecidableEq, Repr, Inhabited

/-! ### The whole part -/

/-- Everything the spec gives the part, and `pending`, the commands that wait, first in, first out. -/
structure State where
  pending : List Instr
  power : Power
  loader : Loader
  tables : Tables
  memory : SerialMemory
  seg : Segment
  points : PointUnit
  image : Tab ChannelRun 512
  watch : WatchUnit
  fog : FogUnit
  heat : HeatUnit
  zones : ZoneUnit
  store : SceneStore
  engines : Tab Engine 4
  bracket : BracketUnit
  trunk : TrunkUnit
deriving DecidableEq, Repr

/-- The reasons a step can fault. There is none: every command of the table has an effect, or by its
own rule none, in every state, so no step faults. -/
inductive Fault
deriving DecidableEq, Repr

/-- The reasons a step can be refused. -/
inductive Refusal
  /-- Raised by an arm of `exec` whose command has no meaning yet; safe, since the step stops. No arm
  raises it. -/
  | notModelled (mnemonic : String)
deriving DecidableEq, Repr

/-! ### Reset values, block by block -/

/-- R3. -/
def NodeRun.initial : NodeRun := ⟨.unknown, 0, 0, false, false⟩

/-- R12. The bit rate and reply timeout are taken on entry to RUN; before it the model holds the first
rate and 0, DESIGN CHOICE (log 6). -/
def Segment.initial : Segment := ⟨.replicate 48 .initial, 0, .silent, none, [], 0, 0, 0, [], 0⟩

/-- R14. -/
def PointRun.initial : PointRun := ⟨none, .never, 0, none, none⟩

def PointUnit.initial : PointUnit := ⟨.replicate 256 .initial, 0⟩

/-- R43: an entry with no chain into it; the empty WATCH table chains none. -/
def WatchRun.initial : WatchRun := ⟨false, .idle, 0, none, true⟩

/-- R59. -/
def WatchUnit.initial : WatchUnit := ⟨.replicate 32 .initial, .normal⟩

/-- R65. -/
def StationRun.initial : StationRun := ⟨.unknown, none, none, false, false, 0, none⟩

/-- R79. -/
def FogUnit.initial : FogUnit := ⟨.replicate 8 .initial, .off, none, none, false, 0, false⟩

/-- R98. -/
def HeatUnit.initial : HeatUnit := ⟨0, true, .replicate 8 ⟨0, 0, 0, 0⟩, 0, .replicate 8 0, none, 0, false⟩

/-- R102. -/
def ZoneRun.initial : ZoneRun := ⟨0, 0, 0, 0, 0, 0, 0, true⟩

/-- R109. -/
def ZoneUnit.initial : ZoneUnit := ⟨.replicate 16 .initial, none, []⟩

/-- R120. The default fade time of an empty buffer is 0: DESIGN CHOICE (log 7). -/
def Bank.initial : Bank := ⟨.idle, none, [], 0, 0, false, none, false⟩

def SceneStore.initial : SceneStore := ⟨.replicate 4 .initial, [], []⟩

/-- R128. -/
def Engine.initial : Engine := ⟨.free, none, none, false, 0, 0, none, []⟩

/-- R143. The cleared kind is the first of its values, OPEN: DESIGN CHOICE (log 42). The open time, for which no reset
value is given, is 0: DESIGN CHOICE (log 51). -/
def BracketUnit.initial : BracketUnit := ⟨.idle, .openKind, false, false, 0, 0, [], none, none⟩

/-- R167, R168, R171: right after a reset RESET_SEEN is set, its NOTICE is the first frame, and the
silence timer runs with 60 s. -/
def TrunkUnit.initial : TrunkUnit where
  flags := 0x0001
  replies := []
  reports := [.notice 0x0001 0xFFFF none]
  sending := .report
  silence := some (1000 * Config.silenceLimit)
  counters := ⟨0, 0, 0, 0, 0⟩

/-- The part right after a reset that found the given straps and recorded the given cause (R174, R175),
with the serial memory and the waiting commands as they stand. -/
def State.started (pending : List Instr) (memory : SerialMemory) (straps : Straps) (cause : ResetCause) :
    State where
  pending := pending
  power := ⟨true, false, false, straps, cause⟩
  loader := ⟨match straps.boot with | .auto => .loading | .hold => .config, .notLoaded⟩
  tables := .empty
  memory := memory
  seg := .initial
  points := .initial
  image := .replicate 512 ⟨0, 0⟩
  watch := .initial
  fog := .initial
  heat := .initial
  zones := .initial
  store := .initial
  engines := .replicate 4 .initial
  bracket := .initial
  trunk := .initial

/-- A serial memory in which nothing was ever written (R114). DESIGN CHOICE (log 2). -/
def SerialMemory.blank : SerialMemory := ⟨[], .replicate 128 []⟩

/-- The machine right after reset: a power-on with the BOOT strap at HOLD and both RATE straps low,
beside a serial memory in which nothing was ever written. The strap levels and the memory's content
are inputs of the part: DESIGN CHOICE (logs 1 and 2). -/
def State.reset : State :=
  State.started [] .blank ⟨.hold, false, false⟩ .power

end Sys2Proof.Machine
end

