-- ==== Sys2Proof/Machine/Layout.lean ====
section
/-! DEFINITION. The layouts of R172 and R173: the byte of every named value, the entries of the 17
writable tables as bytes, and the tables filled from bytes. A field takes the bytes its own range asks
for, in the order its rule lists the fields. -/

namespace Sys2Proof.Machine

open Sys2Proof

/-! ### Bytes of named values (R173 point 2) -/

def NodeKind.byte : NodeKind → Byte
  | .sensor => 0 | .actuator => 1 | .mixed => 2 | .unlisted b => b

def NodeKind.ofByte (b : Byte) : NodeKind :=
  if b = 0 then .sensor else if b = 1 then .actuator else if b = 2 then .mixed else .unlisted b

def UnitKind.byte : UnitKind → Byte
  | .temp => 0 | .rh => 1 | .flow => 2 | .power => 3 | .state => 4 | .raw => 5 | .unlisted b => b

def UnitKind.ofByte (b : Byte) : UnitKind :=
  if b = 0 then .temp else if b = 1 then .rh else if b = 2 then .flow else if b = 3 then .power
  else if b = 4 then .state else if b = 5 then .raw else .unlisted b

def Compare.byte : Compare → Byte
  | .above => 0 | .below => 1 | .outside => 2 | .unlisted b => b

def Compare.ofByte (b : Byte) : Compare :=
  if b = 0 then .above else if b = 1 then .below else if b = 2 then .outside else .unlisted b

def WatchMode.byte : WatchMode → Byte
  | .delay => 0 | .pulse => 1 | .rate => 2 | .count => 3 | .unlisted b => b

def WatchMode.ofByte (b : Byte) : WatchMode :=
  if b = 0 then .delay else if b = 1 then .pulse else if b = 2 then .rate else if b = 3 then .count
  else .unlisted b

def EdgeSelect.byte : EdgeSelect → Byte
  | .enter => 0 | .leave => 1 | .both => 2 | .neither => 3 | .unlisted b => b

def EdgeSelect.ofByte (b : Byte) : EdgeSelect :=
  if b = 0 then .enter else if b = 1 then .leave else if b = 2 then .both else if b = 3 then .neither
  else .unlisted b

def Severity.byte : Severity → Byte
  | .advisory => 0 | .warm => 1 | .critical => 2 | .unlisted b => b

def Severity.ofByte (b : Byte) : Severity :=
  if b = 0 then .advisory else if b = 1 then .warm else if b = 2 then .critical else .unlisted b

def StalePolicy.byte : StalePolicy → Byte
  | .hold => 0 | .trip => 1 | .clear => 2 | .unlisted b => b

def StalePolicy.ofByte (b : Byte) : StalePolicy :=
  if b = 0 then .hold else if b = 1 then .trip else if b = 2 then .clear else .unlisted b

def Owner.byte : Owner → Byte
  | .unowned => 0 | .supervisor => 1 | .lighting => 2 | .zones => 3 | .dispatch => 4 | .fog => 5
  | .unlisted b => b

def Owner.ofByte (b : Byte) : Owner :=
  if b = 0 then .unowned else if b = 1 then .supervisor else if b = 2 then .lighting
  else if b = 3 then .zones else if b = 4 then .dispatch else if b = 5 then .fog else .unlisted b

def SlotKind.byte : SlotKind → Byte
  | .poll => 0 | .set => 1 | .free => 2 | .unlisted b => b

def SlotKind.ofByte (b : Byte) : SlotKind :=
  if b = 0 then .poll else if b = 1 then .set else if b = 2 then .free else .unlisted b

def SinkKind.byte : SinkKind → Byte
  | .unused => 0 | .zones => 1 | .dehumid => 2 | .proportional => 3 | .fixed => 4 | .unlisted b => b

def SinkKind.ofByte (b : Byte) : SinkKind :=
  if b = 0 then .unused else if b = 1 then .zones else if b = 2 then .dehumid
  else if b = 3 then .proportional else if b = 4 then .fixed else .unlisted b

def Trigger.byte : Trigger → Byte
  | .timer => 0 | .arrivals => 1 | .unlisted b => b

def Trigger.ofByte (b : Byte) : Trigger :=
  if b = 0 then .timer else if b = 1 then .arrivals else .unlisted b

def Curve.byte : Curve → Byte
  | .linear => 0 | .square => 1 | .unlisted b => b

def Curve.ofByte (b : Byte) : Curve :=
  if b = 0 then .linear else if b = 1 then .square else .unlisted b

/-- R160: 00h DONE to 10h FAILED. -/
def ResultCode.code : ResultCode → Nat
  | .done => 0 | .clamped => 1 | .accepted => 2 | .staged => 3 | .busy => 4 | .state => 5
  | .starting => 6 | .badRequest => 7 | .badTable => 8 | .badEntry => 9 | .owned => 10
  | .bankBusy => 11 | .rowActive => 12 | .guarded => 13 | .noBracket => 14 | .aborted => 15
  | .failed => 16

/-- R172. -/
def AbortCode.code : AbortCode → Nat
  | .abandoned => 0 | .guard => 1 | .timeout => 2 | .link => 3 | .capacity => 4 | .nest => 5
  | .restricted => 6 | .strictRefusal => 7 | .conflict => 8 | .stop => 9

/-- R172. -/
def GuardLevel.code : GuardLevel → Nat
  | .normal => 0 | .warm => 1 | .critical => 2

/-- R172. -/
def BracketKind.code : BracketKind → Nat
  | .openKind => 0 | .countedKind => 1

/-- R172. -/
def Quality.code : Quality → Nat
  | .never => 0 | .good => 1 | .suspect => 2 | .fault => 3 | .stale => 4

/-- R172: the table identifiers. -/
def TableId.code : TableId → Nat
  | .nodes => 0x01 | .points => 0x02 | .watch => 0x03 | .saturation => 0x04 | .fogMap => 0x05
  | .sinkMap => 0x06 | .zoneMap => 0x07 | .channels => 0x08 | .schedule => 0x09
  | .thresholds => 0x0A | .fogTune => 0x0B | .sinkTune => 0x0C | .dispatch => 0x0D
  | .zoneSet => 0x0E | .timers => 0x0F | .flagEnables => 0x10 | .lightProfile => 0x11
  | .scenes => 0x12 | .info => 0x13 | .nodeState => 0x14 | .pointValues => 0x15
  | .channelValues => 0x16 | .watchState => 0x17 | .fogResult => 0x18 | .dispatchResult => 0x19
  | .zoneResult => 0x1A | .bankState => 0x1B | .abortRecord => 0x1C

/-- R161: the 28 tables, in the order of their identifiers. -/
def TableId.all : List TableId :=
  [.nodes, .points, .watch, .saturation, .fogMap, .sinkMap, .zoneMap, .channels, .schedule,
    .thresholds, .fogTune, .sinkTune, .dispatch, .zoneSet, .timers, .flagEnables, .lightProfile,
    .scenes, .info, .nodeState, .pointValues, .channelValues, .watchState, .fogResult,
    .dispatchResult, .zoneResult, .bankState, .abortRecord]

def TableId.ofCode (n : Nat) : Option TableId := TableId.all.find? fun t => t.code == n

/-- R176: the 17 tables of the stored image, in the order the body carries them. -/
def TableId.stored : List TableId :=
  [.nodes, .points, .watch, .saturation, .fogMap, .sinkMap, .zoneMap, .channels, .schedule,
    .thresholds, .fogTune, .sinkTune, .dispatch, .zoneSet, .timers, .flagEnables, .lightProfile]

/-- R161: the classes of tables. -/
inductive TableClass
  | structural | tunable | library | readOnly
deriving DecidableEq, Repr

def TableId.tableClass : TableId → TableClass
  | .nodes | .points | .watch | .saturation | .fogMap | .sinkMap | .zoneMap | .channels
  | .schedule => .structural
  | .thresholds | .fogTune | .sinkTune | .dispatch | .zoneSet | .timers | .flagEnables
  | .lightProfile => .tunable
  | .scenes => .library
  | .info | .nodeState | .pointValues | .channelValues | .watchState | .fogResult
  | .dispatchResult | .zoneResult | .bankState | .abortRecord => .readOnly

/-- R161: how many entries a table has. The spec numbers the entries of the tables of configuration
and of SCHEDULE, FOG_MAP and FOG_TUNE; of the read-only tables that hold more than one kind of item
the numbering is the model's: DESIGN CHOICE (log 9). -/
def TableId.entries : TableId → Nat
  | .nodes | .nodeState => 48
  | .points | .pointValues => 256
  | .watch | .thresholds => 32
  | .saturation => 101
  | .fogMap | .fogTune | .fogResult => 9
  | .sinkMap | .sinkTune => 8
  | .zoneMap | .zoneSet => 16
  | .channels | .channelValues => 512
  | .schedule => 129
  | .dispatch | .timers | .flagEnables | .lightProfile | .info | .abortRecord => 1
  | .scenes => 128
  | .watchState => 33
  | .dispatchResult => 10
  | .zoneResult => 17
  | .bankState => 9

/-! ### Fields that may be NONE (R173 point 5) -/

/-- NONE where the presence byte is 0, and the value otherwise. DESIGN CHOICE (log 4) for a presence
byte above 1. -/
def OptNum.get (o : OptNum) : Option Nat := if o.present = 0 then none else some o.value

def OptNum.given (o : OptNum) : Bool := o.present != 0

/-- Behind presence byte 0 the value bytes are 0. -/
def OptNum.bytes (o : OptNum) : List Byte := o.present :: u16 (o.get.getD 0)

/-- Behind presence byte 0 whatever stands in the value bytes is no value. -/
def OptNum.ofBytes (bs : List Byte) (o : Nat) : OptNum :=
  ⟨bs.getD o 0, if bs.getD o 0 = 0 then 0 else rd16 bs (o + 1)⟩

/-- A flag byte is set when it is not 0 (R173 point 3). DESIGN CHOICE (log 4) for a byte above 1. -/
def isSet (b : Byte) : Bool := b != 0

/-! ### Entries as bytes, and from bytes -/

def NodeRec.bytes (r : NodeRec) : List Byte :=
  u16 r.address ++ [r.kind.byte] ++ u16 r.refresh ++ u16 r.silent ++ u16 r.offline

/-- An entry of NODES whose every field is 0 holds no record. DESIGN CHOICE (log 3). -/
def NodeRec.present (r : NodeRec) : Bool :=
  !(r.address == 0 && r.kind == .sensor && r.refresh == 0 && r.silent == 0 && r.offline == 0)

/-- R2: a silent limit written as 0 marks it as not given, and the record then holds 3. -/
def NodeRec.withDefault (r : NodeRec) : NodeRec :=
  if r.present && r.silent == 0 then { r with silent := 3 } else r

def NodeRec.ofBytes (bs : List Byte) : NodeRec :=
  NodeRec.withDefault ⟨rd16 bs 0, .ofByte (bs.getD 2 0), rd16 bs 3, rd16 bs 5, rd16 bs 7⟩

def PointRec.bytes (r : PointRec) : List Byte :=
  u16 r.node ++ u16 r.index ++ [r.unitKind.byte] ++ s16 r.low ++ s16 r.high ++ u16 r.maxAge ++
    [r.forward] ++ u16 r.deadband

def PointRec.ofBytes (bs : List Byte) : PointRec :=
  ⟨rd16 bs 0, rd16 bs 2, .ofByte (bs.getD 4 0), rdS16 bs 5, rdS16 bs 7, rd16 bs 9, bs.getD 11 0,
    rd16 bs 12⟩

def WatchRec.bytes (r : WatchRec) : List Byte :=
  r.point.bytes ++ [r.compare.byte] ++ u16 r.threshold ++ u16 r.highThreshold ++ u16 r.hysteresis ++
    [r.mode.byte, r.edge.byte] ++ u16 r.qualify ++ u16 r.release ++ u16 r.hold ++ u32 r.window ++
    u16 r.limit ++ [r.severity.byte, r.latch, r.stale.byte, r.chain]

def WatchRec.ofBytes (bs : List Byte) : WatchRec :=
  ⟨.ofBytes bs 0, .ofByte (bs.getD 3 0), rd16 bs 4, rd16 bs 6, rd16 bs 8, .ofByte (bs.getD 10 0),
    .ofByte (bs.getD 11 0), rd16 bs 12, rd16 bs 14, rd16 bs 16, rd32 bs 18, rd16 bs 22,
    .ofByte (bs.getD 24 0), bs.getD 25 0, .ofByte (bs.getD 26 0), bs.getD 27 0⟩

def FogMapRec.bytes (r : FogMapRec) : List Byte := r.humidity.bytes ++ r.air.bytes ++ r.chill.bytes

def FogMapRec.ofBytes (bs : List Byte) : FogMapRec := ⟨.ofBytes bs 0, .ofBytes bs 3, .ofBytes bs 6⟩

def FogTuneRec.bytes (r : FogTuneRec) : List Byte :=
  s16 r.warn ++ s16 r.risk ++ u16 r.hysteresis ++ u16 r.watchDemand ++ u16 r.riskDemand ++
    r.fan.bytes ++ u16 r.fanLevel ++ u16 r.clearPattern.toNat ++ u16 r.watchPattern.toNat ++
    u16 r.riskPattern.toNat ++ u16 r.period

def FogTuneRec.ofBytes (bs : List Byte) : FogTuneRec :=
  ⟨rdS16 bs 0, rdS16 bs 2, rd16 bs 4, rd16 bs 6, rd16 bs 8, .ofBytes bs 10, rd16 bs 13,
    BitVec.ofNat 16 (rd16 bs 15), BitVec.ofNat 16 (rd16 bs 17), BitVec.ofNat 16 (rd16 bs 19),
    rd16 bs 21⟩

def DehumidTimes.bytes (r : DehumidTimes) : List Byte := u16 r.minRun ++ u16 r.minRest

def DehumidTimes.ofBytes (bs : List Byte) : DehumidTimes := ⟨rd16 bs 0, rd16 bs 2⟩

def DispatchRec.bytes (r : DispatchRec) : List Byte :=
  r.flow.bytes ++ r.supply.bytes ++ r.ret.bytes ++ u16 r.factor ++ [r.trigger.byte] ++
    u16 r.arrivalCount ++ u16 r.period

def DispatchRec.ofBytes (bs : List Byte) : DispatchRec :=
  ⟨.ofBytes bs 0, .ofBytes bs 3, .ofBytes bs 6, rd16 bs 9, .ofByte (bs.getD 11 0), rd16 bs 12,
    rd16 bs 14⟩

def SinkMapRec.bytes (r : SinkMapRec) : List Byte :=
  [r.kind.byte] ++ u16 r.capacity ++ r.valve.bytes ++ u16 r.input ++ [r.essential]

def SinkMapRec.ofBytes (bs : List Byte) : SinkMapRec :=
  ⟨.ofByte (bs.getD 0 0), rd16 bs 1, .ofBytes bs 3, rd16 bs 6, bs.getD 8 0⟩

def SinkTuneRec.bytes (r : SinkTuneRec) : List Byte :=
  u16 r.sinkClass ++ u16 r.weight ++ s16 r.setpoint ++ u16 r.gain ++ u16 r.fixedDemand ++ u16 r.slew

def SinkTuneRec.ofBytes (bs : List Byte) : SinkTuneRec :=
  ⟨rd16 bs 0, rd16 bs 2, rdS16 bs 4, rd16 bs 6, rd16 bs 8, rd16 bs 10⟩

def ZoneMapRec.bytes (r : ZoneMapRec) : List Byte :=
  r.point.bytes ++ u16 r.coil ++ u16 r.primary ++ u16 r.coilCapacity ++ u16 r.primaryCapacity ++
    [r.iceAdjacent]

def ZoneMapRec.ofBytes (bs : List Byte) : ZoneMapRec :=
  ⟨.ofBytes bs 0, rd16 bs 3, rd16 bs 5, rd16 bs 7, rd16 bs 9, bs.getD 11 0⟩

def ZoneSetRec.bytes (r : ZoneSetRec) : List Byte :=
  s16 r.occupiedSet ++ s16 r.unoccupiedSet ++ [r.occupied] ++ u16 r.gain ++ u16 r.fallback

def ZoneSetRec.ofBytes (bs : List Byte) : ZoneSetRec :=
  ⟨rdS16 bs 0, rdS16 bs 2, bs.getD 4 0, rd16 bs 5, rd16 bs 7⟩

def ChannelRec.bytes (r : ChannelRec) : List Byte :=
  [r.owner.byte] ++ u16 r.node ++ u16 r.nodeChannel ++ u16 r.floor ++ u16 r.ceiling ++
    [r.heatBearing] ++ u16 r.warmCap ++ u16 r.criticalCap ++ u16 r.start

def ChannelRec.ofBytes (bs : List Byte) : ChannelRec :=
  ⟨.ofByte (bs.getD 0 0), rd16 bs 1, rd16 bs 3, rd16 bs 5, rd16 bs 7, bs.getD 9 0, rd16 bs 10,
    rd16 bs 12, rd16 bs 14⟩

def ScheduleHead.bytes (r : ScheduleHead) : List Byte := u8 r.slotCount ++ u8 r.bitRate ++ u8 r.replyTimeout

def ScheduleHead.ofBytes (bs : List Byte) : ScheduleHead := ⟨rd8 bs 0, rd8 bs 1, rd8 bs 2⟩

def SlotRec.bytes (r : SlotRec) : List Byte := [r.kind.byte] ++ u8 r.address

def SlotRec.ofBytes (bs : List Byte) : SlotRec := ⟨.ofByte (bs.getD 0 0), rd8 bs 1⟩

def TimersRec.bytes (r : TimersRec) : List Byte := u16 r.bracketLimit ++ u16 r.silenceLimit

def TimersRec.ofBytes (bs : List Byte) : TimersRec := ⟨rd16 bs 0, rd16 bs 2⟩

def ProfileRec.bytes (r : ProfileRec) : List Byte := u16 r.period ++ [r.curve.byte]

def ProfileRec.ofBytes (bs : List Byte) : ProfileRec := ⟨rd16 bs 0, .ofByte (bs.getD 2 0)⟩

/-! ### Tables entry by entry -/

/-- The length of entry `i` of a stored table, in bytes. -/
def TableId.entryLength : TableId → Nat → Nat
  | .nodes, _ => 9
  | .points, _ => 14
  | .watch, _ => 28
  | .saturation, _ => 4
  | .fogMap, i => if i < 8 then 9 else 3
  | .sinkMap, _ => 9
  | .zoneMap, _ => 12
  | .channels, _ => 16
  | .schedule, i => if i = 0 then 3 else 2
  | .thresholds, _ => 2
  | .fogTune, i => if i < 8 then 23 else 4
  | .sinkTune, _ => 12
  | .dispatch, _ => 16
  | .zoneSet, _ => 9
  | .timers, _ => 4
  | .flagEnables, _ => 2
  | .lightProfile, _ => 3
  | _, _ => 0

/-- Entry `i` of a stored table, as bytes. -/
def Tables.entry (t : Tables) : TableId → Nat → List Byte
  | .nodes, i => (t.nodes.get i).bytes
  | .points, i => (t.points.get i).bytes
  | .watch, i => (t.watch.get i).bytes
  | .saturation, i => u32 (t.saturation.get i)
  | .fogMap, i => if i < 8 then (t.fogMap.get i).bytes else t.motor.bytes
  | .sinkMap, i => (t.sinkMap.get i).bytes
  | .zoneMap, i => (t.zoneMap.get i).bytes
  | .channels, i => (t.channels.get i).bytes
  | .schedule, i => if i = 0 then t.scheduleHead.bytes else (t.slots.get (i - 1)).bytes
  | .thresholds, i => s16 (t.thresholds.get i)
  | .fogTune, i => if i < 8 then (t.fogTune.get i).bytes else t.dehumid.bytes
  | .sinkTune, i => (t.sinkTune.get i).bytes
  | .dispatch, _ => t.dispatch.bytes
  | .zoneSet, i => (t.zoneSet.get i).bytes
  | .timers, _ => t.timers.bytes
  | .flagEnables, _ => u16 t.enables.toNat
  | .lightProfile, _ => t.profile.bytes
  | _, _ => []

/-- Entry `i` of a stored table overwritten from its bytes; R162: stored as written, but that a field
that is NONE holds no value (R173 point 5) and a silent limit of 0 stands for 3 (R2). -/
def Tables.store (t : Tables) : TableId → Nat → List Byte → Tables
  | .nodes, i, bs => { t with nodes := t.nodes.set i (.ofBytes bs) }
  | .points, i, bs => { t with points := t.points.set i (.ofBytes bs) }
  | .watch, i, bs => { t with watch := t.watch.set i (.ofBytes bs) }
  | .saturation, i, bs => { t with saturation := t.saturation.set i (rd32 bs 0) }
  | .fogMap, i, bs =>
    if i < 8 then { t with fogMap := t.fogMap.set i (.ofBytes bs) } else { t with motor := .ofBytes bs 0 }
  | .sinkMap, i, bs => { t with sinkMap := t.sinkMap.set i (.ofBytes bs) }
  | .zoneMap, i, bs => { t with zoneMap := t.zoneMap.set i (.ofBytes bs) }
  | .channels, i, bs => { t with channels := t.channels.set i (.ofBytes bs) }
  | .schedule, i, bs =>
    if i = 0 then { t with scheduleHead := .ofBytes bs } else { t with slots := t.slots.set (i - 1) (.ofBytes bs) }
  | .thresholds, i, bs => { t with thresholds := t.thresholds.set i (rdS16 bs 0) }
  | .fogTune, i, bs =>
    if i < 8 then { t with fogTune := t.fogTune.set i (.ofBytes bs) } else { t with dehumid := .ofBytes bs }
  | .sinkTune, i, bs => { t with sinkTune := t.sinkTune.set i (.ofBytes bs) }
  | .dispatch, _, bs => { t with dispatch := .ofBytes bs }
  | .zoneSet, i, bs => { t with zoneSet := t.zoneSet.set i (.ofBytes bs) }
  | .timers, _, bs => { t with timers := .ofBytes bs }
  | .flagEnables, _, bs => { t with enables := BitVec.ofNat 16 (rd16 bs 0) }
  | .lightProfile, _, bs => { t with profile := .ofBytes bs }
  | _, _, _ => t

/-- The length of a run of `n` entries from entry `i`. -/
def TableId.runLength (id : TableId) (i n : Nat) : Nat :=
  ((List.range n).map fun k => id.entryLength (i + k)).sum

/-- A run of `n` entries from entry `i` overwritten from its content. -/
def Tables.storeRun (t : Tables) (id : TableId) (i n : Nat) (content : List Byte) : Tables :=
  (splitRuns id.entryLength i n content).foldl (fun t e => t.store id e.1 e.2) t

/-- A whole table as bytes, entry by entry (R176). -/
def Tables.bytes (t : Tables) (id : TableId) : List Byte :=
  (List.range id.entries).flatMap fun i => t.entry id i

/-- R176: the body of the image: the 17 tables, each whole, in the order of R176. -/
def Tables.body (t : Tables) : List Byte := TableId.stored.flatMap t.bytes

/-! ### Scene rows (R113, R114, R173 point 7) -/

/-- R113: a scene row's content. -/
structure SceneRow where
  count : Nat
  pairs : List (Nat × Nat)
  fade : Nat
deriving DecidableEq, Repr

/-- `n` pairs read from a row's bytes. -/
def pairsOf : Nat → List Byte → List (Nat × Nat)
  | 0, _ => []
  | n + 1, bs => (rd16 bs 0, rd16 bs 2) :: pairsOf n (bs.drop 4)

/-- The content bytes read as a row; none where they are not as many as the channel count asks for. -/
def SceneRow.ofBytes (bs : List Byte) : Option SceneRow :=
  match bs with
  | [] => none
  | c :: rest =>
    if rest.length = 4 * c.toNat + 2 then
      some ⟨c.toNat, pairsOf c.toNat rest, rd16 rest (4 * c.toNat)⟩
    else none

/-- The number of the first pair that is out of range or repeats a channel of an earlier pair. Of two pairs
that name one channel the later one fails: DESIGN CHOICE (log 16). -/
def badPairFrom : Nat → List Nat → List (Nat × Nat) → Option Nat
  | _, _, [] => none
  | i, seen, (ch, level) :: rest =>
    if ch < Config.channelCount ∧ level ≤ 1000 ∧ ch ∉ seen then badPairFrom (i + 1) (ch :: seen) rest
    else some i

def SceneRow.badPair (r : SceneRow) : Option Nat := badPairFrom 0 [] r.pairs

/-- R113: the row is well formed. -/
def SceneRow.wellFormed (r : SceneRow) : Bool :=
  decide (r.count ≤ 48) && r.badPair.isNone && decide (r.fade ≤ 6000)

/-- R113, R118 check 3: the content bytes are those of a well-formed row. -/
def wellFormedContent (content : List Byte) : Bool := (SceneRow.ofBytes content).any SceneRow.wellFormed

/-- What a place of the library holds after a whole write of this content (R173 point 7). -/
def placeOf (content : List Byte) : List Byte := content ++ u16 (crc16 content).toNat

/-- The first `n` bytes of a place; behind the bytes of its last write it reads as erased (log 32). -/
def placeBytes (place : List Byte) (n : Nat) : List Byte :=
  (place ++ List.replicate (n - place.length) Config.erasedByte).take n

/-- R113, R173 point 7: the count, pairs and fade time of the row at a place, as many bytes as its channel
count names. -/
def contentOf (place : List Byte) : List Byte :=
  match place with
  | [] => []
  | c :: _ => placeBytes place (3 + 4 * c.toNat)

/-- R114: the row at a place, if it has a good check: its content is well formed, and the two bytes behind it
are the CRC-16 over it. -/
def goodRow (place : List Byte) : Option SceneRow :=
  let content := contentOf place
  match SceneRow.ofBytes content with
  | some r => if r.wellFormed ∧ placeBytes place (content.length + 2) = placeOf content then some r else none
  | none => none

end Sys2Proof.Machine
end

