-- ==== Sys2Proof/Machine/Flags.lean ====
section
/-! DEFINITION. The 16 event flags and their NOTICEs, the two outbound queues and the transmitter, the
trunk counters, and ATTN (R158, R160, R167 to R170). Every operation here changes the trunk interface
alone. -/

namespace Sys2Proof.Machine

open Sys2Proof

/-- R168: the flag's number. -/
def EventFlag.num : EventFlag → Nat
  | .resetSeen => 0 | .guardChanged => 1 | .watchLatched => 2 | .fogChanged => 3
  | .dispatchBlind => 4 | .shortfall => 5 | .nodeChanged => 6 | .refreshLapse => 7 | .cueDone => 8
  | .bankFault => 9 | .bracketAborted => 10 | .imageEvent => 11 | .uplinkDropped => 12
  | .requestDropped => 13 | .trunkSilent => 14 | .fieldErrors => 15

/-- R168: the flags in ascending number. -/
def EventFlag.all : List EventFlag :=
  [.resetSeen, .guardChanged, .watchLatched, .fogChanged, .dispatchBlind, .shortfall, .nodeChanged,
    .refreshLapse, .cueDone, .bankFault, .bracketAborted, .imageEvent, .uplinkDropped,
    .requestDropped, .trunkSilent, .fieldErrors]

/-- The flag's bit in a mask, a value or a snapshot (R168). -/
def EventFlag.bit (f : EventFlag) : Word16 := 1#16 <<< f.num

/-- Flag `f` of a word of flags or enables. -/
def EventFlag.of (f : EventFlag) (w : Word16) : Bool := w.getLsbD f.num

/-- R167: an idle transmitter starts the oldest reply, or failing that the oldest report or notice. -/
def TrunkUnit.startSending (t : TrunkUnit) : TrunkUnit :=
  match t.sending with
  | .idle =>
    if t.replies ≠ [] then { t with sending := .reply }
    else if t.reports ≠ [] then { t with sending := .report }
    else t
  | _ => t

/-- R167: the frame in transmission leaves its queue, and the next frame starts. -/
def TrunkUnit.endSending (t : TrunkUnit) : TrunkUnit :=
  match t.sending with
  | .idle => t
  | .reply => TrunkUnit.startSending { t with replies := t.replies.tail, sending := .idle }
  | .report => TrunkUnit.startSending { t with reports := t.reports.tail, sending := .idle }

/-- R160: a reply placed on the reply queue. -/
def TrunkUnit.place (t : TrunkUnit) (r : Reply) : TrunkUnit :=
  TrunkUnit.startSending { t with replies := t.replies ++ [r] }

/-- A frame placed on the report/notice queue, which has room for it. An idle transmitter starts it at once, and so
before a reply that the same event places after it: DESIGN CHOICE (log 45). -/
def TrunkUnit.queueReport (t : TrunkUnit) (r : Report) : TrunkUnit :=
  TrunkUnit.startSending { t with reports := t.reports ++ [r] }

/-- R167: the report/notice queue holds 16 frames. -/
def TrunkUnit.reportsFull (t : TrunkUnit) : Bool := decide (Config.reportRoom ≤ t.reports.length)

/-- R169: UPLINK_DROPPED raised at a full queue. If it rises and is enabled, the NOTICE of its own
finds the queue still full and is counted as dropped, and there the chain ends. -/
def TrunkUnit.raiseDropped (t : TrunkUnit) (enables : Word16) : TrunkUnit :=
  if EventFlag.uplinkDropped.of t.flags then t
  else if EventFlag.uplinkDropped.of enables then
    { t with
      flags := t.flags ||| EventFlag.uplinkDropped.bit
      counters := { t.counters with noticesDropped := satSucc t.counters.noticesDropped } }
  else { t with flags := t.flags ||| EventFlag.uplinkDropped.bit }

/-- R167, R169: a NOTICE with the snapshot as it now stands, queued, or dropped and counted. -/
def TrunkUnit.offerNotice (t : TrunkUnit) (enables : Word16) (record : Option AbortRecord) : TrunkUnit :=
  if t.reportsFull then
    TrunkUnit.raiseDropped
      { t with counters := { t.counters with noticesDropped := satSucc t.counters.noticesDropped } } enables
  else t.queueReport (.notice t.flags enables record)

/-- R168: a raise. A rise of an enabled flag queues a NOTICE; a raise of a flag that is 1 changes
nothing. -/
def TrunkUnit.raise (t : TrunkUnit) (f : EventFlag) (enables : Word16) (record : Option AbortRecord) :
    TrunkUnit :=
  if f.of t.flags then t
  else if f.of enables then
    TrunkUnit.offerNotice { t with flags := t.flags ||| f.bit } enables record
  else { t with flags := t.flags ||| f.bit }

/-- R153: the raise of BRACKET_ABORTED by an abort. With the notify flag set one NOTICE is queued
whatever the enable and the flag, and stands for the rise. -/
def TrunkUnit.raiseAborted (t : TrunkUnit) (notify : Bool) (enables : Word16)
    (record : Option AbortRecord) : TrunkUnit :=
  if notify then
    TrunkUnit.offerNotice { t with flags := t.flags ||| EventFlag.bracketAborted.bit } enables record
  else t.raise .bracketAborted enables record

/-- R167: an UPLINK queued, or dropped and counted; the answer says whether it was queued. -/
def TrunkUnit.offerUplink (t : TrunkUnit) (entries : List UplinkEntry) (enables : Word16) :
    TrunkUnit × Bool :=
  if t.reportsFull then
    (TrunkUnit.raiseDropped
      { t with counters := { t.counters with uplinksDropped := satSucc t.counters.uplinksDropped } } enables,
      false)
  else (t.queueReport (.uplink entries), true)

/-- R170: the masked flags take their value bits, and a flag taken from 0 to 1 is raised. That the flags to be
cleared are cleared first and the rises then come in ascending number is DESIGN CHOICE (log 44). -/
def TrunkUnit.clearFlags (t : TrunkUnit) (mask value enables : Word16) (record : Option AbortRecord) :
    TrunkUnit :=
  (EventFlag.all.filter fun f => f.of mask && f.of value).foldl
    (fun t f => t.raise f enables record) { t with flags := t.flags &&& ~~~(mask &&& ~~~value) }

/-- R171: the silence timer restarted with the limit. -/
def TrunkUnit.restartSilence (t : TrunkUnit) (limit : Nat) : TrunkUnit :=
  { t with silence := some (1000 * limit) }

/-- R158: a bad frame counted. -/
def TrunkUnit.countBadFrame (t : TrunkUnit) : TrunkUnit :=
  { t with counters := { t.counters with checkErrors := satSucc t.counters.checkErrors } }

/-- R158: a good frame counted. -/
def TrunkUnit.countGoodFrame (t : TrunkUnit) : TrunkUnit :=
  { t with counters := { t.counters with goodFrames := satSucc t.counters.goodFrames } }

/-- R168: ATTN is asserted while a flag is set whose enable is also set. It follows the flags and the
enables at every event, so it is read from them. -/
def State.attn (s : State) : Bool := s.trunk.flags &&& s.tables.enables != 0#16

/-! ### The same, on the whole part -/

def State.raise (s : State) (f : EventFlag) : State :=
  { s with trunk := s.trunk.raise f s.tables.enables s.bracket.record }

/-- The flag raised where the condition holds. -/
def State.raiseIf (s : State) (c : Bool) (f : EventFlag) : State := if c then s.raise f else s

/-- R20, R21: an UPLINK offered, and whether it was accepted. -/
def State.offerUplink (s : State) (entries : List UplinkEntry) : State × Bool :=
  let r := s.trunk.offerUplink entries s.tables.enables
  ({ s with trunk := r.1 }, r.2)

/-- R160: a reply placed. -/
def State.place (s : State) (tag code : Byte) (result : ResultCode) (data : List Byte) : State :=
  { s with trunk := s.trunk.place ⟨tag, code, result, data⟩ }

end Sys2Proof.Machine
end

