-- ==== Sys2Proof/Machine/Operands.lean ====
section
/-! DEFINITION. The operand forms of the requests: the request codes, the run of entries a request
names, the values a request clamps, the scene row a request names, and the answers a request is given
(R110, R160, R161, R164, R172, R173 point 9). -/

namespace Sys2Proof.Machine

open Sys2Proof

/-! ### Request codes (R172) -/

def codeReadInfo : Byte := 0x01
def codeReadStatus : Byte := 0x02
def codeReadTable : Byte := 0x03
def codeWriteTable : Byte := 0x04
def codeClearFlags : Byte := 0x05
def codeEnterRun : Byte := 0x06
def codeEnterConfig : Byte := 0x07
def codeSaveImage : Byte := 0x08
def codeResetPart : Byte := 0x09
def codeSetChannel : Byte := 0x0A
def codeSetZone : Byte := 0x0B
def codeCue : Byte := 0x0C
def codeReleaseBank : Byte := 0x0D
def codeReleaseWatch : Byte := 0x0E
def codeOpenBracket : Byte := 0x0F
def codeCloseBracket : Byte := 0x10
def codeAbandonBracket : Byte := 0x11

/-! ### Answers -/

/-- What an immediate reply carries: a result code and its data. -/
structure Answer where
  result : ResultCode
  data : List Byte
deriving DecidableEq, Repr

/-- A reply that carries no data (R173 point 9). -/
def Answer.plain (r : ResultCode) : Answer := ⟨r, []⟩

/-- R173 point 9: BAD_ENTRY with the index its rule names, or the absent mark where its rule names
none. DESIGN CHOICE (log 10) for the rules that do not say which. -/
def Answer.badEntry (index : Option Nat) : Answer := ⟨.badEntry, opt16 index⟩

/-- R173 point 9: BAD_TABLE with the table and the entry index. -/
def Answer.badTable (id : TableId) (entry : Nat) : Answer := ⟨.badTable, u8 id.code ++ u16 entry⟩

/-! ### Runs of entries (R161) -/

/-- R161: the number of entries a count asks for; 0 means to the end of the table. -/
def runCount (id : TableId) (first count : Nat) : Nat := if count = 0 then id.entries - first else count

/-- R161, R162: the run lies in the table. -/
def runInTable (id : TableId) (first count : Nat) : Bool :=
  decide (first < id.entries) && decide (first + runCount id first count ≤ id.entries)

/-- R172: for SCENES the first entry carries the bank in its high byte. -/
def sceneBank (first : Word16) : Nat := first.toNat / 256

/-- R172: and the row in its low byte. -/
def sceneRow (first : Word16) : Nat := first.toNat % 256

/-- R118, R119: the bank lies in 0 to 3 and the row in 0 to 31. -/
def sceneInRange (bank row : Nat) : Bool := decide (bank < 4) && decide (row < 32)

/-- The place of row (b, r) in the scene library. -/
def placeIndex (bank row : Nat) : Nat := 32 * bank + row

/-! ### Clamped values -/

/-- R164 step 4: clamped first to 0..1000 and then to the channel's floor..ceiling. -/
def clampChannel (r : ChannelRec) (v : Int) : Nat :=
  max r.floor (min (clampInt 0 1000 v).toNat r.ceiling)

/-- R110 step 3. -/
def clampSetpoint (z : Int) : Int := clampInt (-400) 600 z

/-- R110: a setpoint, if carried, was changed by its clamp. -/
def setpointClamped (v : Option Int) : Bool :=
  match v with
  | some z => clampSetpoint z != z
  | none => false

end Sys2Proof.Machine
end

