-- ==== Sys2Proof/Decode.lean ====
section
/-! DEFINITION. Frames as commands: the trunk frames judged and read as requests, the field frames judged
and read as REPORTs, and the frames of each written out (R158, R159, R172). The opcode table gives no row
any bits, so no word spells a command. -/

namespace Sys2Proof

open Sys2Proof.Machine

/-- The command that a word spells by the opcode table's bits. No row of the table gives bits. -/
def decodeTableWord (_nbits _w : Nat) : Option Instr := none

/-! ### Requests (R159 step 2, R172) -/

/-- Two bytes, the high byte first (R172). -/
def word (hi lo : Byte) : Word16 := hi ++ lo

/-- R172: an optional value behind a mark. -/
def whenSet {α : Type} (b : Bool) (a : α) : Option α := if b then some a else none

/-- A byte that takes the values 0 and 1 alone. -/
def twoValuedByte (b : Byte) : Bool := decide (b.toNat ≤ 1)

/-- R159, R172: a request by its tag, its code and its arguments. `receiving` says whether a field frame is
arriving when it is taken (R1), which the frame does not tell. -/
def decodeRequest (receiving : Bool) (tag code : Byte) (args : List Byte) : Instr :=
  match code.toNat, args with
  | 0x01, [] => .readInfo tag
  | 0x02, [] => .readStatus tag
  | 0x03, [t, f1, f0, c1, c0] => .readTable tag t (word f1 f0) (word c1 c0)
  | 0x04, t :: f1 :: f0 :: c1 :: c0 :: content => .writeTable tag t (word f1 f0) (word c1 c0) content
  | 0x05, [m1, m0, v1, v0] => .clearFlags tag (word m1 m0) (word v1 v0)
  | 0x06, [] => .enterRun tag receiving
  | 0x07, [] => .enterConfig tag
  | 0x08, [] => .saveImage tag
  | 0x09, [] => .resetPart tag
  | 0x0A, [c1, c0, v1, v0, flags] =>
    if flags.toNat ≤ 1 then .setChannel tag (word c1 c0) (word v1 v0) (flags.getLsbD 0) else .malformedRequest tag code
  | 0x0B, [z, parts, occ, o1, o0, u1, u0] =>
    if parts.toNat ≤ 7 ∧ twoValuedByte occ then
      .setZone tag z (whenSet (parts.getLsbD 0) (occ.getLsbD 0)) (whenSet (parts.getLsbD 1) (word o1 o0))
        (whenSet (parts.getLsbD 2) (word u1 u0))
    else .malformedRequest tag code
  | 0x0C, [b, r, p, f1, f0, rel] =>
    if twoValuedByte p ∧ twoValuedByte rel then
      .cue tag b r (whenSet (p.getLsbD 0) (word f1 f0)) (rel.getLsbD 0)
    else .malformedRequest tag code
  | 0x0D, [b] => .releaseBank tag b
  | 0x0E, [m3, m2, m1, m0] => .releaseWatch tag (m3 ++ m2 ++ m1 ++ m0)
  | 0x0F, [k, count, flags] =>
    if twoValuedByte k ∧ flags.toNat ≤ 3 then
      .openBracket tag (if k.getLsbD 0 then .countedKind else .openKind) count (flags.getLsbD 0) (flags.getLsbD 1)
    else .malformedRequest tag code
  | 0x10, [] => .closeBracket tag
  | 0x11, [] => .abandonBracket tag
  | _, _ => .malformedRequest tag code

/-- R158, R172: a frame from the host, from its start mark to its last byte, as the command its arrival
makes. What precedes a start mark is no part of a frame, and `receiveTrunk` leaves it out. -/
def decodeTrunkFrame (receiving : Bool) (bs : List Byte) : Instr :=
  let l := rd16 bs 1
  let covered := (bs.drop 1).take (l + 2)
  if bs.length = l + 5 ∧ bs.head? = some Config.startMark ∧ 1 ≤ l ∧ l ≤ Config.trunkLength ∧
      bs.drop (l + 3) = u16 (crc16 covered).toNat then
    match covered.drop 2 with
    | kind :: tag :: code :: args => if kind = 0x01 then decodeRequest receiving tag code args else .trunkBadFrame
    | _ => .trunkBadFrame
  else .trunkBadFrame

/-- R158, R172: the bytes of a frame so far are all that its length field asks for. -/
def trunkFrameWhole (frame : List Byte) : Bool := decide (3 ≤ frame.length) && frame.length == rd16 frame 1 + 5

/-- R158: what the bytes received from the host one after the other make, up to a gap of more than 10 ms, `frame` being
the bytes of the frame that is being received, none outside a frame. A byte outside a frame is ignored unless it is
a start mark; a frame that the gap ends short is a bad frame. -/
def receiveTrunk (receiving : Bool) : List Byte → List Byte → List Instr
  | [], [] => []
  | _ :: _, [] => [.trunkBadFrame]
  | [], b :: rest => receiveTrunk receiving (if b = Config.startMark then [b] else []) rest
  | a :: frame, b :: rest =>
    if trunkFrameWhole (a :: frame ++ [b]) then
      decodeTrunkFrame receiving (a :: frame ++ [b]) :: receiveTrunk receiving [] rest
    else receiveTrunk receiving (a :: frame ++ [b]) rest

/-! ### Requests written out -/

/-- The two bytes of a word, the high byte first. -/
def wordBytes (w : Word16) : List Byte := [w.extractLsb' 8 8, w.extractLsb' 0 8]

/-- A flag byte. -/
def flagByte (b : Bool) : Byte := if b then 1 else 0

/-- R172: a value that is absent leaves its bytes 0. -/
def optWordBytes (w : Option Word16) : List Byte := wordBytes (w.getD 0)

/-- R172: the request code and the arguments of a request; none for a command that is no request. -/
def encodeRequest : Instr → Option (Byte × Byte × List Byte)
  | .readInfo tag => some (tag, codeReadInfo, [])
  | .readStatus tag => some (tag, codeReadStatus, [])
  | .readTable tag t f c => some (tag, codeReadTable, t :: (wordBytes f ++ wordBytes c))
  | .writeTable tag t f c content => some (tag, codeWriteTable, t :: (wordBytes f ++ wordBytes c ++ content))
  | .clearFlags tag m v => some (tag, codeClearFlags, wordBytes m ++ wordBytes v)
  | .enterRun tag _ => some (tag, codeEnterRun, [])
  | .enterConfig tag => some (tag, codeEnterConfig, [])
  | .saveImage tag => some (tag, codeSaveImage, [])
  | .resetPart tag => some (tag, codeResetPart, [])
  | .setChannel tag c v d => some (tag, codeSetChannel, wordBytes c ++ wordBytes v ++ [flagByte d])
  | .setZone tag z o a b =>
    some (tag, codeSetZone,
      [z, flagByte o.isSome ||| flagByte a.isSome <<< 1 ||| flagByte b.isSome <<< 2, flagByte (o.getD false)] ++
        optWordBytes a ++ optWordBytes b)
  | .cue tag b r f rel => some (tag, codeCue, [b, r, flagByte f.isSome] ++ optWordBytes f ++ [flagByte rel])
  | .releaseBank tag b => some (tag, codeReleaseBank, [b])
  | .releaseWatch tag m =>
    some (tag, codeReleaseWatch, wordBytes (m.extractLsb' 16 16) ++ wordBytes (m.extractLsb' 0 16))
  | .openBracket tag k n st no =>
    some (tag, codeOpenBracket, [flagByte (k == .countedKind), n, flagByte st ||| flagByte no <<< 1])
  | .closeBracket tag => some (tag, codeCloseBracket, [])
  | .abandonBracket tag => some (tag, codeAbandonBracket, [])
  | .powerOn _ _ | .resetPin _ _ | .softReset _ _ | .imageLoad _ | .trunkBadFrame | .trunkFrameSent
  | .trunkSilenceExpiry | .pollSent | .goodReport _ _ | .replyTimeout _ | .fieldBadFrame | .setSent _
  | .pointStale _ | .refreshExpiry _ | .refreshLapse _ | .qualifyExpiry _ | .releaseExpiry _ | .holdExpiry _
  | .windowExpiry _ | .patternStepExpiry _ | .dehumidRunExpiry | .dehumidRestExpiry | .dispatchTimerExpiry
  | .dispatchResultDelivery | .activateComplete | .rowWriteComplete _ | .rowReadComplete
  | .imageSaveComplete _ | .activationDelivery _ | .settleExpiry _ | .fadeStepExpiry _
  | .bracketTimerExpiry | .malformedRequest _ _ | .resetPinAsserted _ | .powerFails _
  | .ignoredFieldFrameEnd => none

/-- R172: the trunk frame of a request. -/
def encodeTrunkFrame (i : Instr) : Option (List Byte) :=
  (encodeRequest i).map fun r => trunkFrame 1 (r.1 :: r.2.1 :: r.2.2)

/-! ### REPORT frames (R8, R9, R172) -/

/-- R172: the node quality of an item: 0 OK, 1 FAULT. -/
def NodeQuality.ofByte (b : Byte) : Option NodeQuality :=
  if b = 0 then some .ok else if b = 1 then some .fault else none

def NodeQuality.byte : NodeQuality → Byte
  | .ok => 0
  | .fault => 1

/-- R172: the items of a REPORT; none where the bytes are not whole items or a node quality is neither. -/
def decodeItems : List Byte → Option (List Item)
  | [] => some []
  | i :: v1 :: v0 :: q :: rest =>
    match NodeQuality.ofByte q, decodeItems rest with
    | some q, some items => some (⟨i, word v1 v0, q⟩ :: items)
    | _, _ => none
  | _ => none

/-- R8, R9, R172: a frame received on the field segment in RUN, as the command its end makes. Where a frame ends in the
bytes received is `receiveField`'s. -/
def decodeFieldFrame (bs : List Byte) : Instr :=
  match bs with
  | mark :: address :: kind :: count :: rest =>
    let n := 4 * count.toNat
    if mark = Config.startMark ∧ kind = 0x11 ∧ 1 ≤ count.toNat ∧ count.toNat ≤ 12 ∧ rest.length = n + 2 ∧
        rest.drop n = u16 (crc16 (address :: kind :: count :: rest.take n)).toNat then
      match decodeItems (rest.take n) with
      | some items => .goodReport address items
      | none => .fieldBadFrame
    else .fieldBadFrame
  | _ => .fieldBadFrame

/-- R172: how many bytes each unit of a field frame's count calls for, by the frame's kind; none for a kind that has no
length of its own. The items of a POLL frame take none, whatever its count: DESIGN CHOICE (log 49). -/
def fieldUnitBytes (kind : Byte) : Option Nat :=
  if kind = 0x10 then some 0 else if kind = 0x11 then some 4 else if kind = 0x12 then some 3 else none

/-- R172: the bytes of a field frame so far are all that its count calls for, and its CRC-16. -/
def fieldFrameWhole (frame : List Byte) : Bool :=
  match frame with
  | _ :: _ :: kind :: count :: rest => (fieldUnitBytes kind).any fun n => rest.length == n * count.toNat + 2
  | _ => false

/-- R1, R9, R172: the end of a field frame in RUN. One whose reception began outside RUN is ignored. -/
def fieldFrameEnd (ignored : Bool) (frame : List Byte) : Instr :=
  if ignored then .ignoredFieldFrameEnd else decodeFieldFrame frame

/-- R172: what the bytes received on the field segment in RUN one after the other make, up to a gap of more than 2 ms,
`frame` being the bytes of the frame that is being received, none outside a frame, and `ignored` saying that its reception
began outside RUN. The gap ends a frame short, and is the end of one whose kind has no length of its own. Bytes outside a
frame, before a start mark, are ignored as on the trunk: DESIGN CHOICE (log 49). -/
def receiveField (ignored : Bool) : List Byte → List Byte → List Instr
  | [], [] => []
  | a :: frame, [] => [fieldFrameEnd ignored (a :: frame)]
  | [], b :: rest => receiveField false (if b = Config.startMark then [b] else []) rest
  | a :: frame, b :: rest =>
    if fieldFrameWhole (a :: frame ++ [b]) then
      fieldFrameEnd ignored (a :: frame ++ [b]) :: receiveField false [] rest
    else receiveField ignored (a :: frame ++ [b]) rest

/-- R172: one item of a REPORT. -/
def Item.bytes (i : Item) : List Byte := i.index :: wordBytes i.value ++ [i.quality.byte]

/-- R172: a REPORT frame. -/
def encodeReport (address : Byte) (items : List Item) : List Byte :=
  closeFrame (address :: 0x11 :: BitVec.ofNat 8 items.length :: items.flatMap Item.bytes)

end Sys2Proof
end

