-- ==== Sys2Proof/Machine/Ops.lean ====
section
/-! DEFINITION. The operations the blocks share: the serial memory, the look-ups of the tables, the
urgent queue, the demand write and the re-clamp of the channel image, and the abort of a bracket
(R26 to R31, R151, R176). -/

namespace Sys2Proof.Machine

open Sys2Proof

/-! ### Bytes of the image region (R176), in one canonical form -/

/-- The form: addresses strictly rising, and no cell that holds what an unlisted address reads as. -/
abbrev Memory.wf (m : List Host.Cell) : Prop :=
  m.Pairwise (fun a b => a.1 < b.1) ∧ ∀ c ∈ m, c.2 ≠ Config.erasedByte

/-- What an address reads as. -/
def Memory.read (m : List Host.Cell) (a : Nat) : Byte :=
  match m.find? fun c => c.1 == a with
  | some c => c.2
  | none => Config.erasedByte

/-- The cells of a run of bytes from address `a`, none for an erased byte. -/
def Memory.cells : Nat → List Byte → List Host.Cell
  | _, [] => []
  | a, b :: bs => if b = Config.erasedByte then Memory.cells (a + 1) bs else (a, b) :: Memory.cells (a + 1) bs

/-- The memory with a run of bytes written from address `a`. -/
def Memory.write (m : List Host.Cell) (a : Nat) (bs : List Byte) : List Host.Cell :=
  m.filter (fun c => decide (c.1 < a)) ++
    (Memory.cells a bs ++ m.filter fun c => decide (a + bs.length ≤ c.1))

/-- `n` bytes from address `a`, from cells in rising order. -/
def Memory.block : List Host.Cell → Nat → Nat → List Byte
  | [], _, n => List.replicate n Config.erasedByte
  | c :: rest, a, n =>
    if c.1 < a then Memory.block rest a n
    else if a + n ≤ c.1 then List.replicate n Config.erasedByte
    else List.replicate (c.1 - a) Config.erasedByte ++ c.2 :: Memory.block rest (c.1 + 1) (a + n - c.1 - 1)

/-- Single bytes that hold something else than what was written to them. -/
def Memory.spoil (m : List Host.Cell) (flaws : List (Nat × Byte)) : List Host.Cell :=
  flaws.foldl (fun m f => Memory.write m f.1 [f.2]) m

/-! ### The part is running -/

/-- R175: the part has its supply and is not held in reset. Nothing but a pin or the supply reaches it
otherwise. -/
def State.live (s : State) : Bool := s.power.supply && !s.power.pinAsserted

/-- The part is in RUN. -/
def State.inRun (s : State) : Bool := s.loader.op == .run

/-! ### Look-ups -/

/-- The place in NODES of the record with this address. -/
def Tables.nodeIndex (t : Tables) (address : Nat) : Option Nat :=
  t.nodes.first fun _ r => r.present && r.address == address

/-- The record with this address. -/
def Tables.nodeOf (t : Tables) (address : Nat) : Option NodeRec :=
  (t.nodeIndex address).map t.nodes.get

/-- R30: the record is of kind ACTUATOR or MIXED. -/
def NodeRec.takesSet (r : NodeRec) : Bool := r.present && (r.kind == .actuator || r.kind == .mixed)

/-- R22: a record whose node field is 0 is unmapped. -/
def ChannelRec.mapped (r : ChannelRec) : Bool := r.node != 0

/-- R13: a record whose node field is 0 is unmapped. -/
def PointRec.mapped (r : PointRec) : Bool := r.node != 0

/-- R113, R118: the channel is mapped and owned by LIGHTING. -/
def Tables.lightingChannel (t : Tables) (ch : Nat) : Bool :=
  (t.channels.get ch).mapped && (t.channels.get ch).owner == .lighting

/-- R14: the quality is GOOD or SUSPECT. -/
def Quality.usable (q : Quality) : Bool := q == .good || q == .suspect

/-- R14: the point's value, if the point is usable. -/
def State.pointValue (s : State) (p : Nat) : Option Int :=
  let r := s.points.runs.get p
  if r.quality.usable then r.value else none

/-! ### The urgent queue (R31, R32) -/

/-- R31: a node offered joins at the tail, unless it is in the queue already. -/
def offerNode (q : List UrgentEntry) (address : Nat) (reason : JoinReason) : List UrgentEntry :=
  if q.any fun e => e.address == address then q else q ++ [⟨address, reason⟩]

/-- R32: the entry of a node leaves, the order of the others kept. -/
def removeNode (q : List UrgentEntry) (address : Nat) : List UrgentEntry :=
  q.filter fun e => e.address != address

def State.offerUrgent (s : State) (address : Nat) (reason : JoinReason) : State :=
  { s with seg := { s.seg with urgent := offerNode s.seg.urgent address reason } }

/-! ### Demand writes (R26 to R29) -/

/-- R27: the limit of a channel under a guard level. -/
def ChannelRec.limit (r : ChannelRec) (g : GuardLevel) : Nat :=
  if isSet r.heatBearing then
    match g with
    | .normal => r.ceiling
    | .warm => min r.ceiling r.warmCap
    | .critical => min r.ceiling r.criticalCap
  else r.ceiling

/-- R27: the commanded value of a mapped channel. -/
def ChannelRec.commandedFor (r : ChannelRec) (g : GuardLevel) (demand : Nat) : Nat :=
  if r.floor ≤ r.limit g then max r.floor (min demand (r.limit g)) else r.limit g

/-- R36: an event of the channel image noted in the log. -/
def State.note (s : State) (before : List (Nat × ChannelRun)) (offers : List Nat) : State :=
  { s with seg := { s.seg with log := s.seg.log ++ [⟨before, s.seg.urgent.length, offers, .first⟩] } }

/-- The log emptied: the next composition comes after every event the image has taken (R36). -/
def State.settle (s : State) : State := { s with seg := { s.seg with log := [] } }

/-- R26: a demand write, taken in RUN by a mapped channel. -/
def State.writeDemand (s : State) (ch level : Nat) : State :=
  let r := s.tables.channels.get ch
  if s.inRun ∧ r.mapped then
    let c := r.commandedFor s.watch.guard level
    let offers := if c = (s.image.get ch).commanded then [] else [r.node]
    let s' := { s.note [(ch, s.image.get ch)] offers with image := s.image.set ch ⟨level, c⟩ }
    offers.foldl (fun s n => s.offerUrgent n .value) s'
  else s

/-- A write to a channel that may be NONE. -/
def State.writeDemandTo (s : State) (ch : Option Nat) (level : Nat) : State :=
  match ch with
  | some ch => s.writeDemand ch level
  | none => s

/-- The links of a list of events but its first changed. -/
def relink (f : EventLink → EventLink) : List ImageEvent → List ImageEvent
  | [] => []
  | e :: rest => e :: rest.map fun e => { e with link := f e.link }

/-- The links of the events that took the image from `s` to `t` changed, but that of the first. -/
def State.relinked (s t : State) (f : EventLink → EventLink) : State :=
  { t with seg := { t.seg with log := s.seg.log ++ relink f (t.seg.log.drop s.seg.log.length) } }

/-- R29, R36: an owner's event, which took the part from `s` to `t`, offers its writes to the image as one series. -/
def State.asSeries (s t : State) : State := s.relinked t fun _ => .sameSeries

/-- R36, R152: a commit, which took the part from `s` to `t`: no composition falls between two of its writes. -/
def State.asCommit (s t : State) : State := s.relinked t fun _ => .sameStep

/-- A step that holds several events of the image took the part from `s` to `t`. -/
def State.asStep (s t : State) : State := s.relinked t fun l => if l = .first then .sameStep else l

/-- R29, R36: a series of writes, in its order. A composition may fall between two of them (`State.endSlotAmid`). -/
def State.writeSeries (s : State) (writes : List (Nat × Nat)) : State :=
  s.asSeries (writes.foldl (fun s w => s.writeDemand w.1 w.2) s)

/-- R28: the run fields of one channel under a new guard level. -/
def reclampChannel (g : GuardLevel) (p : ChannelRec × ChannelRun) : ChannelRun :=
  if p.1.mapped && isSet p.1.heatBearing then { p.2 with commanded := p.1.commandedFor g p.2.demand } else p.2

/-- R28: the nodes of the channels whose commanded value the re-clamp changes, in ascending channel
number. -/
def reclampedNodes (g : GuardLevel) (l : List (ChannelRec × ChannelRun)) : List Nat :=
  (l.filter fun p => (reclampChannel g p).commanded != p.2.commanded).map fun p => p.1.node

/-- R28: the channels whose commanded value the re-clamp changes, as they stand before it. -/
def reclampedRuns (g : GuardLevel) (both : Tab (ChannelRec × ChannelRun) 512) : List (Nat × ChannelRun) :=
  (both.enum.filter fun e => (reclampChannel g e.2).commanded != e.2.2.commanded).map fun e => (e.1, e.2.2)

/-- R28: the re-clamp at a change of the guard level to `g`. -/
def State.reclamp (s : State) (g : GuardLevel) : State :=
  let both := s.tables.channels.zip s.image
  let noted := s.note (reclampedRuns g both) (reclampedNodes g both.list)
  { noted with
    image := both.map (reclampChannel g)
    seg := { noted.seg with
      urgent := (reclampedNodes g both.list).foldl (fun q n => offerNode q n .value) s.seg.urgent } }

/-- R25: what a channel's run fields become after a write of its record, on a reset and at R30 step 1,
under guard level NORMAL. -/
def ChannelRec.startRun (r : ChannelRec) : ChannelRun :=
  if r.mapped then ⟨r.start, r.commandedFor .normal r.start⟩ else ⟨0, 0⟩

/-! ### Brackets: the abort (R151, R153) -/

/-- The bracket state is OPEN or COUNTED. -/
def BracketState.isOpen : BracketState → Bool
  | .opened _ | .counted _ _ => true
  | .idle | .aborted _ => false

/-- R151: the depth at abort, and the residual it leaves. -/
def BracketState.depth : BracketState → Nat
  | .opened d => d
  | .counted _ _ => 1
  | .idle | .aborted _ => 0

/-- R151: the record an abort writes. -/
def BracketUnit.abortRecord (b : BracketUnit) (g : GuardLevel) (code : AbortCode) (ordinal : Option Nat)
    (refusal : Option ResultCode) : AbortRecord where
  code := code
  kind := b.kind
  depth := b.state.depth
  stagedCount := b.stage.length
  ordinal := ordinal
  refusal := refusal
  guard := g
  duration := min Config.top16 (b.openMs / 100)

/-- R151: an abort of a bracket that is OPEN or COUNTED; of any other nothing. -/
def State.abortBracket (s : State) (code : AbortCode) (ordinal : Option Nat) (refusal : Option ResultCode) :
    State :=
  if s.bracket.state.isOpen then
    let record := some (s.bracket.abortRecord s.watch.guard code ordinal refusal)
    { s with
      bracket := { s.bracket with
        stage := []
        timer := none
        record := record
        state := if code = .abandoned then .idle else .aborted s.bracket.state.depth }
      trunk := s.trunk.raiseAborted s.bracket.notify s.tables.enables record }
  else s

/-- R144: a request of the stageable, restricted or bracket class counted while a bracket is open. -/
def State.countOrdinal (s : State) : State :=
  { s with bracket := { s.bracket with ordinal := satSucc s.bracket.ordinal } }

/-! ### Requests (R158 to R160) -/

/-- R160: the long requests in progress: those whose operation stands in the memory port queue. -/
def MemOp.isLong : MemOp → Bool
  | .activate _ _ => false
  | .rowWrite _ _ _ _ | .rowRead _ _ _ | .imageSave _ _ => true

def State.longCount (s : State) : Nat := (s.store.queue.filter MemOp.isLong).length

/-- R159 step 1: the replies held and the places reserved number 8. -/
def State.replyRoomFull (s : State) : Bool :=
  decide (Config.replyRoom ≤ s.trunk.replies.length + s.longCount)

/-- R158 step 2, R171: a good frame is counted and restarts the trunk silence timer. -/
def State.goodFrame (s : State) : State :=
  { s with trunk := s.trunk.countGoodFrame.restartSilence s.tables.timers.silenceLimit }

/-- R159 step 1: a request discarded for want of reply room. -/
def State.dropRequest (s : State) : State :=
  State.raise
    { s with trunk := { s.trunk with
      counters := { s.trunk.counters with requestsDropped := satSucc s.trunk.counters.requestsDropped } } }
    .requestDropped

/-- A request's answer placed as its reply; a long request that was accepted has none yet. -/
def State.answer (s : State) (tag code : Byte) (a : Option Answer) : State :=
  match a with
  | some a => s.place tag code a.result a.data
  | none => s

/-- R158, R159: a good frame taken as a request, unless there is no room for its reply. -/
def State.passRequest (s : State) (tag code : Byte) (serve : State → State × Option Answer) : State :=
  if s.live then
    let s := s.goodFrame
    if s.replyRoomFull then s.dropRequest
    else (serve s).1.answer tag code (serve s).2
  else s

/-- R159 step 3: in LOADING a request other than READ_INFO and READ_STATUS is answered STARTING. -/
def unlessLoading (serve : State → State × Option Answer) (s : State) : State × Option Answer :=
  if s.loader.op = .loading then (s, some (.plain .starting)) else serve s

/-- R144, R148: a restricted request inside an open bracket is not done and aborts it. -/
def restricted (serve : State → State × Option Answer) (s : State) : State × Option Answer :=
  if s.bracket.state.isOpen then
    let s := s.countOrdinal
    (s.abortBracket .restricted (some s.bracket.ordinal) none, some (.plain .aborted))
  else serve s

/-- R158 to R160: a request, with its own rule. -/
def State.request (s : State) (tag code : Byte) (serve : State → State × Option Answer) : State :=
  s.passRequest tag code (unlessLoading serve)

end Sys2Proof.Machine
end

