-- ==== Sys2Proof/Machine/Slots.lean ====
section
/-! DEFINITION. The poll schedule in motion: the start of a slot, the composition of a SET frame, the
hold of a transmission behind a frame being received, and the end of a slot (R1, R6 to R11, R36). -/

namespace Sys2Proof.Machine

open Sys2Proof

/-- R10: the pairs of the channels whose node is `n`, in ascending node channel order. -/
def State.setPairs (s : State) (n : Nat) : List (Nat × Nat) :=
  let mine := (s.tables.channels.zip s.image).list.filter fun p => p.1.mapped && p.1.node == n
  (List.range 16).flatMap fun k =>
    (mine.filter fun p => p.1.nodeChannel == k).map fun p => (k, p.2.commanded)

def State.setPhase (s : State) (p : SlotPhase) : State := { s with seg := { s.seg with phase := p } }

/-- The phase in which the frame goes out. -/
def Outgoing.phase : Outgoing → SlotPhase
  | .poll n => .sendingPoll n
  | .set n pairs => .sendingSet n pairs

/-- R1: the phase of a slot whose frame is ready: the frame goes out, or is held where another is being
received; `hold` then says whether that one's reception began outside RUN. -/
def Outgoing.start (o : Outgoing) : Option Bool → SlotPhase
  | none => o.phase
  | some stale => .held stale o

/-- R1: the transmission of a frame begins, or is held. -/
def State.transmit (s : State) (hold : Option Bool) (o : Outgoing) : State := s.setPhase (o.start hold)

/-- R10, R11: the SET frame of node `n` composed, the node taken off the urgent queue, and the frame's
transmission begun or held. -/
def State.composeSet (s : State) (hold : Option Bool) (n : Nat) : State :=
  State.transmit { s with seg := { s.seg with urgent := removeNode s.seg.urgent n } } hold (.set n (s.setPairs n))

/-- R6: the position after position `p` of a schedule of `count` slots. -/
def nextPos (count p : Nat) : Nat := if p + 1 < count then p + 1 else 0

def State.advanceSlot (s : State) : State :=
  { s with seg := { s.seg with slotPos := nextPos s.tables.scheduleHead.slotCount s.seg.slotPos } }

/-- The slot at the slot position starts. A SET slot, and a FREE slot that has a node to serve, compose their
frame at the start, whether or not R1 then holds its transmission (R10, R11). A FREE slot that finds the
queue empty ends at once; `fuel` bounds how many such slots pass in a row. -/
def startSlot : Nat → Option Bool → State → State
  | 0, _, s => s.setPhase .silent
  | fuel + 1, hold, s =>
    let slot := s.tables.slots.get s.seg.slotPos
    match slot.kind, s.seg.urgent with
    | .poll, _ => s.transmit hold (.poll slot.address)
    | .set, _ => s.composeSet hold slot.address
    | .free, e :: _ => s.composeSet hold e.address
    | .free, [] => startSlot fuel hold s.advanceSlot
    | .unlisted _, _ => startSlot fuel hold s.advanceSlot

/-- The slot at the slot position starts (R6), the line being free or not. What the image took before it lies behind
its composition (R36). -/
def State.startSlot (s : State) (hold : Option Bool) : State := Machine.startSlot 129 hold s.settle

/-- The hold behind a frame whose reception began in RUN, if one is being received. -/
def holdIf (receiving : Bool) : Option Bool := if receiving then some false else none

/-- R6: the slot ends, the position advances and the next slot starts at once. -/
def State.endSlot (s : State) (receiving : Bool) : State :=
  s.advanceSlot.startSlot (holdIf receiving)

/-! ### A composition between two writes of a series (R36) -/

/-- A composition may fall before the newest `late` events of the image: the first of them is a further write of a
series, and the others are of the same step. -/
def mayFallBefore (late : Nat) (log : List ImageEvent) : Bool :=
  decide (late ≤ log.length) &&
    match log.drop (log.length - late) with
    | e :: rest => e.link == .sameSeries && rest.all fun e => e.link != .first
    | [] => false

/-- The channel image and the urgent queue as they stood before a list of events, the newest that the image took. -/
def State.backTo (s : State) (later : List ImageEvent) : State :=
  { s with
    image := (later.flatMap ImageEvent.before).foldr (fun b image => image.set b.1 b.2) s.image
    seg := { s.seg with urgent := s.seg.urgent.take ((later.head?.map ImageEvent.queued).getD s.seg.urgent.length) } }

/-- R26, R28: the offers of an event made to the urgent queue. -/
def ImageEvent.offered (e : ImageEvent) (q : List UrgentEntry) : List UrgentEntry :=
  e.offers.foldl (fun q n => offerNode q n .value) q

/-- Events taken behind a composition, each with the length of the queue it then finds. -/
def requeued : List UrgentEntry → List ImageEvent → List ImageEvent
  | _, [] => []
  | q, e :: rest => { e with queued := q.length } :: requeued (e.offered q) rest

/-- R36: the later events taken behind the slot start: the image as they left it, and each node whose value they
changed joined again. -/
def State.takeLater (s : State) (image : Tab ChannelRun 512) (later : List ImageEvent) : State :=
  { s with
    image := image
    seg := { s.seg with
      urgent := later.foldl (fun q e => e.offered q) s.seg.urgent
      log := requeued s.seg.urgent later } }

/-- R6, R36: the slot ends, the next one starting, with its composition, before the newest `late` events of the image
where these begin between two writes of a series, and behind every event otherwise. -/
def State.endSlotBefore (s : State) (receiving : Bool) (late : Nat) : State :=
  if mayFallBefore late s.seg.log then
    let later := s.seg.log.drop (s.seg.log.length - late)
    ((s.backTo later).endSlot receiving).takeLater s.image later
  else s.endSlot receiving

def State.countDraw (s : State) : State := { s with seg := { s.seg with draws := s.seg.draws + 1 } }

/-- R6, R36: the slot ends and the next one starts. Where the image has taken a series since the last slot start, a free
value says how many of its newest events come behind the composition: DESIGN CHOICE (log 50). -/
def State.endSlotAmid (s : State) (receiving : Bool) : State :=
  if s.seg.log.any fun e => e.link == .sameSeries then s.countDraw.endSlotBefore receiving (Config.laterEvents s.seg.draws)
  else s.endSlot receiving

/-- R1: at the end of reception of a frame, the transmission it held begins. `stale` says that its reception
began outside RUN. -/
def State.releaseHold (s : State) (stale : Bool) : State :=
  match s.seg.phase with
  | .held b o => if b = stale then s.setPhase o.phase else s
  | .silent | .sendingPoll _ | .awaiting _ | .sendingSet _ _ => s

/-- R9: a frame discarded and counted. -/
def State.discardFieldFrame (s : State) : State :=
  State.raise { s with seg := { s.seg with checkErrors := satSucc s.seg.checkErrors } } .fieldErrors

end Sys2Proof.Machine
end

