-- ==== Sys2Proof/Machine/Watch.lean ====
section
/-! DEFINITION. The surface watch and the guard level (chapter 3): conditions, the four modes, chaining,
latching, stale policies, and the event that ends in one recomputation of the guard level. -/

namespace Sys2Proof.Machine

open Sys2Proof

/-! ### Entries in use and chained (R41) -/

/-- R41: entry `k` is chained when entry `k - 1` has its chain flag set. -/
def Tables.chained (t : Tables) (k : Nat) : Bool := decide (0 < k) && isSet (t.watch.get (k - 1)).chain

/-- R41: chained, or its point field names a point. -/
def Tables.watchInUse (t : Tables) (k : Nat) : Bool := t.chained k || (t.watch.get k).point.given

/-- R43: the run fields after a reset, on ENTER_CONFIG, when the entry is written, and on entry to RUN;
`windows` says that this is an entry to RUN, which starts the window of an in-use RATE or COUNT entry. -/
def Tables.watchRest (t : Tables) (windows : Bool) (k : Nat) : WatchRun where
  cond := false
  state := .idle
  count := 0
  timer :=
    if windows && t.watchInUse k && ((t.watch.get k).mode == .rate || (t.watch.get k).mode == .count) then
      some (1000 * (t.watch.get k).window)
    else none
  lost := !t.chained k

/-- R43: every entry at rest. -/
def Tables.watchRests (t : Tables) (windows : Bool) : Tab WatchRun 32 :=
  t.watch.mapIdx fun k _ => t.watchRest windows k

/-! ### The condition (R44) -/

/-- The values an evaluation reads: the entry's low or only threshold, and its high one. -/
structure Limits where
  low : Int
  high : Int
deriving DecidableEq, Repr

def Tables.limitsOf (t : Tables) (r : WatchRec) : Limits :=
  ⟨t.thresholds.get r.threshold, t.thresholds.get r.highThreshold⟩

/-- R44: the plain evaluation, without hysteresis. -/
def WatchRec.plain (r : WatchRec) (l : Limits) (v : Int) : Bool :=
  match r.compare with
  | .above => decide (l.low < v)
  | .below => decide (v < l.low)
  | .outside => decide (v < l.low) || decide (l.high < v)
  | .unlisted _ => false

/-- R44: the evaluation with hysteresis, from the flag as it stands. -/
def WatchRec.evaluate (r : WatchRec) (l : Limits) (v : Int) (cond : Bool) : Bool :=
  if cond then
    match r.compare with
    | .above => !decide (v ≤ l.low - r.hysteresis)
    | .below => !decide (l.low + r.hysteresis ≤ v)
    | .outside => !(decide (l.low + r.hysteresis ≤ v) && decide (v ≤ l.high - r.hysteresis))
    | .unlisted _ => cond
  else r.plain l v

/-! ### What happens to one entry -/

/-- An entry's new run fields; whether it made a transition into TRIPPED (R51); whether it went into
LATCHED (R52). -/
structure EntryOutcome where
  run : WatchRun
  trip : Bool
  latched : Bool
deriving DecidableEq, Repr

/-- No change of state worth telling. -/
def EntryOutcome.quiet (w : WatchRun) : EntryOutcome := ⟨w, false, false⟩

/-- R46: the qualify side applies. -/
def WatchRec.qualifySide (r : WatchRec) : Bool :=
  (r.edge == .enter || r.edge == .both) && decide (0 < r.qualify)

/-- R46: the release side applies. -/
def WatchRec.releaseSide (r : WatchRec) : Bool :=
  (r.edge == .leave || r.edge == .both) && decide (0 < r.release)

/-- R49: a rising edge counted in RATE and COUNT mode; a LATCHED entry keeps counting. -/
def WatchRec.countEdge (r : WatchRec) (w : WatchRun) : EntryOutcome :=
  let n := satAdd 255 w.count 1
  if w.state = .idle ∧ r.limit ≤ n then ⟨{ w with count := n, state := .tripped }, true, false⟩
  else .quiet { w with count := n }

/-- A rising edge, the flag already stored (R46, R48, R49). -/
def WatchRec.rise (r : WatchRec) (w : WatchRun) : EntryOutcome :=
  match r.mode with
  | .delay =>
    match w.state with
    | .idle =>
      if r.qualifySide then .quiet { w with state := .qualifying, timer := some (1000 * r.qualify) }
      else ⟨{ w with state := .tripped }, true, false⟩
    | .releasing => ⟨{ w with state := .tripped, timer := none }, true, false⟩
    | .qualifying | .tripped | .latched => .quiet w
  | .pulse =>
    match w.state with
    | .idle => ⟨{ w with state := .tripped, timer := some (1000 * r.hold) }, true, false⟩
    | .tripped => .quiet { w with timer := some (1000 * r.hold) }
    | .qualifying | .releasing | .latched => .quiet w
  | .rate | .count => r.countEdge w
  | .unlisted _ => .quiet w

/-- A falling edge, the flag already stored (R46, R48, R49). -/
def WatchRec.fall (r : WatchRec) (w : WatchRun) : EntryOutcome :=
  match r.mode with
  | .delay =>
    match w.state with
    | .qualifying => .quiet { w with state := .idle, timer := none }
    | .tripped =>
      if isSet r.latch then ⟨{ w with state := .latched, timer := none }, false, true⟩
      else if r.releaseSide then .quiet { w with state := .releasing, timer := some (1000 * r.release) }
      else .quiet { w with state := .idle, timer := none }
    | .idle | .releasing | .latched => .quiet w
  | .pulse | .rate | .count | .unlisted _ => .quiet w

/-- The flag takes `c`, and the mode acts on the edge if there is one (R44). -/
def WatchRec.takeCond (r : WatchRec) (w : WatchRun) (c : Bool) : EntryOutcome :=
  if c = w.cond then .quiet w
  else if c then r.rise { w with cond := true }
  else r.fall { w with cond := false }

/-- R55: the first value update after a loss of use, or after entry to RUN. -/
def WatchRec.regain (r : WatchRec) (w : WatchRun) (c : Bool) : EntryOutcome :=
  let w := { w with lost := false }
  if w.state = .latched then .quiet { w with cond := c }
  else if r.stale = .trip ∧ w.state = .tripped then
    match r.mode with
    | .delay => r.takeCond w c
    | .pulse => .quiet { w with cond := c, timer := some (1000 * r.hold) }
    | .rate | .count | .unlisted _ => .quiet { w with cond := c }
  else r.takeCond w c

/-- R44, R55: an entry at a value update of its point. -/
def WatchRec.valueUpdate (r : WatchRec) (l : Limits) (v : Int) (w : WatchRun) : EntryOutcome :=
  if w.lost then r.regain w (r.plain l v) else r.takeCond w (r.evaluate l v w.cond)

/-- R54: the running timer of a DELAY or PULSE entry stopped; a window runs on. -/
def WatchRec.stopTimer (r : WatchRec) (w : WatchRun) : Option Nat :=
  match r.mode with
  | .delay | .pulse => none
  | .rate | .count | .unlisted _ => w.timer

/-- R54: an entry at a loss of use of its point. -/
def WatchRec.lossOfUse (r : WatchRec) (w : WatchRun) : EntryOutcome :=
  let w := { w with lost := true }
  match r.stale with
  | .trip =>
    if w.state = .latched then .quiet { w with cond := true }
    else ⟨{ w with cond := true, state := .tripped, timer := r.stopTimer w }, w.state != .tripped, false⟩
  | .clear =>
    if w.state = .latched then .quiet { w with cond := false }
    else if w.state = .tripped ∧ isSet r.latch then
      ⟨{ w with cond := false, state := .latched, timer := r.stopTimer w }, false, true⟩
    else .quiet { w with cond := false, state := .idle, timer := r.stopTimer w }
  | .hold | .unlisted _ => .quiet w

/-- R53: a LATCHED entry released; with stale policy TRIP and the lost mark set it trips again. -/
def WatchRec.releaseLatch (r : WatchRec) (chained : Bool) (w : WatchRun) : EntryOutcome :=
  if w.state = .latched then
    if !chained ∧ r.stale = .trip ∧ w.lost then
      ⟨{ w with state := .tripped, cond := true, count := 0 }, true, false⟩
    else .quiet { w with state := .idle, cond := false, count := 0 }
  else .quiet w

/-- R46: the expiry of a qualify timer. -/
def WatchRec.qualifyEnds (r : WatchRec) (w : WatchRun) : EntryOutcome :=
  if r.mode = .delay ∧ w.state = .qualifying then ⟨{ w with state := .tripped, timer := none }, true, false⟩
  else .quiet w

/-- R46: the expiry of a release timer. -/
def WatchRec.releaseEnds (r : WatchRec) (w : WatchRun) : EntryOutcome :=
  if r.mode = .delay ∧ w.state = .releasing then .quiet { w with state := .idle, timer := none } else .quiet w

/-- R48: the expiry of a hold timer. -/
def WatchRec.holdEnds (r : WatchRec) (w : WatchRun) : EntryOutcome :=
  if r.mode = .pulse ∧ w.state = .tripped ∧ w.timer.isSome then
    if isSet r.latch then ⟨{ w with state := .latched, timer := none }, false, true⟩
    else .quiet { w with state := .idle, timer := none }
  else .quiet w

/-- R54: a TRIP entry stays TRIPPED while its lost mark is set. -/
def WatchRec.tripHeld (r : WatchRec) (chained : Bool) (w : WatchRun) : Bool :=
  !chained && r.stale == .trip && w.lost

/-- R50: the expiry of a window. -/
def WatchRec.windowEnds (r : WatchRec) (chained : Bool) (w : WatchRun) : EntryOutcome :=
  if (r.mode = .rate ∨ r.mode = .count) ∧ w.timer.isSome then
    let w' := { w with count := 0, timer := some (1000 * r.window) }
    if w.state = .tripped ∧ w.count < r.limit ∧ !r.tripHeld chained w then
      if isSet r.latch then ⟨{ w' with state := .latched }, false, true⟩ else .quiet { w' with state := .idle }
    else .quiet w'
  else .quiet w

/-! ### One event (R45) -/

/-- R45, R51: the entries in ascending number. `act` is what the event does to an entry it reaches;
`count` says that the entry before made a transition into TRIPPED with its chain flag set, which is
counted at this one as a rising edge. Where the event also reaches this one by itself, as RELEASE_WATCH can, its
own part comes first and the count after it: DESIGN CHOICE (log 39). -/
def chainFrom (act : Nat → WatchRec → WatchRun → EntryOutcome) :
    Nat → Bool → List (WatchRec × WatchRun) → List EntryOutcome
  | _, _, [] => []
  | k, count, (r, w) :: rest =>
    let direct := act k r w
    let o := if count then
        let c := r.countEdge direct.run
        ⟨c.run, direct.trip || c.trip, direct.latched⟩
      else direct
    o :: chainFrom act (k + 1) (o.trip && isSet r.chain) rest

theorem length_chainFrom (act : Nat → WatchRec → WatchRun → EntryOutcome) (l : List (WatchRec × WatchRun)) :
    ∀ k c, (chainFrom act k c l).length = l.length := by
  induction l with
  | nil => intro k c; rfl
  | cons a l ih => intro k c; simp [chainFrom, ih]

/-- R45: the outcome of an event at each of the 32 entries. -/
def watchOutcomes (t : Tables) (runs : Tab WatchRun 32) (act : Nat → WatchRec → WatchRun → EntryOutcome) :
    Tab EntryOutcome 32 :=
  ⟨chainFrom act 0 false (t.watch.zip runs).list, by rw [length_chainFrom, (t.watch.zip runs).len]⟩

/-- R57: what one entry contributes. -/
def entryLevel (p : WatchRec × WatchRun) : GuardLevel :=
  if p.2.state = .tripped ∨ p.2.state = .latched then
    match p.1.severity with
    | .warm => .warm
    | .critical => .critical
    | .advisory | .unlisted _ => .normal
  else .normal

/-- R57: the higher of two levels. -/
def GuardLevel.max : GuardLevel → GuardLevel → GuardLevel
  | .critical, _ => .critical
  | _, .critical => .critical
  | .warm, _ => .warm
  | _, .warm => .warm
  | .normal, .normal => .normal

/-- R57: the guard level of a table and its run fields. -/
def guardOf (t : Tables) (runs : Tab WatchRun 32) : GuardLevel :=
  (t.watch.zip runs).list.foldl (fun g p => g.max (entryLevel p)) .normal

/-- R58, R154: a change of the guard level stored, raised and delivered: to the channel image, and to
the bracket unit, which aborts at CRITICAL. -/
def State.setGuard (s : State) (g : GuardLevel) : State :=
  if g = s.watch.guard then s
  else
    let s := State.raise { s with watch := { s.watch with guard := g } } .guardChanged
    let s := s.reclamp g
    if g = .critical then s.abortBracket .guard none none else s

/-- R45: one event at the surface watch in RUN or CONFIG. -/
def State.watchEvent (s : State) (act : Nat → WatchRec → WatchRun → EntryOutcome) : State :=
  let o := watchOutcomes s.tables s.watch.runs act
  let runs := o.map EntryOutcome.run
  let s := { s with watch := { s.watch with runs := runs } }
  (s.raiseIf (o.list.any EntryOutcome.latched) .watchLatched).setGuard (guardOf s.tables runs)

/-- The action on the one entry `k`. -/
def onEntry (k : Nat) (act : WatchRec → WatchRun → EntryOutcome) (j : Nat) (r : WatchRec) (w : WatchRun) :
    EntryOutcome :=
  if j = k then act r w else .quiet w

/-- The action on the unchained in-use entries whose point is `p`. -/
def onPoint (t : Tables) (p : Nat) (act : WatchRec → WatchRun → EntryOutcome) (j : Nat) (r : WatchRec)
    (w : WatchRun) : EntryOutcome :=
  if !t.chained j ∧ r.point.get = some p then act r w else .quiet w

/-- R44: a value update of point `p` at the surface watch. -/
def State.watchValue (s : State) (p : Nat) (v : Int) : State :=
  s.watchEvent (onPoint s.tables p fun r w => r.valueUpdate (s.tables.limitsOf r) v w)

/-- R54: a loss of use of point `p` at the surface watch. -/
def State.watchLoss (s : State) (p : Nat) : State := s.watchEvent (onPoint s.tables p WatchRec.lossOfUse)

/-- R56: the entry reads a threshold index whose value changed. -/
def WatchRec.reads (r : WatchRec) (before now : Tab Int 32) : Bool :=
  (before.get r.threshold != now.get r.threshold) ||
    (r.compare == .outside && before.get r.highThreshold != now.get r.highThreshold)

/-- R56: an accepted write of THRESHOLDS in RUN, the new values already stored. -/
def State.watchThresholds (s : State) (before : Tab Int 32) : State :=
  s.watchEvent fun j r w =>
    match r.point.get with
    | some p =>
      if !s.tables.chained j ∧ r.reads before s.tables.thresholds ∧ !w.lost then
        match s.pointValue p with
        | some v => r.takeCond w (r.evaluate (s.tables.limitsOf r) v w.cond)
        | none => .quiet w
      else .quiet w
    | none => .quiet w

/-- R53: the entries of the mask that are LATCHED. Bit k of a mask, from the least significant bit, stands for
entry k: DESIGN CHOICE (log 26). -/
def releasedMask (runs : Tab WatchRun 32) (mask : BitVec 32) : BitVec 32 :=
  runs.enum.foldl
    (fun m e => if mask.getLsbD e.1 && e.2.state == .latched then m ||| (1#32 <<< e.1) else m) 0#32

/-- R53: RELEASE_WATCH; bit k of the mask stands for entry k: DESIGN CHOICE (log 26). -/
def State.watchRelease (s : State) (mask : BitVec 32) : State :=
  s.watchEvent fun k r w => if mask.getLsbD k then r.releaseLatch (s.tables.chained k) w else .quiet w

/-- R59: the surface watch on entry to RUN. -/
def State.watchEnterRun (s : State) : State :=
  { s with watch := ⟨s.tables.watchRests true, .normal⟩ }

/-- R59: the surface watch on ENTER_CONFIG. -/
def State.watchEnterConfig (s : State) : State :=
  State.raiseIf { s with watch := ⟨s.tables.watchRests false, .normal⟩ } (s.watch.guard != .normal) .guardChanged

end Sys2Proof.Machine
end

