-- ==== Sys2Proof/Machine/Fog.lean ====
section
/-! DEFINITION. The fog monitor (chapter 4): dew point and margin, station states, fan patterns, the
published record and the dehumidifier. -/

namespace Sys2Proof.Machine

open Sys2Proof

/-! ### Dew point and margin (R67 to R70) -/

/-- R68: the saturation pressure at `t`, which lies in −400..600. -/
def saturationAt (e : Tab Nat 101) (t : Int) : Nat :=
  let n := (t + 400).toNat
  let i := n / 10
  let f := n % 10
  if i = 100 then e.get 100 else e.get i + (e.get (i + 1) - e.get i) * f / 10

/-- R68: the vapour pressure, rounded half up. -/
def vapourPressure (es rh : Nat) : Nat := (es * rh + 500) / 1000

/-- R69: the largest index whose entry is at most `e`, with that entry and the next one; none where
even the first entry is above `e`. -/
def searchFrom (e : Nat) : Nat → List Nat → Option (Nat × Nat × Option Nat)
  | _, [] => none
  | i, a :: rest =>
    if e < a then none
    else
      match searchFrom e (i + 1) rest with
      | some found => some found
      | none => some (i, a, rest.head?)

/-- R69: what an evaluation finds. -/
structure DewPoint where
  td : Int
  lowE : Bool
  highE : Bool
deriving DecidableEq, Repr

/-- R69: the dew point by inverse interpolation. -/
def dewPoint (table : Tab Nat 101) (e : Nat) : DewPoint :=
  match searchFrom e 0 table.list with
  | none => ⟨-400, true, false⟩
  | some (_, _, none) => ⟨600, false, true⟩
  | some (j, a, some b) => ⟨10 * (j : Int) - 400 + (((e - a) * 10 / (b - a) : Nat) : Int), false, false⟩

/-- R71: the state that a margin gives, from the state before. -/
def FogTuneRec.nextState (r : FogTuneRec) (s : FogState) (m : Int) : FogState :=
  match s with
  | .unknown | .clear => if m < r.risk then .risk else if m < r.warn then .watch else .clear
  | .watch => if m < r.risk then .risk else if r.warn + r.hysteresis ≤ m then .clear else .watch
  | .risk =>
    if r.warn + r.hysteresis ≤ m then .clear
    else if r.risk + r.hysteresis ≤ m then .watch
    else .risk

/-! ### Stations -/

/-- R63: all three points are given. -/
def FogMapRec.inUse (r : FogMapRec) : Bool := r.humidity.given && r.air.given && r.chill.given

def Tables.stationInUse (t : Tables) (i : Nat) : Bool := decide (i < 8) && (t.fogMap.get i).inUse

/-- R73: the pattern of a state; UNKNOWN uses the WATCH pattern. -/
def FogTuneRec.pattern (r : FogTuneRec) : FogState → Word16
  | .clear => r.clearPattern
  | .watch | .unknown => r.watchPattern
  | .risk => r.riskPattern

/-- R73: the fan demand of a step of the pattern of a state. -/
def FogTuneRec.fanDemand (r : FogTuneRec) (s : FogState) (step : Nat) : Nat :=
  if (r.pattern s).getLsbD step then r.fanLevel else 0

def State.setStation (s : State) (i : Nat) (st : StationRun) : State :=
  { s with fog := { s.fog with stations := s.fog.stations.set i st } }

/-- R73 items 1 to 3: the stepper of station `i` put to a step: the fan demand written, the timer
started. -/
def State.putStep (s : State) (i step : Nat) : State :=
  let r := s.tables.fogTune.get i
  let st := s.fog.stations.get i
  (s.setStation i { st with step := step, timer := some (1000 * r.period) }).writeDemandTo r.fan.get
    (r.fanDemand st.state step)

/-- R72: the station's state becomes `n`: if that is a change, FOG_CHANGED is raised and the pattern
restarts at step 0. -/
def State.putFogState (s : State) (i : Nat) (n : FogState) : State :=
  let st := s.fog.stations.get i
  if n = st.state then s
  else (State.raise (s.setStation i { st with state := n }) .fogChanged).putStep i 0

/-- R67 to R70: the values of the station's three points, clamped, if all are usable: air, chill,
humidity. -/
def State.stationInputs (s : State) (i : Nat) : Option (Int × Int × Nat) :=
  let m := s.tables.fogMap.get i
  match (m.air.get.bind s.pointValue), (m.chill.get.bind s.pointValue), (m.humidity.get.bind s.pointValue) with
  | some t, some c, some rh => some (clampInt (-400) 600 t, clampInt (-400) 600 c, (clampInt 0 1000 rh).toNat)
  | _, _, _ => none

/-- R67 to R72: the evaluation of station `i`. -/
def State.evaluateStation (s : State) (i : Nat) : State :=
  let st := s.fog.stations.get i
  match s.stationInputs i with
  | none =>
    (s.setStation i { st with dewPoint := none, margin := none, lowE := false, highE := false }).putFogState i
      .unknown
  | some (t, c, rh) =>
    let d := dewPoint s.tables.saturation (vapourPressure (saturationAt s.tables.saturation t) rh)
    let m := c - d.td
    (s.setStation i { st with dewPoint := some d.td, margin := some m, lowE := d.lowE, highE := d.highE }).putFogState
      i ((s.tables.fogTune.get i).nextState st.state m)

/-! ### The published record and the dehumidifier -/

/-- R74: what a station contributes to the dehumidifier demand. -/
def FogTuneRec.contribution (r : FogTuneRec) : FogState → Nat
  | .risk => r.riskDemand
  | .watch | .unknown => r.watchDemand
  | .clear => 0

/-- The in-use stations of the fog monitor, in ascending number. -/
def Tables.stationsInUse (t : Tables) : List Nat := (List.range 8).filter t.stationInUse

/-- R74: the dehumidifier demand. -/
def publishedDemand (t : Tables) (f : FogUnit) : Nat :=
  t.stationsInUse.foldl
    (fun d i => max d ((t.fogTune.get i).contribution (f.stations.get i).state)) 0

/-- R74: the promotion flag. -/
def publishedPromotion (t : Tables) (f : FogUnit) : Bool :=
  t.stationsInUse.any fun i => (f.stations.get i).state == .risk

/-- R76: the unit put to RUNNING, and 1000 written to its motor. -/
def State.dehumidRun (s : State) : State :=
  State.writeDemandTo
    { s with fog := { s.fog with
        unitState := .running
        runTimer := some (1000 * s.tables.dehumid.minRun)
        restTimer := none
        served := false } }
    s.tables.motor.get 1000

/-- R76: the unit put to RESTING, and 0 written to its motor. The minimum run time has elapsed, by its expiry now or
before, so the served mark is set (4.8), whichever of the two events of R77 pair 1 came first. -/
def State.dehumidRest (s : State) : State :=
  State.writeDemandTo
    { s with fog := { s.fog with
        unitState := .resting
        runTimer := none
        restTimer := some (1000 * s.tables.dehumid.minRest)
        served := true } }
    s.tables.motor.get 0

/-- R76: a change of the published demand, from `before` to what now stands. -/
def State.dehumidDemand (s : State) (before : Nat) : State :=
  match s.fog.unitState with
  | .off => if before = 0 ∧ 0 < s.fog.demand then s.dehumidRun else s
  | .running => if 0 < before ∧ s.fog.demand = 0 ∧ s.fog.served then s.dehumidRest else s
  | .resting => s

/-- R66, R74: the end of every event: both values recomputed together, and the dehumidifier told of a
change of the demand. -/
def State.publishFog (s : State) : State :=
  let before := s.fog.demand
  let s := { s with fog := { s.fog with
    demand := publishedDemand s.tables s.fog
    promotion := publishedPromotion s.tables s.fog } }
  if s.fog.demand = before then s else s.dehumidDemand before

/-- R67: the stations that name point `p`, in ascending number. -/
def Tables.stationsOf (t : Tables) (p : Nat) : List Nat :=
  t.stationsInUse.filter fun i =>
    let m := t.fogMap.get i
    m.humidity.get == some p || m.air.get == some p || m.chill.get == some p

/-- R66: a value update or a loss of use of point `p` at the fog monitor. -/
def State.fogPoint (s : State) (p : Nat) : State :=
  match s.tables.stationsOf p with
  | [] => s
  | l => s.asSeries (l.foldl State.evaluateStation s).publishFog

/-- R73: the expiry of a step timer. -/
def State.fogStep (s : State) (i : Nat) : State :=
  s.asSeries (s.putStep i (((s.fog.stations.get i).step + 1) % 16)).publishFog

/-- R76, R77: the expiry of the run timer. -/
def State.runTimerEnds (s : State) : State :=
  let s := { s with fog := { s.fog with runTimer := none } }
  State.publishFog
    (if s.fog.demand = 0 then s.dehumidRest else { s with fog := { s.fog with served := true } })

/-- R76: the expiry of the rest timer. -/
def State.restTimerEnds (s : State) : State :=
  let s := { s with fog := { s.fog with restTimer := none } }
  State.publishFog
    (if s.fog.demand = 0 then { s with fog := { s.fog with unitState := .off } } else s.dehumidRun)

/-- R75: an accepted write of FOG_TUNE in RUN at station `i`, whose fields were `b` before. -/
def State.retuneStation (s : State) (i : Nat) (b : FogTuneRec) : State :=
  let r := s.tables.fogTune.get i
  let st := s.fog.stations.get i
  let n :=
    match st.margin with
    | some m =>
      if st.state ≠ .unknown ∧ (r.warn ≠ b.warn ∨ r.risk ≠ b.risk ∨ r.hysteresis ≠ b.hysteresis) then
        r.nextState st.state m
      else st.state
    | none => st.state
  if n ≠ st.state then s.putFogState i n
  else if r.fan.get ≠ b.fan.get ∨ r.fanLevel ≠ b.fanLevel ∨ r.pattern st.state ≠ b.pattern st.state then
    s.writeDemandTo r.fan.get (r.fanDemand st.state st.step)
  else s

/-- R75: the event of a write of entries `first` to `first + count - 1`, the table before it being
`before`. -/
def State.fogRetune (s : State) (before : Tab FogTuneRec 8) (first count : Nat) : State :=
  let reached := s.tables.stationsInUse.filter fun i => decide (first ≤ i) && decide (i < first + count)
  s.asSeries (reached.foldl (fun s i => s.retuneStation i (before.get i)) s).publishFog

/-- R79: the fog monitor on entry to RUN, the channel image already at its start values. -/
def State.fogEnterRun (s : State) : State :=
  let s := { s with fog := .initial }
  s.asSeries (s.tables.stationsInUse.foldl (fun s i => s.putStep i 0) s).publishFog

/-- R79: the fog monitor on ENTER_CONFIG. -/
def State.fogEnterConfig (s : State) : State :=
  State.raiseIf { s with fog := .initial }
    (s.tables.stationsInUse.any fun i => (s.fog.stations.get i).state != .unknown) .fogChanged

end Sys2Proof.Machine
end

