-- ==== Sys2Proof/Machine/Heat.lean ====
section
/-! DEFINITION. The heat dispatcher (chapter 5): the dispatch pass, its allocation by class and weight,
the valve steps, and what starts a pass. -/

namespace Sys2Proof.Machine

open Sys2Proof

/-- R83: a sink is in use when its kind is not NONE. -/
def SinkMapRec.inUse (r : SinkMapRec) : Bool := r.kind != .unused

def Tables.sinkInUse (t : Tables) (i : Nat) : Bool := decide (i < 8) && (t.sinkMap.get i).inUse

/-- The in-use sinks, in ascending number. -/
def Tables.sinksInUse (t : Tables) : List Nat := (List.range 8).filter t.sinkInUse

/-- R85, R86: the active mark. It follows the operating state and SINK_MAP, so it is read from them. -/
def State.heatActive (s : State) : Bool := s.inRun && !s.tables.sinksInUse.isEmpty

/-! ### Heat available (R89, R90) -/

/-- R89: from flow, supply and return values and the heat factor. -/
def heatAvailable (f ts tr : Int) (k : Nat) : Nat :=
  min 4000 ((clampInt 0 10000 f).toNat * (clampInt 0 500 (ts - tr)).toNat * k / 100000)

/-- R89, R90: H, or none where a heat point is not usable and the pass is BLIND. -/
def State.heatMeasured (s : State) : Option Nat :=
  let d := s.tables.dispatch
  match d.flow.get.bind s.pointValue, d.supply.get.bind s.pointValue, d.ret.get.bind s.pointValue with
  | some f, some ts, some tr => some (heatAvailable f ts tr d.factor)
  | _, _, _ => none

/-! ### Demands and classes (R91, R92) -/

/-- R105: the sum of the eligible demands. -/
def eligibleSum (z : ZoneUnit) : Nat := (z.runs.list.map ZoneRun.eligible).sum

/-- R91: the demand of an in-use sink. -/
def State.sinkDemand (s : State) (i : Nat) : Nat :=
  let m := s.tables.sinkMap.get i
  let t := s.tables.sinkTune.get i
  min m.capacity
    (match m.kind with
    | .zones => eligibleSum s.zones
    | .dehumid => if s.fog.unitState = .running then s.fog.demand else 0
    | .proportional =>
      match s.pointValue m.input with
      | some v => (max 0 (t.setpoint - v)).toNat * t.gain / 10
      | none => m.capacity
    | .fixed => t.fixedDemand
    | .unused | .unlisted _ => 0)

/-- R92: the effective class of an in-use sink. -/
def State.effectiveClass (s : State) (i : Nat) : Nat :=
  if (s.tables.sinkMap.get i).kind = .dehumid ∧ s.fog.promotion then 0 else (s.tables.sinkTune.get i).sinkClass

/-! ### Allocation (R93, R94) -/

/-- What the allocation reads of a sink, and the grant it is given. -/
structure Claim where
  sink : Nat
  demand : Nat
  weight : Nat
  cls : Nat
deriving DecidableEq, Repr

def demandSum (l : List Claim) : Nat := (l.map Claim.demand).sum

def weightSum (l : List Claim) : Nat := (l.map Claim.weight).sum

/-- R94 step 2: the share of a sink of the unserved set. -/
def Claim.shareOf (c : Claim) (rc w : Nat) : Nat := rc * c.weight / w

/-- R94 step 4: each its share, and 1 kW more to the first `residual` of them. -/
def giveShares (rc w : Nat) : Nat → List Claim → List (Nat × Nat)
  | _, [] => []
  | r, c :: rest => (c.sink, c.shareOf rc w + if 0 < r then 1 else 0) :: giveShares rc w (r - 1) rest

/-- R94: the rounds of a class that cannot be served whole; `fuel` bounds the rounds, of which there
are at most 8. -/
def shareRounds : Nat → Nat → List Claim → List (Nat × Nat)
  | 0, _, _ => []
  | fuel + 1, rc, u =>
    let w := weightSum u
    let capped := u.filter fun c => decide (c.demand ≤ c.shareOf rc w)
    if capped.isEmpty then
      giveShares rc w (rc - (u.map fun c => c.shareOf rc w).sum) u
    else
      capped.map (fun c => (c.sink, c.demand)) ++
        shareRounds fuel (rc - demandSum capped) (u.filter fun c => !decide (c.demand ≤ c.shareOf rc w))

/-- R93: the classes in order; what is granted to each member, each class left with what the classes
before it have not taken. -/
def allocateClasses : List Nat → Nat → List Claim → List (Nat × Nat)
  | [], _, _ => []
  | k :: ks, r, claims =>
    let members := claims.filter fun c => c.cls == k && decide (0 < c.demand)
    if demandSum members ≤ r then
      members.map (fun c => (c.sink, c.demand)) ++ allocateClasses ks (r - demandSum members) claims
    else shareRounds 9 r members ++ allocateClasses ks 0 claims

/-- R93: the grants, as pairs of a sink and what it is granted. -/
def allocate (h : Nat) (claims : List Claim) : List (Nat × Nat) := allocateClasses [0, 1, 2, 3] h claims

/-- The grant of one sink; 0 where the allocation gives it none. -/
def grantOf (grants : List (Nat × Nat)) (i : Nat) : Nat :=
  match grants.find? fun g => g.1 == i with
  | some g => g.2
  | none => 0

/-! ### Valves (R95) -/

/-- R95: the valve target. -/
def valveTarget (grant capacity : Nat) : Nat := min 1000 (grant * 1000 / capacity)

/-- R95: the valve demand moved toward its target by at most the slew. -/
def valveStep (v target slew : Nat) : Nat :=
  if v < target then min target (v + slew) else if target < v then max target (v - slew) else v

/-! ### The pass (R88) -/

/-- R91, R92: the claims of the in-use sinks. -/
def State.claims (s : State) : List Claim :=
  s.tables.sinksInUse.map fun i =>
    ⟨i, s.sinkDemand i, (s.tables.sinkTune.get i).weight, s.effectiveClass i⟩

/-- R88 stages 2 to 5: the result of sink `i` under the grants; of a sink not in use, zeros (R85). -/
def State.sinkResult (s : State) (grants : List (Nat × Nat)) (i : Nat) : SinkResult :=
  if s.tables.sinkInUse i then
    let g := grantOf grants i
    ⟨s.sinkDemand i, s.effectiveClass i, g, valveTarget g (s.tables.sinkMap.get i).capacity⟩
  else ⟨0, (s.tables.sinkTune.get i).sinkClass, 0, 0⟩

/-- R96: an in-use essential PROPORTIONAL sink is granted less than its demand. -/
def State.shortfall (s : State) (r : Tab SinkResult 8) : Bool :=
  s.tables.sinksInUse.any fun i =>
    (s.tables.sinkMap.get i).kind == .proportional && isSet (s.tables.sinkMap.get i).essential &&
      decide ((r.get i).grant < (r.get i).demand)

/-- R105: what the delivery of the result of a pass carries: the grant of the ZONES sink, 0 where
there is none, and the eligible demands the pass read. -/
def State.deliveryOf (s : State) (r : Tab SinkResult 8) : Delivery where
  grant :=
    match s.tables.sinksInUse.find? fun i => (s.tables.sinkMap.get i).kind == .zones with
    | some i => (r.get i).grant
    | none => 0
  offered := s.zones.runs.map ZoneRun.eligible

/-- R88, R97: a dispatch pass. -/
def State.dispatchPass (s : State) : State :=
  let measured := s.heatMeasured
  let h := measured.getD 0
  let grants := allocate h s.claims
  let result : Tab SinkResult 8 := s.heat.sinks.mapIdx fun i _ => s.sinkResult grants i
  let valves : Tab Nat 8 := s.heat.valves.mapIdx fun i v =>
    if s.tables.sinkInUse i then valveStep v (result.get i).target (s.tables.sinkTune.get i).slew else 0
  let writes := s.tables.sinksInUse.filterMap fun i =>
    (s.tables.sinkMap.get i).valve.get.map fun ch => (ch, valves.get i)
  let newlyBlind := measured.isNone && !(s.heat.passMade && s.heat.blind)
  let short := s.shortfall result
  let delivery := s.deliveryOf result
  let s := s.writeSeries writes
  let s := (s.raiseIf newlyBlind .dispatchBlind).raiseIf short .shortfall
  { s with
    heat := {
      available := h
      blind := measured.isNone
      sinks := result
      ageMs := 0
      valves := valves
      timer := some (1000 * s.tables.dispatch.period)
      arrivals := 0
      passMade := true }
    zones := { s.zones with deliveries := s.zones.deliveries ++ [delivery] } }

/-- R87: a value update of point `p`; under ARRIVALS one of the flow point is an arrival. -/
def State.heatArrival (s : State) (p : Nat) : State :=
  let d := s.tables.dispatch
  if s.heatActive ∧ d.trigger = .arrivals ∧ d.flow.get = some p then
    let n := s.heat.arrivals + 1
    if n = d.arrivalCount then s.dispatchPass else { s with heat := { s.heat with arrivals := n } }
  else s

/-- R98: the dispatcher on entry to RUN: the zero result, the slew state at the start values, the timer
started if the dispatcher is active. -/
def State.heatEnterRun (s : State) : State :=
  { s with heat := {
      available := 0
      blind := true
      sinks := s.tables.sinkTune.map fun r => ⟨0, r.sinkClass, 0, 0⟩
      ageMs := 0
      valves := s.tables.sinkMap.map fun r =>
        if r.inUse then
          match r.valve.get with
          | some ch => (s.tables.channels.get ch).start
          | none => 0
        else 0
      timer := if s.heatActive then some (1000 * s.tables.dispatch.period) else none
      arrivals := 0
      passMade := false } }

/-- R98: the dispatcher on ENTER_CONFIG. -/
def State.heatEnterConfig (s : State) : State := { s with heat := { s.heat with timer := none, arrivals := 0 } }

end Sys2Proof.Machine
end

