-- ==== Sys2Proof/Machine/Zones.lean ====
section
/-! DEFINITION. The zone controller (chapter 6): zone demand, the split of a ZONES grant, and the coil
and primary outputs. -/

namespace Sys2Proof.Machine

open Sys2Proof

/-- R100: a zone is in use when its temperature point is given. -/
def ZoneMapRec.inUse (r : ZoneMapRec) : Bool := r.point.given

def Tables.zoneInUse (t : Tables) (z : Nat) : Bool := decide (z < 16) && (t.zoneMap.get z).inUse

/-- The in-use zones, in ascending number. -/
def Tables.zonesInUse (t : Tables) : List Nat := (List.range 16).filter t.zoneInUse

/-- R101: the setpoint in force. -/
def ZoneSetRec.inForce (r : ZoneSetRec) : Int := if isSet r.occupied then r.occupiedSet else r.unoccupiedSet

/-- R104: the zone demand, from the value of a usable point. -/
def zoneDemand (m : ZoneMapRec) (r : ZoneSetRec) (value : Option Int) : Nat :=
  min (m.coilCapacity + m.primaryCapacity)
    (match value with
    | some t => (max 0 (r.inForce - t)).toNat * r.gain / 10
    | none => r.fallback)

/-- R107: the coil demand of a share. -/
def ZoneMapRec.coilDemand (m : ZoneMapRec) (share : Nat) : Nat := share * 1000 / m.coilCapacity

/-- R107: the primary demand of a primary part. -/
def ZoneMapRec.primaryDemand (m : ZoneMapRec) (part : Nat) : Nat := min 1000 (part * 1000 / m.primaryCapacity)

def State.setZoneRun (s : State) (z : Nat) (r : ZoneRun) : State :=
  { s with zones := { s.zones with runs := s.zones.runs.set z r } }

/-- R104: the run fields of zone `z` recomputed, the share as it stands. -/
def State.zoneRecomputed (s : State) (z : Nat) : ZoneRun :=
  let m := s.tables.zoneMap.get z
  let v := m.point.get.bind s.pointValue
  let d := zoneDemand m (s.tables.zoneSet.get z) v
  let r := s.zones.runs.get z
  { r with
    demand := d
    eligible := min d m.coilCapacity
    primaryPart := d - r.share
    primary := m.primaryDemand (d - r.share)
    fallback := v.isNone }

/-- R104, R108: the demand of zone `z` recomputed and its primary demand written. -/
def State.recomputeZone (s : State) (z : Nat) : State :=
  let r := s.zoneRecomputed z
  (s.setZoneRun z r).writeDemand (s.tables.zoneMap.get z).primary r.primary

/-- R103: a value update or a loss of use of point `p` at the zone controller. -/
def State.zonePoint (s : State) (p : Nat) : State :=
  s.asSeries ((s.tables.zonesInUse.filter fun z => (s.tables.zoneMap.get z).point.get == some p).foldl
    State.recomputeZone s)

/-- R106 step 2: the shares before the residual. -/
def floorShare (grant total offered : Nat) : Nat := if total = 0 then 0 else grant * offered / total

/-- R106 step 3: 1 kW each to the first `r` zones whose share is below their offered demand. -/
def giveResidual : Nat → List (Nat × Nat) → List Nat
  | _, [] => []
  | r, (offered, share) :: rest =>
    if 0 < r ∧ share < offered then (share + 1) :: giveResidual (r - 1) rest
    else share :: giveResidual r rest

/-- R106: the sum of the offered demands. -/
def offeredSum (o : Tab Nat 16) : Nat := o.list.sum

/-- R106: the residual of a split. -/
def splitResidual (grant : Nat) (o : Tab Nat 16) : Nat :=
  if offeredSum o = 0 then 0 else grant - (o.list.map (floorShare grant (offeredSum o))).sum

/-- R106: the shares of a split. -/
def splitShares (grant : Nat) (o : Tab Nat 16) : List Nat :=
  giveResidual (splitResidual grant o) (o.list.map fun e => (e, floorShare grant (offeredSum o) e))

/-- R106, R107: zone `z` after a split that gave it `share` of its offered demand. -/
def State.zoneSplit (s : State) (o : Tab Nat 16) (shares : List Nat) (z : Nat) : State :=
  let m := s.tables.zoneMap.get z
  let r := s.zones.runs.get z
  let share := shares.getD z 0
  let part := r.demand - share
  let r' : ZoneRun := { r with
    offered := o.get z
    share := share
    primaryPart := part
    coil := m.coilDemand share
    primary := m.primaryDemand part }
  ((s.setZoneRun z r').writeDemand m.coil (m.coilDemand share)).writeDemand m.primary
    (m.primaryDemand part)

/-- R106: the split of one delivery. -/
def State.splitGrant (s : State) (d : Delivery) : State :=
  let s := { s with zones := { s.zones with
    split := some ⟨d.grant, offeredSum d.offered, splitResidual d.grant d.offered⟩ } }
  s.asSeries (s.tables.zonesInUse.foldl (fun s z => s.zoneSplit d.offered (splitShares d.grant d.offered) z) s)

/-- R110 step 4: the parts carried stored in the zone's entry of ZONE_SET. -/
def State.storeZone (s : State) (z : Nat) (occupied : Option Bool) (occ unocc : Option Int) : State :=
  let r := s.tables.zoneSet.get z
  let r' : ZoneSetRec := { r with
    occupied := match occupied with | some b => if b then 1 else 0 | none => r.occupied
    occupiedSet := occ.getD r.occupiedSet
    unoccupiedSet := unocc.getD r.unoccupiedSet }
  { s with tables := { s.tables with zoneSet := s.tables.zoneSet.set z r' } }

/-- R110 steps 4 and 5. -/
def State.applyZone (s : State) (z : Nat) (occupied : Option Bool) (occ unocc : Option Int) : State :=
  let s := s.storeZone z occupied occ unocc
  if s.inRun ∧ s.tables.zoneInUse z then s.recomputeZone z else s

/-- R101: an accepted write of ZONE_SET in RUN. -/
def State.zoneReset (s : State) (first count : Nat) : State :=
  s.asSeries ((s.tables.zonesInUse.filter fun z => decide (first ≤ z) && decide (z < first + count)).foldl
    State.recomputeZone s)

/-- R109: a zone's run fields on entry to RUN, before its primary demand is written. -/
def zoneStart (t : Tables) (z : Nat) : ZoneRun :=
  if t.zoneInUse z then
    let m := t.zoneMap.get z
    let d := zoneDemand m (t.zoneSet.get z) none
    ⟨d, min d m.coilCapacity, 0, 0, d, (t.channels.get m.coil).start, m.primaryDemand d, true⟩
  else .initial

/-- R109: the zone controller on entry to RUN, the channel image already at its start values. -/
def State.zonesEnterRun (s : State) : State :=
  let runs : Tab ZoneRun 16 := s.zones.runs.mapIdx fun z _ => zoneStart s.tables z
  let s := { s with zones := ⟨runs, none, []⟩ }
  s.writeSeries (s.tables.zonesInUse.map fun z => ((s.tables.zoneMap.get z).primary, (runs.get z).primary))

/-- R109: the zone controller on ENTER_CONFIG; a result not yet taken is not taken outside RUN.
DEDUCED (log 8). -/
def State.zonesEnterConfig (s : State) : State := { s with zones := { s.zones with deliveries := [] } }

end Sys2Proof.Machine
end

