-- ==== Sys2Proof/Machine/Points.lean ====
section
/-! DEFINITION. The point table (chapter 1): items into points, staleness, the notices to the
consumers, and the selection of UPLINK frames (R15 to R21). -/

namespace Sys2Proof.Machine

open Sys2Proof

/-- R18: an age in ms stays where it shows 65,535 s. -/
def ageTop : Nat := 65535000

def State.setPoint (s : State) (p : Nat) (r : PointRun) : State :=
  { s with points := { s.points with runs := s.points.runs.set p r } }

/-- R19 notice 1: a value update offered to the consumers of point `p`, in the order of the table of
R19. DESIGN CHOICE (log 12): the spec gives the consumers no order. -/
def State.valueUpdate (s : State) (p : Nat) (v : Int) : State :=
  (((s.watchValue p v).fogPoint p).zonePoint p).heatArrival p

/-- R19 notice 2: a loss of use offered to the consumers of point `p`. -/
def State.lossOfUse (s : State) (p : Nat) : State := ((s.watchLoss p).fogPoint p).zonePoint p

/-- R16: the value and quality that an OK item gives. -/
def PointRec.take (r : PointRec) (v : Int) : Int × Quality :=
  if v < r.low then (r.low, .suspect) else if r.high < v then (r.high, .suspect) else (v, .good)

/-- R16: an item whose node quality is OK, applied to point `p`. -/
def State.okItem (s : State) (p : Nat) (v : Int) : State :=
  let t := (s.tables.points.get p).take v
  let r := s.points.runs.get p
  (s.setPoint p { r with value := some t.1, quality := t.2, ageMs := 0 }).valueUpdate p t.1

/-- R17, R18: a point's run fields after an item whose node quality is FAULT. A point that was NEVER
counts its age from entry to RUN; one whose age is at or above its max age becomes STALE at once. -/
def PointRec.faulted (m : PointRec) (runMs : Nat) (r : PointRun) : PointRun :=
  match r.quality with
  | .stale | .fault => r
  | .never | .good | .suspect =>
    let age := if r.quality = .never then min ageTop runMs else r.ageMs
    { r with ageMs := age, quality := if 1000 * m.maxAge ≤ age then .stale else .fault }

/-- R17: an item whose node quality is FAULT, applied to point `p`. -/
def State.faultItem (s : State) (p : Nat) : State :=
  let r := s.points.runs.get p
  let s' := s.setPoint p ((s.tables.points.get p).faulted s.points.runMs r)
  if r.quality.usable then s'.lossOfUse p else s'

/-- R15: the point whose node is `n` and whose node point index is `i`. -/
def Tables.pointOf (t : Tables) (n i : Nat) : Option Nat :=
  t.points.first fun _ r => r.mapped && r.node == n && r.index == i

/-- R15: one item of a good REPORT from node `n`. -/
def State.applyItem (s : State) (n : Nat) (item : Item) : State :=
  match s.tables.pointOf n item.index.toNat with
  | some p =>
    match item.quality with
    | .ok => s.okItem p item.value.toInt
    | .fault => s.faultItem p
  | none => s

/-- R20: the point differs from what it last sent. -/
def PointRec.selected (m : PointRec) (r : PointRun) : Bool :=
  r.sentQuality.isNone || r.sentQuality != some r.quality ||
    match r.value, r.sentValue with
    | some v, some w => decide ((m.deadband : Int) < |v - w|)
    | none, none => false
    | some _, none | none, some _ => true

/-- R20: the points an UPLINK for a REPORT of node `n` holds, in ascending number. -/
def State.uplinkPoints (s : State) (n : Nat) (items : List Item) : List Nat :=
  ((s.tables.points.zip s.points.runs).enum.filter fun e =>
    e.2.1.mapped && isSet e.2.1.forward && e.2.1.node == n &&
      (items.any fun i => i.index.toNat == e.2.1.index) && e.2.1.selected e.2.2).map Prod.fst

/-- R20, R21: what an UPLINK carries of point `p`. -/
def State.uplinkEntry (s : State) (p : Nat) : UplinkEntry :=
  let r := s.points.runs.get p
  ⟨p, r.value, r.quality⟩

/-- R20, R21: what point `p` last sent takes the values just sent. -/
def State.markSent (s : State) (p : Nat) : State :=
  let r := s.points.runs.get p
  s.setPoint p { r with sentValue := r.value, sentQuality := some r.quality }

/-- R20, R21: one UPLINK of the points, if any; they count as sent if the queue accepts it. -/
def State.sendUplink (s : State) (points : List Nat) : State :=
  if points.isEmpty then s
  else
    let o := s.offerUplink (points.map s.uplinkEntry)
    if o.2 then points.foldl State.markSent o.1 else o.1

/-- R15, R20: the items of a good REPORT from node `n`, in frame order, and the selection after them. -/
def State.takeItems (s : State) (n : Nat) (items : List Item) : State :=
  let s := items.foldl (fun s i => s.applyItem n i) s
  s.sendUplink (s.uplinkPoints n items)

/-- R18, R21: point `p` becomes STALE when its age reaches its max age. -/
def State.goStale (s : State) (p : Nat) : State :=
  let m := s.tables.points.get p
  let r := s.points.runs.get p
  if r.quality = .good ∨ r.quality = .suspect ∨ r.quality = .fault then
    let s' := s.setPoint p { r with quality := .stale, ageMs := max r.ageMs (1000 * m.maxAge) }
    let s' := if r.quality.usable then s'.lossOfUse p else s'
    if isSet m.forward then s'.sendUplink [p] else s'
  else s

end Sys2Proof.Machine
end

