-- ==== Sys2Proof/Machine/Cues.lean ====
section
/-! DEFINITION. The scene store's banks and memory port queue (chapter 7), and the cue engine's four
fade engines (chapter 8). -/

namespace Sys2Proof.Machine

open Sys2Proof

def State.bank (s : State) (b : Nat) : Bank := s.store.banks.get b

def State.engine (s : State) (b : Nat) : Engine := s.engines.get b

def State.setBank (s : State) (b : Nat) (k : Bank) : State :=
  { s with store := { s.store with banks := s.store.banks.set b k } }

def State.setEngine (s : State) (b : Nat) (e : Engine) : State := { s with engines := s.engines.set b e }

/-! ### The memory port queue (R115, R117) -/

/-- R117: the queue holds 8 operations. -/
def State.memoryFull (s : State) : Bool := decide (Config.memoryRoom ≤ s.store.queue.length)

/-- R115: an operation joins at the tail. -/
def State.joinMemory (s : State) (op : MemOp) : State :=
  { s with store := { s.store with queue := s.store.queue ++ [op] } }

/-- R115: the operation in flight leaves the head. -/
def State.leaveMemory (s : State) : State := { s with store := { s.store with queue := s.store.queue.tail } }

/-- R117: a long request cannot be accepted. -/
def State.longBarred (s : State) : Bool := s.memoryFull || decide (Config.longRoom ≤ s.longCount)

/-- R174, R179: a save is in progress. -/
def State.saving (s : State) : Bool :=
  s.store.queue.any fun op => match op with | .imageSave _ _ => true | _ => false

/-! ### Banks (R121 to R123) -/

/-- R121: an activation that finds room in the queue. -/
def State.startActivation (s : State) (b r : Nat) : State :=
  let k := s.bank b
  (s.joinMemory (.activate b r)).setBank b
    { k with state := .activating, row := some r, pairs := [], fade := 0, skipped := 0 }

/-- R122: a close of bank `b`. -/
def State.closeBank (s : State) (b : Nat) : State :=
  let k := s.bank b
  if k.state = .active then s.setBank b { k with state := .closing, settle := some Config.settleMs } else s

/-- R123: a bank become IDLE; the orphan mark is no part of it. -/
def Bank.rest (k : Bank) : Bank := { Bank.initial with orphan := k.orphan }

/-- R123: the expiry of bank `b`'s settle timer. -/
def State.settleEnds (s : State) (b : Nat) : State :=
  let s := s.setBank b (s.bank b).rest
  match (s.engine b).state, (s.engine b).row with
  | .pending, some r =>
    if s.memoryFull then (s.setEngine b .initial).raise .bankFault else s.startActivation b r
  | _, _ => s

/-- R121: the buffer after a good check: the row's pairs, but those whose channel is unmapped or not
owned by LIGHTING. -/
def Bank.load (t : Tables) (k : Bank) (row : SceneRow) : Bank :=
  let kept := row.pairs.filter fun p => t.lightingChannel p.1
  { k with
    state := .active
    pairs := kept
    fade := row.fade
    skipped := row.pairs.length - kept.length }

/-- R121: the completion of ACTIVATE(b, r), the operation already off the queue. -/
def State.activationEnds (s : State) (b r : Nat) : State :=
  let k := s.bank b
  if k.orphan then s.setBank b { k with orphan := false }
  else
    let s' := match goodRow (s.memory.rows.get (placeIndex b r)) with
      | some row => s.setBank b (Bank.load s.tables k row)
      | none => (s.setBank b k.rest).raise .bankFault
    { s' with store := { s'.store with completions := s'.store.completions ++ [b] } }

/-! ### Fades (R133 to R136) -/

/-- R128: the holding record: the engine that holds a channel, if one does. It agrees with the held
lists at every event, so it is read from them. -/
def State.holder (s : State) (ch : Nat) : Option Nat :=
  s.engines.first fun _ e => e.held.any fun h => h.channel == ch

/-- R136: the end of a fade of engine `b`. -/
def State.endFade (s : State) (b : Nat) : State :=
  let s := (s.setEngine b .initial).raise .cueDone
  if (s.bank b).releaseAfter then s.closeBank b else s

/-- R133 stage 1: the number of steps. -/
def totalSteps (fadeTime period : Nat) : Nat := (fadeTime * 100 + period - 1) / period

/-- R133 stage 3: what engine `b` takes: each pair of the buffer with the channel's demand. -/
def State.takenList (s : State) (b : Nat) : List Held :=
  (s.bank b).pairs.map fun p => ⟨p.1, (s.image.get p.1).demand, p.2⟩

/-- R133 stage 3: an engine that gives up the channels of a list of pairs. -/
def Engine.strip (e : Engine) (pairs : List (Nat × Nat)) : Engine :=
  { e with held := e.held.filter fun h => !pairs.any fun p => p.1 == h.channel }

/-- R133 stage 5: the engines other than `b` whose held list the takeover of a list of pairs empties,
in ascending number. -/
def State.strippedEngines (s : State) (b : Nat) (pairs : List (Nat × Nat)) : List Nat :=
  (s.engines.enum.filter fun e => e.1 != b && !e.2.held.isEmpty && (e.2.strip pairs).held.isEmpty).map Prod.fst

/-- R133 stages 1 to 4: engine `b` put to RUNNING from the buffer of its bank. -/
def State.takeOver (s : State) (b : Nat) : State :=
  let k := s.bank b
  let e : Engine := { s.engine b with
    state := .running
    row := k.row
    releaseAfter := false
    total := totalSteps ((s.engine b).fade.getD k.fade) s.tables.profile.period
    step := 0
    timer := none
    held := s.takenList b }
  { s with engines := (s.engines.mapIdx fun c x => if c = b then x else x.strip k.pairs).set b e }

/-- R133 stage 6: engine `b`'s first move. -/
def State.firstMove (s : State) (b : Nat) : State :=
  let e := s.engine b
  if e.held.isEmpty then s.endFade b
  else if e.total = 0 then (s.writeSeries (e.held.map fun h => (h.channel, h.target))).endFade b
  else s.setEngine b { e with timer := some s.tables.profile.period }

/-- R133: a fade start, or restart, of engine `b`. -/
def State.startFade (s : State) (b : Nat) : State :=
  ((s.strippedEngines b (s.bank b).pairs).foldl State.endFade (s.takeOver b)).firstMove b

/-- R134: the level at a step; the quotient is truncated toward zero. -/
def fadeLevel (c : Curve) (start target step total : Nat) : Nat :=
  let d := (target : Int) - start
  match c with
  | .linear | .unlisted _ => (start + (d * step).tdiv total).toNat
  | .square => (start + (d * step ^ 2).tdiv (total ^ 2)).toNat

/-- R135: the expiry of engine `b`'s step timer. -/
def State.fadeStep (s : State) (b : Nat) : State :=
  let e := s.engine b
  let n := e.step + 1
  let s' := (s.setEngine b { e with step := n, timer := some s.tables.profile.period }).writeSeries
    (e.held.map fun h => (h.channel, fadeLevel s.tables.profile.curve h.start h.target n e.total))
  if n = e.total then s'.endFade b else s'

/-! ### CUE and RELEASE_BANK (R131, R137) -/

/-- What the table of R131 does with a CUE. -/
inductive CueAction
  | restart | replace | busy | start | close | activate | wait
deriving DecidableEq, Repr

/-- R131: the row of the table that the states of engine and bank give for row `r`. A pair of states
the table does not list cannot arise, and is taken as busy: DESIGN CHOICE (log 13). -/
def cueAction (es : EngineState) (er : Option Nat) (bs : BankState) (br : Option Nat) (r : Nat) : CueAction :=
  match es with
  | .running => if er = some r then .restart else .busy
  | .pending => if er = some r then .replace else .busy
  | .free =>
    match bs with
    | .active => if br = some r then .start else .close
    | .idle => .activate
    | .closing => .wait
    | .activating => .busy

/-- R131: engine `b` put to PENDING for row `r`. -/
def State.pend (s : State) (b r : Nat) (fade : Option Nat) (rel : Bool) : State :=
  s.setEngine b { Engine.initial with state := .pending, row := some r, fade := fade, releaseAfter := rel }

/-- R131: the bank's release-after flag and the engine's fade time taken from the CUE, and the fade
started. -/
def State.cueFade (s : State) (b : Nat) (fade : Option Nat) (rel : Bool) : State :=
  let s := s.setBank b { s.bank b with releaseAfter := rel }
  (s.setEngine b { s.engine b with fade := fade }).startFade b

/-- R131: a CUE taken, with its reply. -/
def State.takeCue (s : State) (b r : Nat) (fade : Option Nat) (rel : Bool) : State × ResultCode :=
  match cueAction (s.engine b).state (s.engine b).row (s.bank b).state (s.bank b).row r with
  | .restart | .start => (s.cueFade b fade rel, .done)
  | .replace => (s.setEngine b { s.engine b with fade := fade, releaseAfter := rel }, .done)
  | .busy => (s, .bankBusy)
  | .close => ((s.closeBank b).pend b r fade rel, .accepted)
  | .activate => if s.memoryFull then (s, .busy) else ((s.startActivation b r).pend b r fade rel, .accepted)
  | .wait => (s.pend b r fade rel, .accepted)

/-- R137: a RELEASE_BANK taken, with its reply. -/
def State.takeRelease (s : State) (b : Nat) : State × ResultCode :=
  match (s.engine b).state with
  | .running => (s.setBank b { s.bank b with releaseAfter := true }, .done)
  | .pending => (s, .bankBusy)
  | .free => (s.closeBank b, .done)

/-- R132: the delivery of an activation's completion to engine `b`. -/
def State.deliverActivation (s : State) (b : Nat) : State :=
  let e := s.engine b
  match e.state, (s.bank b).state with
  | .pending, .active => (s.setBank b { s.bank b with releaseAfter := e.releaseAfter }).startFade b
  | .pending, .idle => s.setEngine b .initial
  | _, _ => s

/-- R120, R128, R140: banks and engines at rest, the orphan marks as they stand. -/
def State.restLighting (s : State) : State :=
  { s with
    store := { s.store with banks := s.store.banks.map Bank.rest, completions := [] }
    engines := .replicate 4 .initial }

/-- R127, R162: a bank is not IDLE or an engine is not FREE. -/
def State.lightingInUse (s : State) : Bool :=
  (s.store.banks.list.any fun k => k.state != .idle) || s.engines.list.any fun e => e.state != .free

/-- R124 item 1: the answers to the operations removed. -/
def State.failRemoved (s : State) (ops : List MemOp) : State :=
  ops.foldl
    (fun s op =>
      match op with
      | .rowWrite tag _ _ _ => s.place tag codeWriteTable .failed []
      | .rowRead tag _ _ => s.place tag codeReadTable .failed []
      | .imageSave tag _ => s.place tag codeSaveImage .failed []
      | .activate _ _ => s) s

/-- R124 items 1 and 2: the operations behind the one in flight removed and answered, an ACTIVATE in
flight orphaned. -/
def State.flushMemory (s : State) : State :=
  let s' := State.failRemoved { s with store := { s.store with queue := s.store.queue.take 1 } } s.store.queue.tail
  match s.store.queue.head? with
  | some (.activate b _) => s'.setBank b { s'.bank b with orphan := true }
  | _ => s'

end Sys2Proof.Machine
end

