-- ==== Sys2Proof/Machine/Brackets.lean ====
section
/-! DEFINITION. The bracket unit (chapter 9): how a stageable request meets the bracket, the stage, and
the commit in its two phases. -/

namespace Sys2Proof.Machine

open Sys2Proof

/-! ### Items and their effects -/

/-- What a stageable request does when it takes effect, with its reply (R26, R110, R131, R137). -/
def State.takeItem (s : State) : StagedReq → State × ResultCode
  | .setChannel ch v => (s.writeDemand ch v, .done)
  | .setZone z o occ unocc => (s.applyZone z o occ unocc, .done)
  | .cue b r fade rel => s.takeCue b r fade rel
  | .releaseBank b => s.takeRelease b

/-! ### The check of a commit (R152) -/

/-- R152: the working copy: engine state and row, bank state and row, of each bank, and the free places
of the memory port queue. -/
structure WorkingCopy where
  engines : Tab (EngineState × Option Nat) 4
  banks : Tab (BankState × Option Nat) 4
  free : Nat
deriving DecidableEq, Repr

def State.workingCopy (s : State) : WorkingCopy where
  engines := s.engines.map fun e => (e.state, e.row)
  banks := s.store.banks.map fun k => (k.state, k.row)
  free := Config.memoryRoom - s.store.queue.length

/-- R152: a staged CUE on the working copy; none where it fails the check. The copy is altered as R131 would alter engine
`b` and its bank; an engine that was RUNNING before the commit and whose last channel the takeover of this fade would strip
(R133 stage 5) stays RUNNING in the copy: DEDUCED (log 47). -/
def WorkingCopy.cue (w : WorkingCopy) (b r : Nat) : Option WorkingCopy :=
  let e := w.engines.get b
  let k := w.banks.get b
  match cueAction e.1 e.2 k.1 k.2 r with
  | .restart | .start => some { w with engines := w.engines.set b (.running, some r) }
  | .replace => some w
  | .busy => none
  | .close =>
    some { w with banks := w.banks.set b (.closing, k.2), engines := w.engines.set b (.pending, some r) }
  | .activate =>
    if w.free = 0 then none
    else
      some { w with
        banks := w.banks.set b (.activating, some r)
        engines := w.engines.set b (.pending, some r)
        free := w.free - 1 }
  | .wait => some { w with engines := w.engines.set b (.pending, some r) }

/-- R152: a staged RELEASE_BANK on the working copy; none where it fails the check. -/
def WorkingCopy.release (w : WorkingCopy) (b : Nat) : Option WorkingCopy :=
  match (w.engines.get b).1 with
  | .pending => none
  | .running => some w
  | .free =>
    if (w.banks.get b).1 = .active then
      some { w with banks := w.banks.set b (.closing, (w.banks.get b).2) }
    else some w

/-- R152: the check of the stage, in its order. -/
def checkStage : WorkingCopy → List StageItem → Bool
  | _, [] => true
  | w, item :: rest =>
    match item.request with
    | .setChannel _ _ | .setZone _ _ _ _ => checkStage w rest
    | .cue b r _ _ =>
      match w.cue b r with
      | some w' => checkStage w' rest
      | none => false
    | .releaseBank b =>
      match w.release b with
      | some w' => checkStage w' rest
      | none => false

/-- R152: the stage handed to the blocks, in its order, without replies of its own. An item that its block's
table then refuses has no effect: DESIGN CHOICE (log 43). -/
def State.applyStage (s : State) (stage : List StageItem) : State :=
  s.asCommit (stage.foldl (fun s i => (s.takeItem i.request).1) s)

/-- R152: the bracket left IDLE by a commit. -/
def State.bracketIdle (s : State) : State :=
  { s with bracket := { s.bracket with state := .idle, stage := [], timer := none } }

/-- R152: the commit; the answer says whether it was made or aborted with CONFLICT. `ordinal` is the
ordinal of the closing request or of the last item. -/
def State.commit (s : State) (ordinal : Nat) : State × Bool :=
  if checkStage s.workingCopy s.bracket.stage then ((s.applyStage s.bracket.stage).bracketIdle, true)
  else (s.abortBracket .conflict (some ordinal) none, false)

/-! ### Stageable requests (R144, R146, R147, R155) -/

/-- What the checks that do not depend on the moment make of a stageable request: refused with an
answer, or good, with its arguments after them and whether a value was clamped. -/
inductive Checked
  | refused (a : Answer)
  | good (r : StagedReq) (clamped : Bool)
deriving DecidableEq, Repr

/-- R146, R147: a request that passed its checks, staged in an open bracket; `o` is its ordinal. The
CLAMPED that stands in place of DONE at the last item of a COUNTED bracket carries the ordinal, as any
CLAMPED to a staged request: DEDUCED (log 14). -/
def State.stageItem (s : State) (o : Nat) (r : StagedReq) (clamped : Bool) : State × Answer :=
  if Config.stageRoom ≤ s.bracket.stage.length then
    (s.abortBracket .capacity (some o) none, .plain .aborted)
  else
    let s := { s with bracket := { s.bracket with stage := s.bracket.stage ++ [StageItem.mk o r] } }
    let staged : Answer := ⟨if clamped then .clamped else .staged, u16 o⟩
    match s.bracket.state with
    | .counted n k =>
      let s := { s with bracket := { s.bracket with state := .counted n (k + 1) } }
      if k + 1 = n then
        let c := s.commit o
        (c.1, if c.2 then (if clamped then ⟨.clamped, u16 o⟩ else .plain .done) else .plain .aborted)
      else (s, staged)
    | .idle | .opened _ | .aborted _ => (s, staged)

/-- R146: a refused request in an open bracket; `o` is its ordinal. -/
def State.refuseItem (s : State) (o : Nat) (a : Answer) : State × Answer :=
  (if s.bracket.strict then s.abortBracket .strictRefusal (some o) (some a.result) else s, a)

/-- R144: a stageable request taken by the bracket state. -/
def State.takeStageable (s : State) (c : Checked) : State × Option Answer :=
  if s.bracket.state.isOpen then
    let s := s.countOrdinal
    let o := match c with
      | .refused a => s.refuseItem s.bracket.ordinal a
      | .good r clamped => s.stageItem s.bracket.ordinal r clamped
    (o.1, some o.2)
  else
    match c with
    | .refused a => (s, some a)
    | .good r clamped =>
      match s.bracket.state with
      | .aborted _ => (s, some (.plain .aborted))
      | .idle | .opened _ | .counted _ _ =>
        let o := s.takeItem r
        (o.1, some (.plain (if clamped ∧ o.2 = .done then .clamped else o.2)))

/-- R145: OPEN_BRACKET. -/
def State.openBracket (s : State) (kind : BracketKind) (count : Nat) (strict notify : Bool) :
    State × Option Answer :=
  match s.bracket.state with
  | .idle =>
    if !s.inRun then (s, some (.plain .state))
    else if s.watch.guard = .critical then (s, some (.plain .guarded))
    else if kind = .countedKind ∧ (count < 1 ∨ 8 < count) then (s, some (.badEntry none))
    else
      ({ s with bracket := {
          state := match kind with | .openKind => .opened 1 | .countedKind => .counted count 0
          kind := kind
          strict := strict
          notify := notify
          ordinal := 0
          openMs := 0
          stage := []
          timer := some (1000 * s.tables.timers.bracketLimit)
          record := s.bracket.record } }, some (.plain .done))
  | .opened d =>
    let s := s.countOrdinal
    if kind = .countedKind then
      (s.abortBracket .restricted (some s.bracket.ordinal) none, some (.plain .aborted))
    else if Config.nestingDepth ≤ d then
      (s.abortBracket .nest (some s.bracket.ordinal) none, some (.plain .aborted))
    else ({ s with bracket := { s.bracket with state := .opened (d + 1) } }, some (.plain .done))
  | .counted _ _ =>
    let s := s.countOrdinal
    (s.abortBracket .restricted (some s.bracket.ordinal) none, some (.plain .aborted))
  | .aborted _ => (s, some (.plain .aborted))

/-- R149: CLOSE_BRACKET. -/
def State.closeBracket (s : State) : State × Option Answer :=
  match s.bracket.state with
  | .idle => (s, some (.plain .noBracket))
  | .opened d =>
    let s := s.countOrdinal
    if 1 < d then ({ s with bracket := { s.bracket with state := .opened (d - 1) } }, some (.plain .done))
    else
      let c := s.commit s.bracket.ordinal
      (c.1, some (.plain (if c.2 then .done else .aborted)))
  | .counted _ _ =>
    let s := s.countOrdinal
    (s.abortBracket .restricted (some s.bracket.ordinal) none, some (.plain .aborted))
  | .aborted r =>
    ({ s with bracket := { s.bracket with state := if r ≤ 1 then .idle else .aborted (r - 1) } },
      some (.plain .aborted))

/-- R150: ABANDON_BRACKET. -/
def State.abandonBracket (s : State) : State × Option Answer :=
  match s.bracket.state with
  | .idle => (s, some (.plain .noBracket))
  | .opened _ | .counted _ _ =>
    let s := s.countOrdinal
    (s.abortBracket .abandoned (some s.bracket.ordinal) none, some (.plain .done))
  | .aborted _ => ({ s with bracket := { s.bracket with state := .idle } }, some (.plain .done))

/-- R143: the bracket on entry to RUN; the abort record is kept. -/
def State.bracketEnterRun (s : State) : State :=
  { s with bracket := { s.bracket with state := .idle, stage := [], timer := none, ordinal := 0 } }

end Sys2Proof.Machine
end

