-- ==== Sys2Proof/Machine/Validate.lean ====
section
/-! DEFINITION. RUN validation (R178): each table by the checks of its own chapter, in the order of
R178, and the channel references of R24. A check answers the first entry that fails. A named value's
byte that a rule's list of failing cases does not mention fails nothing there: DESIGN CHOICE (log 4). -/

namespace Sys2Proof.Machine

open Sys2Proof

/-- A presence byte or a flag byte holds one of the two values R173 lists. -/
def twoValued (b : Byte) : Bool := b == 0 || b == 1

def within (lo hi n : Nat) : Bool := decide (lo ≤ n) && decide (n ≤ hi)

def withinInt (lo hi z : Int) : Bool := decide (lo ≤ z) && decide (z ≤ hi)

/-! ### NODES, POINTS, CHANNELS, SCHEDULE -/

/-- R2. -/
def Tables.nodeFails (t : Tables) (i : Nat) (r : NodeRec) : Bool :=
  r.present &&
    (!within 1 62 r.address ||
      ((t.nodes.list.take i).any fun e => e.present && e.address == r.address) ||
      !within 1 15 r.silent || !within r.silent 15 r.offline ||
      (r.takesSet && !within 1 60 r.refresh))

/-- R13. -/
def Tables.pointFails (t : Tables) (i : Nat) (r : PointRec) : Bool :=
  r.mapped &&
    ((match t.nodeOf r.node with
      | none => true
      | some n => n.kind == .actuator) ||
      ((t.points.list.take i).any fun e => e.mapped && e.node == r.node && e.index == r.index) ||
      decide (r.high < r.low) || !within 1 600 r.maxAge || !within 0 1000 r.deadband)

/-- R23. -/
def Tables.channelFails (t : Tables) (i : Nat) (r : ChannelRec) : Bool :=
  r.mapped &&
    ((match t.nodeOf r.node with
      | none => true
      | some n => n.kind == .sensor) ||
      !within 0 15 r.nodeChannel ||
      ((t.channels.list.take i).any fun e => e.mapped && e.node == r.node && e.nodeChannel == r.nodeChannel) ||
      decide (r.ceiling < r.floor) || decide (1000 < r.ceiling) ||
      decide (r.warmCap < r.criticalCap) || decide (1000 < r.warmCap) || decide (1000 < r.start))

/-- R6 cases 3 and 4, of one slot. -/
def Tables.slotFails (t : Tables) (r : SlotRec) : Bool :=
  match r.kind with
  | .poll =>
    match t.nodeOf r.address with
    | none => true
    | some n => n.kind == .actuator
  | .set =>
    match t.nodeOf r.address with
    | none => true
    | some n => n.kind == .sensor
  | .free | .unlisted _ => false

/-- R6: the entry index at which SCHEDULE fails, case by case in the order of its list. A POLL slot that fails is
thus named before a lower-numbered SET slot that fails: DESIGN CHOICE (log 11). -/
def Tables.scheduleFailure (t : Tables) : Option Nat :=
  let h := t.scheduleHead
  let slots := t.slots.list.take h.slotCount
  if !within 1 128 h.slotCount then some 0
  else if !within 0 3 h.bitRate || !within 2 100 h.replyTimeout then some 0
  else
    match firstFrom (fun _ r => r.kind == .poll && t.slotFails r) 1 slots with
    | some i => some i
    | none =>
      match firstFrom (fun _ r => r.kind == .set && t.slotFails r) 1 slots with
      | some i => some i
      | none => if slots.any fun r => r.kind == .poll || r.kind == .set then none else some 0

/-! ### WATCH -/

/-- R40, R42 case 5: an OUTSIDE entry whose clearing band would be empty. -/
def WatchRec.bandEmpty (r : WatchRec) (thresholds : Tab Int 32) : Bool :=
  r.compare == .outside &&
    decide (thresholds.get r.highThreshold - r.hysteresis < thresholds.get r.threshold + r.hysteresis)

/-- R42 cases 3 to 5, and case 7 for the fields of the input, of an unchained in-use entry. -/
def Tables.watchInputFails (t : Tables) (r : WatchRec) : Bool :=
  !(t.points.get r.point.value).mapped || !decide (r.point.value < 256) ||
    !within 0 31 r.threshold || (r.compare == .outside && !within 0 31 r.highThreshold) ||
    r.bandEmpty t.thresholds ||
    (match r.compare with | .unlisted _ => true | _ => false) ||
    (match r.stale with | .unlisted _ => true | _ => false) || !twoValued r.point.present

/-- R42 case 7: a field the entry's mode reads is out of range. -/
def WatchRec.modeFails (r : WatchRec) : Bool :=
  (match r.mode with
  | .delay =>
    !within 0 3600 r.qualify || !within 0 3600 r.release ||
      (match r.edge with | .unlisted _ => true | _ => false)
  | .pulse => !within 1 3600 r.hold
  | .rate | .count => !within 10 86400 r.window || !within 1 255 r.limit
  | .unlisted _ => true) ||
    (match r.severity with | .unlisted _ => true | _ => false) || !twoValued r.latch || !twoValued r.chain

/-- R42. Case 6, the hysteresis, concerns every in-use entry, a chained one too. -/
def Tables.watchFails (t : Tables) (k : Nat) (r : WatchRec) : Bool :=
  (isSet r.chain && k == 31) ||
    (isSet r.chain && ((t.watch.get (k + 1)).mode != .count || !t.watchInUse k)) ||
    (t.watchInUse k && ((!t.chained k && t.watchInputFails r) || !within 0 1000 r.hysteresis || r.modeFails))

/-! ### Channel references (R24) -/

/-- R24: the reference names a mapped channel of this owner that no reference before it names. -/
def Tables.refGood (t : Tables) (owner : Owner) (earlier : List Nat) (ch : Nat) : Bool :=
  decide (ch < 512) && (t.channels.get ch).mapped && (t.channels.get ch).owner == owner && !earlier.contains ch

/-- The motor channel's reference. -/
def Tables.motorRefs (t : Tables) : List Nat := t.motor.get.toList

/-- The fan references of the in-use stations of a list. -/
def Tables.fanRefs (t : Tables) (stations : List Nat) : List Nat :=
  (stations.filter t.stationInUse).filterMap fun i => (t.fogTune.get i).fan.get

/-- The valve references of the in-use sinks of a list. -/
def Tables.valveRefs (t : Tables) (sinks : List Nat) : List Nat :=
  (sinks.filter t.sinkInUse).filterMap fun i => (t.sinkMap.get i).valve.get

/-- The coil and primary references of the in-use zones of a list. -/
def Tables.zoneRefs (t : Tables) (zones : List Nat) : List Nat :=
  (zones.filter t.zoneInUse).flatMap fun z => [(t.zoneMap.get z).coil, (t.zoneMap.get z).primary]

/-- A reference that is not given fails nothing. -/
def Tables.optRefGood (t : Tables) (owner : Owner) (earlier : List Nat) (ch : Option Nat) : Bool :=
  match ch with
  | some ch => t.refGood owner earlier ch
  | none => true

/-! ### FOG_MAP, SATURATION, FOG_TUNE -/

/-- The point is mapped and of this unit kind. -/
def Tables.pointIs (t : Tables) (u : UnitKind) (p : Option Nat) : Bool :=
  match p with
  | some p => decide (p < 256) && (t.points.get p).mapped && (t.points.get p).unitKind == u
  | none => false

/-- R63, of a station entry. -/
def Tables.stationFails (t : Tables) (r : FogMapRec) : Bool :=
  if r.inUse then
    !t.pointIs .rh r.humidity.get || !t.pointIs .temp r.air.get || !t.pointIs .temp r.chill.get ||
      r.air.get == r.chill.get
  else r.humidity.given || r.air.given || r.chill.given

/-- R63: the entry at which FOG_MAP fails. -/
def Tables.fogMapFailure (t : Tables) : Option Nat :=
  match t.fogMap.first fun _ r => t.stationFails r with
  | some i => some i
  | none => if t.optRefGood .fog [] t.motor.get then none else some 8

/-- R62: the index at which SATURATION fails. -/
def saturationFailure : Nat → List Nat → Option Nat
  | _, [] => none
  | i, [a] => if within 1 16777215 a then none else some i
  | i, a :: b :: rest => if within 1 16777215 a && decide (a < b) then saturationFailure (i + 1) (b :: rest) else some i

/-- R64: a field of a station's tune entry is out of range. -/
def FogTuneRec.outOfRange (r : FogTuneRec) : Bool :=
  !withinInt (-100) 300 r.warn || !withinInt (-100) r.warn r.risk || !within 0 50 r.hysteresis ||
    !within 0 4000 r.watchDemand || !within 0 4000 r.riskDemand || !twoValued r.fan.present ||
    !within 0 1000 r.fanLevel || !within 1 60 r.period

/-- R64: entry 8 is out of range. -/
def DehumidTimes.outOfRange (r : DehumidTimes) : Bool :=
  !within 60 3600 r.minRun || !within 60 3600 r.minRest

/-- R64: the tune entry of an in-use station fails; `earlier` are the references checked before it. -/
def Tables.tuneFails (t : Tables) (earlier : List Nat) (r : FogTuneRec) : Bool :=
  r.outOfRange || !t.optRefGood .fog earlier r.fan.get

/-- R64: the entry at which FOG_TUNE fails. -/
def Tables.fogTuneFailure (t : Tables) : Option Nat :=
  match t.fogTune.first fun i r =>
      t.stationInUse i && t.tuneFails (t.motorRefs ++ t.fanRefs (List.range i)) r with
  | some i => some i
  | none => if t.dehumid.outOfRange then some 8 else none

/-- R64: the lowest entry at which a write of FOG_TUNE in RUN fails, the table as it would stand; the
fan channels of the stations it did not write are named before its own. -/
def Tables.fogTuneWriteFailure (t : Tables) (first count : Nat) : Option Nat :=
  let written := fun i => decide (first ≤ i) && decide (i < first + count)
  let others := (List.range 8).filter fun i => !written i
  match t.fogTune.first fun i r =>
      written i && t.stationInUse i &&
        t.tuneFails (t.motorRefs ++ t.fanRefs others ++ t.fanRefs ((List.range i).filter written)) r with
  | some i => some i
  | none => if written 8 && t.dehumid.outOfRange then some 8 else none

/-! ### SINK_MAP, DISPATCH, SINK_TUNE -/

/-- R83. -/
def Tables.sinkFails (t : Tables) (i : Nat) (r : SinkMapRec) : Bool :=
  r.inUse &&
    (!within 1 4000 r.capacity ||
      ((r.kind == .zones || r.kind == .dehumid) && (t.sinkMap.list.take i).any fun e => e.kind == r.kind) ||
      (r.kind == .proportional && !t.pointIs .temp (some r.input)) ||
      !t.optRefGood .dispatch
        (t.motorRefs ++ t.fanRefs (List.range 8) ++ t.valveRefs (List.range i)) r.valve.get)

/-- R81. -/
def Tables.dispatchFails (t : Tables) (r : DispatchRec) : Bool :=
  !t.pointIs .flow r.flow.get || !t.pointIs .temp r.supply.get || !t.pointIs .temp r.ret.get ||
    r.supply.get == r.ret.get || !within 1000 5000 r.factor || !within 5 120 r.period ||
    (r.trigger == .arrivals && !within 1 16 r.arrivalCount)

/-- R84: a field the sink's kind reads is out of range. -/
def Tables.sinkTuneFails (t : Tables) (i : Nat) (r : SinkTuneRec) : Bool :=
  t.sinkInUse i &&
    (!within 0 3 r.sinkClass || !within 1 15 r.weight || !within 1 1000 r.slew ||
      ((t.sinkMap.get i).kind == .proportional &&
        (!withinInt (-400) 600 r.setpoint || !within 0 200 r.gain)) ||
      ((t.sinkMap.get i).kind == .fixed && !within 0 4000 r.fixedDemand))

/-! ### ZONE_MAP, ZONE_SET -/

/-- R100. -/
def Tables.zoneFails (t : Tables) (z : Nat) (r : ZoneMapRec) : Bool :=
  let earlier := t.motorRefs ++ t.fanRefs (List.range 8) ++ t.valveRefs (List.range 8) ++ t.zoneRefs (List.range z)
  r.inUse &&
    (!t.pointIs .temp r.point.get || !within 1 2000 r.coilCapacity || !within 1 2000 r.primaryCapacity ||
      !t.refGood .zones earlier r.coil || !t.refGood .zones (r.coil :: earlier) r.primary ||
      (isSet r.iceAdjacent &&
        !(isSet (t.channels.get r.coil).heatBearing && isSet (t.channels.get r.primary).heatBearing)))

/-- R101. -/
def Tables.zoneSetFails (t : Tables) (z : Nat) (r : ZoneSetRec) : Bool :=
  t.zoneInUse z &&
    (!withinInt (-400) 600 r.occupiedSet || !withinInt (-400) 600 r.unoccupiedSet || !twoValued r.occupied ||
      !within 0 200 r.gain || !within 0 4000 r.fallback)

/-! ### TIMERS, LIGHT_PROFILE -/

/-- R163. -/
def TimersRec.outOfRange (r : TimersRec) : Bool := !within 1 600 r.bracketLimit || !within 1 60 r.silenceLimit

/-- R127. -/
def ProfileRec.outOfRange (r : ProfileRec) : Bool :=
  !(r.period == 10 || r.period == 20 || r.period == 50) || !(r.curve == .linear || r.curve == .square)

/-! ### The order of R178 -/

/-- R178: the first failure of RUN validation, as its table and entry. -/
def Tables.validate (t : Tables) : Option (TableId × Nat) :=
  [ (t.nodes.first t.nodeFails).map (TableId.nodes, ·),
    (t.points.first t.pointFails).map (TableId.points, ·),
    (t.channels.first t.channelFails).map (TableId.channels, ·),
    t.scheduleFailure.map (TableId.schedule, ·),
    (t.watch.first t.watchFails).map (TableId.watch, ·),
    t.fogMapFailure.map (TableId.fogMap, ·),
    (if t.stationsInUse.isEmpty then none else saturationFailure 0 t.saturation.list).map (TableId.saturation, ·),
    t.fogTuneFailure.map (TableId.fogTune, ·),
    (t.sinkMap.first t.sinkFails).map (TableId.sinkMap, ·),
    (if t.sinksInUse.isEmpty then none
      else if t.dispatchFails t.dispatch then some (TableId.dispatch, 0) else none),
    (t.sinkTune.first t.sinkTuneFails).map (TableId.sinkTune, ·),
    (t.zoneMap.first t.zoneFails).map (TableId.zoneMap, ·),
    (t.zoneSet.first t.zoneSetFails).map (TableId.zoneSet, ·),
    (if t.timers.outOfRange then some (TableId.timers, 0) else none),
    (if t.profile.outOfRange then some (TableId.lightProfile, 0) else none) ].findSome? id

end Sys2Proof.Machine
end

