-- ==== Sys2Proof/Machine/Report.lean ====
section
/-! DEFINITION. What the host reads: the information structure, the data of READ_STATUS, the entries of
the read-only tables, and the data of a READ_TABLE reply; and the bytes of the frames the part sends on
either link (R20, R37, R60, R80, R99, R112, R126, R141, R157, R161, R165, R166, R172, R173). -/

namespace Sys2Proof.Machine

open Sys2Proof

/-! ### The information structure (R165, R172) -/

/-- R172: one tuple: kind, length, content. -/
def tuple (kind : Nat) (content : List Byte) : List Byte := u8 kind ++ u8 content.length ++ content

/-- R165: "SHELDRA" and "SA2640", each padded to 8 bytes, and the revision letter "C". -/
def identity : List Byte :=
  [0x53, 0x48, 0x45, 0x4C, 0x44, 0x52, 0x41, 0x00] ++ [0x53, 0x41, 0x32, 0x36, 0x34, 0x30, 0x00, 0x00] ++ [0x43]

/-- R165, R172. -/
def infoStructure : List Byte :=
  tuple 1 identity ++ tuple 2 (Config.capacities.flatMap u16) ++ tuple 3 (u8 Config.formatVersion) ++ tuple 0 []

/-! ### Bytes of named states (R173 point 2) -/

def OpState.code : OpState → Nat
  | .loading => 0 | .config => 1 | .run => 2

/-- R174: NOT_LOADED, VALID, INVALID. -/
def ImageStatus.code : ImageStatus → Nat
  | .notLoaded => 0 | .valid => 1 | .invalid _ => 2

/-- R174: NO_SIGNATURE, FORMAT, LENGTH, CHECK, VALIDATION. -/
def ImageReason.code : ImageReason → Nat
  | .noSignature => 0 | .format => 1 | .length => 2 | .check => 3 | .validation _ _ => 4

def ResetCause.code : ResetCause → Nat
  | .power => 0 | .pin => 1 | .soft => 2

def NodeState.code : NodeState → Nat
  | .unknown => 0 | .online => 1 | .silent => 2 | .offline => 3

def JoinReason.code : JoinReason → Nat
  | .start => 0 | .value => 1 | .refresh => 2

def WatchState.code : WatchState → Nat
  | .idle => 0 | .qualifying => 1 | .tripped => 2 | .releasing => 3 | .latched => 4

def FogState.code : FogState → Nat
  | .unknown => 0 | .clear => 1 | .watch => 2 | .risk => 3

def DehumidState.code : DehumidState → Nat
  | .off => 0 | .running => 1 | .resting => 2

def BankState.code : BankState → Nat
  | .idle => 0 | .activating => 1 | .active => 2 | .closing => 3

def EngineState.code : EngineState → Nat
  | .free => 0 | .pending => 1 | .running => 2

def BracketState.code : BracketState → Nat
  | .idle => 0 | .opened _ => 1 | .counted _ _ => 2 | .aborted _ => 3

/-- R115, in the order of its table. -/
def MemOp.code : MemOp → Nat
  | .activate _ _ => 0 | .rowWrite _ _ _ _ => 1 | .rowRead _ _ _ => 2 | .imageSave _ _ => 3

/-! ### The abort record (R172) -/

/-- R172: the 11 bytes of an abort record. -/
def AbortRecord.bytes (r : AbortRecord) : List Byte :=
  u8 r.code.code ++ u8 (BracketKind.code r.kind) ++ u8 r.depth ++ u8 r.stagedCount ++
    u8 ((if r.ordinal.isSome then 1 else 0) + if r.refusal.isSome then 2 else 0) ++ u16 (r.ordinal.getD 0) ++
    u8 ((r.refusal.map ResultCode.code).getD 0) ++ u8 r.guard.code ++ u16 r.duration

/-- R172: an abort record behind its presence byte, all zero when absent. -/
def recordField (r : Option AbortRecord) : List Byte := optField 11 AbortRecord.bytes r

/-! ### READ_STATUS (R166) -/

/-- R166 item 1. -/
def ImageStatus.bytes (i : ImageStatus) : List Byte :=
  u8 i.code ++
    match i with
    | .invalid r =>
      opt8 (some r.code) ++
        match r with
        | .validation id e => opt8 (some id.code) ++ opt16 (some e)
        | .noSignature | .format | .length | .check => opt8 none ++ opt16 none
    | .notLoaded | .valid => opt8 none ++ opt8 none ++ opt16 none

/-- R32: one place of the urgent queue. -/
def UrgentEntry.bytes (e : UrgentEntry) : List Byte := u16 e.address ++ u8 e.reason.code

/-- R157: the bracket state with its depth, its n and k, or its residual. -/
def BracketState.bytes (b : BracketState) : List Byte :=
  u8 b.code ++
    match b with
    | .idle => opt16 none ++ opt16 none ++ opt16 none ++ opt16 none
    | .opened d => opt16 (some d) ++ opt16 none ++ opt16 none ++ opt16 none
    | .counted n k => opt16 none ++ opt16 (some n) ++ opt16 (some k) ++ opt16 none
    | .aborted r => opt16 none ++ opt16 none ++ opt16 none ++ opt16 (some r)

/-- R157: the bracket summary. -/
def BracketUnit.bytes (b : BracketUnit) : List Byte :=
  b.state.bytes ++ u8 (BracketKind.code b.kind) ++ flag b.strict ++ flag b.notify ++ u16 b.stage.length ++ u16 b.ordinal ++
    opt16 (b.timer.map remainingSeconds)

/-- R158: the five trunk counters. -/
def Counters.bytes (c : Counters) : List Byte :=
  u16 c.goodFrames ++ u16 c.checkErrors ++ u16 c.requestsDropped ++ u16 c.uplinksDropped ++ u16 c.noticesDropped

/-- R166 item 6: each bank with its engine. -/
def State.bankStates (s : State) : List Byte :=
  (s.store.banks.zip s.engines).list.flatMap fun p => u8 p.1.state.code ++ u8 p.2.state.code

/-- R166: the eight items, in their order. DESIGN CHOICE (log 15) for the fields R173 leaves to choice. The length of
the urgent queue (R32) is the one count byte of its list: DESIGN CHOICE (log 41). -/
def State.statusBytes (s : State) : List Byte :=
  (u8 s.loader.op.code ++ s.loader.image.bytes ++ u8 s.power.cause.code) ++
    (u16 s.trunk.flags.toNat ++ u16 s.tables.enables.toNat ++ flag s.attn) ++
    (u16 s.seg.slotPos ++ u16 s.seg.checkErrors ++ u8 s.seg.urgent.length ++
      s.seg.urgent.flatMap UrgentEntry.bytes) ++
    u8 s.watch.guard.code ++
    (u16 s.heat.available ++ flag s.heat.blind) ++
    (s.bankStates ++ u16 s.store.queue.length) ++
    s.bracket.bytes ++
    (s.trunk.counters.bytes ++ u16 s.longCount ++ u16 s.trunk.replies.length ++ u16 s.trunk.reports.length)

/-! ### Read-only tables, entry by entry -/

/-- R3, R37. -/
def NodeRun.bytes (r : NodeRun) : List Byte :=
  u8 r.state.code ++ u16 r.misses ++ u16 r.lastSetMs ++ flag r.lapse

/-- R14. -/
def PointRun.bytes (r : PointRun) : List Byte :=
  optS16 r.value ++ u8 r.quality.code ++ u16 (wholeSeconds r.ageMs) ++ optS16 r.sentValue ++
    opt8 (r.sentQuality.map Quality.code)

/-- R37: the capped mark. -/
def capped (m : ChannelRec) (r : ChannelRun) : Bool :=
  m.mapped && isSet m.heatBearing && decide (r.commanded < m.commandedFor .normal r.demand)

/-- R37. -/
def channelEntry (m : ChannelRec) (r : ChannelRun) : List Byte :=
  u16 r.demand ++ u16 r.commanded ++ flag (capped m r)

/-- R60: entry 0 is the guard level, entry k + 1 watch entry k. -/
def State.watchReport (s : State) (i : Nat) : List Byte :=
  if i = 0 then u8 s.watch.guard.code
  else
    let r := s.watch.runs.get (i - 1)
    flag (s.tables.watchInUse (i - 1)) ++ u8 r.state.code ++ flag r.cond ++ u16 r.count ++
      opt32 (r.timer.map remainingSeconds) ++ flag r.lost

/-- R80: the remaining time of the dehumidifier's running timer. -/
def FogUnit.timer (f : FogUnit) : Option Nat := f.runTimer.or f.restTimer

/-- R80: entries 0 to 7 are the stations, entry 8 the dehumidifier and the published record. -/
def State.fogReport (s : State) (i : Nat) : List Byte :=
  if i < 8 then
    let r := s.fog.stations.get i
    flag (s.tables.stationInUse i) ++ u8 r.state.code ++ optS16 r.dewPoint ++ optS16 r.margin ++ flag r.lowE ++
      flag r.highE ++ u16 r.step
  else
    u8 s.fog.unitState.code ++ opt16 (s.fog.timer.map remainingSeconds) ++ flag s.fog.served ++
      u16 s.fog.demand ++ flag s.fog.promotion

/-- R85: the effective class of a sink not in use is reported as its class, which is the one SINK_TUNE holds when the
request is taken, and not the one of the last published result: DESIGN CHOICE (log 40). -/
def State.reportedClass (s : State) (i : Nat) : Nat :=
  if s.tables.sinkInUse i then (s.heat.sinks.get i).effClass else (s.tables.sinkTune.get i).sinkClass

/-- R99: entry 0 is H, BLIND and the age, entries 1 to 8 the sinks, entry 9 the trigger state. -/
def State.dispatchReport (s : State) (i : Nat) : List Byte :=
  if i = 0 then u16 s.heat.available ++ flag s.heat.blind ++ u16 (wholeSeconds s.heat.ageMs)
  else if i < 9 then
    let r := s.heat.sinks.get (i - 1)
    flag (s.tables.sinkInUse (i - 1)) ++ [(s.tables.sinkMap.get (i - 1)).kind.byte] ++ u16 r.demand ++
      u16 (s.reportedClass (i - 1)) ++ u16 r.grant ++ u16 r.target ++ u16 (s.heat.valves.get (i - 1))
  else opt16 (s.heat.timer.map remainingSeconds) ++ u16 s.heat.arrivals

/-- R112: one zone. -/
def State.zoneEntry (s : State) (z : Nat) : List Byte :=
  let r := s.zones.runs.get z
  flag (s.tables.zoneInUse z) ++ flag (isSet (s.tables.zoneSet.get z).occupied) ++ u16 r.demand ++
    u16 r.eligible ++ u16 r.offered ++ u16 r.share ++ u16 r.primaryPart ++ u16 r.coil ++ u16 r.primary ++
    flag r.fallback

/-- R112: the split record. -/
def splitField (p : Option Split) : List Byte :=
  optField 6 (fun p => u16 p.grant ++ u16 p.offeredSum ++ u16 p.residual) p

/-- R112: entries 0 to 15 are the zones, entry 16 the split record. -/
def State.zoneReport (s : State) (i : Nat) : List Byte :=
  if i < 16 then s.zoneEntry i else splitField s.zones.split

/-- R126: one bank. -/
def Bank.bytes (k : Bank) : List Byte :=
  u8 k.state.code ++ opt16 k.row ++ u16 k.pairs.length ++ u16 k.skipped ++ u16 k.fade ++ flag k.releaseAfter ++
    opt16 k.settle ++ flag k.orphan

/-- R141: one fade engine. -/
def Engine.bytes (e : Engine) : List Byte :=
  u8 e.state.code ++ opt16 e.row ++ opt16 e.fade ++ flag e.releaseAfter ++ u16 e.total ++ u16 e.step ++
    opt16 e.timer ++ u16 e.held.length

/-- R126: the bank and row of an operation that has them. -/
def MemOp.place : MemOp → Option (Nat × Nat)
  | .activate b r => some (b, r)
  | .rowWrite _ b r _ => some (b, r)
  | .rowRead _ b r => some (b, r)
  | .imageSave _ _ => none

/-- R126: one operation, `k` being its place in the queue. -/
def MemOp.bytes (k : Nat) (op : MemOp) : List Byte :=
  u8 op.code ++ opt16 (op.place.map Prod.fst) ++ opt16 (op.place.map Prod.snd) ++ flag (k == 0)

/-- R126: the memory port queue, its length first, in the one byte that numbers the items of its list: DESIGN
CHOICE (log 41). -/
def queueBytes (q : List MemOp) : List Byte := u8 q.length ++ (mapFrom MemOp.bytes 0 q).flatten

/-- R126, R141: entries 0 to 3 are the banks, 4 to 7 the engines, entry 8 the memory port queue. -/
def State.bankReport (s : State) (i : Nat) : List Byte :=
  if i < 4 then (s.bank i).bytes else if i < 8 then (s.engine (i - 4)).bytes else queueBytes s.store.queue

/-- R161: entry `i` of a table as its owner holds it when the request is taken. The entry numbers of the
read-only tables: DESIGN CHOICE (log 9). -/
def State.tableEntry (s : State) (id : TableId) (i : Nat) : List Byte :=
  match id with
  | .info => infoStructure
  | .nodeState => (s.seg.nodes.get i).bytes
  | .pointValues => (s.points.runs.get i).bytes
  | .channelValues => channelEntry (s.tables.channels.get i) (s.image.get i)
  | .watchState => s.watchReport i
  | .fogResult => s.fogReport i
  | .dispatchResult => s.dispatchReport i
  | .zoneResult => s.zoneReport i
  | .bankState => s.bankReport i
  | .abortRecord => recordField s.bracket.record
  | .nodes | .points | .watch | .saturation | .fogMap | .sinkMap | .zoneMap | .channels | .schedule
  | .thresholds | .fogTune | .sinkTune | .dispatch | .zoneSet | .timers | .flagEnables
  | .lightProfile => s.tables.entry id i
  | .scenes => []

/-! ### READ_TABLE (R161, R172) -/

/-- R161: how many of the entries fit, each whole, in the room. -/
def entriesThatFit (room : Nat) : List (List Byte) → Nat
  | [] => 0
  | e :: rest => if e.length ≤ room then entriesThatFit (room - e.length) rest + 1 else 0

/-- R161: the room for entries in a reply body: 1,023 bytes less tag, request code, result code and the
eight bytes before the entries. -/
def entryRoom : Nat := Config.replyBody - 3 - 8

/-- R172: the data of a READ_TABLE reply: table, first entry, number of entries carried, continuation
mark, next entry, entries. The next entry is 0 without a continuation: DESIGN CHOICE (log 15). -/
def tableData (id : TableId) (first : Nat) (entries : List (List Byte)) : List Byte :=
  let n := entriesThatFit entryRoom entries
  let more := decide (n < entries.length)
  u8 id.code ++ u16 first ++ u16 n ++ flag more ++ u16 (if more then first + n else 0) ++ (entries.take n).flatten

/-- R161: the data of a READ_TABLE on a run of entries. -/
def State.readRun (s : State) (id : TableId) (first count : Nat) : List Byte :=
  tableData id first ((List.range (runCount id first count)).map fun k => s.tableEntry id (first + k))

/-- R119, R172: the data of a READ_TABLE on SCENES. -/
def rowData (bank row : Nat) (content : List Byte) : List Byte :=
  u8 TableId.scenes.code ++ u16 (256 * bank + row) ++ u16 1 ++ flag false ++ u16 0 ++ content

/-! ### Frames the part sends (R172) -/

/-- R172: a reply body. -/
def Reply.body (r : Reply) : List Byte := [r.tag, r.code] ++ u8 r.result.code ++ r.data

/-- R172: one entry of an UPLINK. -/
def UplinkEntry.bytes (e : UplinkEntry) : List Byte :=
  u16 e.point ++ s16 (e.value.getD 0) ++ u8 (e.quality.code + if e.value.isSome then 0 else 128)

/-- R172: the kind and the body of a report or notice. -/
def Report.kindAndBody : Report → Nat × List Byte
  | .uplink es => (3, u8 es.length ++ es.flatMap UplinkEntry.bytes)
  | .notice f e r => (4, u16 f.toNat ++ u16 e.toNat ++ recordField r)

/-- R167, R172: the frame the transmitter is sending, as the host receives it. -/
def State.frameOnTrunk (s : State) : Option (List Byte) :=
  match s.trunk.sending with
  | .idle => none
  | .reply => s.trunk.replies.head?.map fun r => trunkFrame 2 r.body
  | .report => s.trunk.reports.head?.map fun r => trunkFrame r.kindAndBody.1 r.kindAndBody.2

/-- R172: a POLL frame. -/
def pollFrame (n : Nat) : List Byte := closeFrame (u8 n ++ [0x10, 0x00])

/-- R172: a SET frame. -/
def setFrame (n : Nat) (pairs : List (Nat × Nat)) : List Byte :=
  closeFrame (u8 n ++ [0x12] ++ u8 pairs.length ++ pairs.flatMap fun p => u8 p.1 ++ u16 p.2)

/-- R1, R172: the frame the segment master is sending; outside a transmission it keeps the line released. -/
def State.frameOnField (s : State) : Option (List Byte) :=
  match s.seg.phase with
  | .sendingPoll n => some (pollFrame n)
  | .sendingSet n pairs => some (setFrame n pairs)
  | .silent | .held _ _ | .awaiting _ => none

/-- R1: the field bit rate taken on entry to RUN, in bit/s. -/
def fieldRate (code : Nat) : Nat :=
  match code with
  | 0 => 38400
  | 1 => 115200
  | 2 => 250000
  | _ => 500000

/-- R175: the trunk bit rate the RATE straps give, in bit/s. -/
def Straps.trunkRate (s : Straps) : Nat :=
  match s.rate1, s.rate0 with
  | false, false => 19200
  | false, true => 57600
  | true, false => 115200
  | true, true => 460800

end Sys2Proof.Machine
end

