-- ==== Sys2Proof/Machine/TableRequests.lean ====
section
/-! DEFINITION. READ_TABLE and WRITE_TABLE: the checks in their order, the tables stored in CONFIG with the
run values they reset, the tunable tables in RUN, and the scene library (R40, R56, R64, R75, R82, R84,
R101, R118, R119, R127, R161 to R163). -/

namespace Sys2Proof.Machine

open Sys2Proof

/-- Entry `i` stands in the run of `n` entries from `first`. -/
def inWrite (first n i : Nat) : Bool := decide (first ≤ i) && decide (i < first + n)

/-! ### Scene rows (R118, R119) -/

/-- R119: a READ_TABLE on SCENES. -/
def State.readRow (s : State) (tag : Byte) (bank row : Nat) : State × Option Answer :=
  if !sceneInRange bank row then (s, some (.badEntry none))
  else if s.longBarred then (s, some (.plain .busy))
  else (s.joinMemory (.rowRead tag bank row), none)

/-- R118 checks 3 and 4: the content is not well formed, or a pair names a channel that is not a mapped
channel of owner LIGHTING. The order of the faults of one content: DESIGN CHOICE (log 16). -/
def Tables.rowRefusal (t : Tables) (content : List Byte) : Option Answer :=
  match SceneRow.ofBytes content with
  | none => some (.badEntry none)
  | some r =>
    if 48 < r.count then some (.badEntry none)
    else
      match r.badPair with
      | some i => some (.badEntry (some i))
      | none =>
        if 6000 < r.fade then some (.badEntry none)
        else (firstFrom (fun _ p => !t.lightingChannel p.1) 0 r.pairs).map fun i => .badEntry (some i)

/-- R118 check 5: the row is the active row of a bank that is ACTIVATING or ACTIVE. -/
def State.rowActive (s : State) (bank row : Nat) : Bool :=
  (s.bank bank).row == some row && ((s.bank bank).state == .activating || (s.bank bank).state == .active)

/-- R118 checks 2 to 7: a WRITE_TABLE on SCENES. -/
def State.writeRow (s : State) (tag : Byte) (bank row : Nat) (content : List Byte) : State × Option Answer :=
  if !sceneInRange bank row then (s, some (.badEntry none))
  else
    match s.tables.rowRefusal content with
    | some a => (s, some a)
    | none =>
      if s.rowActive bank row then (s, some (.plain .rowActive))
      else if s.longBarred then (s, some (.plain .busy))
      else (s.joinMemory (.rowWrite tag bank row content), none)

/-! ### Writes in CONFIG (R162 step 6) -/

def State.storeRun (s : State) (id : TableId) (first n : Nat) (content : List Byte) : State :=
  { s with tables := s.tables.storeRun id first n content }

/-- The run values that the entries of a run take when they are written. -/
def rewritten {α : Type} {k : Nat} (first n : Nat) (f : Nat → α) (t : Tab α k) : Tab α k :=
  t.mapIdx fun i a => if inWrite first n i then f i else a

/-- R3, R14, R25, R43, R65: the run values of the records written, the content already stored. A write of
WATCH puts every entry to rest, as R43 says. -/
def State.resetWritten (s : State) (id : TableId) (first n : Nat) : State :=
  match id with
  | .nodes => { s with seg := { s.seg with nodes := rewritten first n (fun _ => .initial) s.seg.nodes } }
  | .points => { s with points := { s.points with runs := rewritten first n (fun _ => .initial) s.points.runs } }
  | .channels => { s with image := rewritten first n (fun i => (s.tables.channels.get i).startRun) s.image }
  | .watch => { s with watch := { s.watch with runs := s.tables.watchRests false } }
  | .fogMap => if first < 8 then { s with fog := { s.fog with stations := .replicate 8 .initial } } else s
  | .saturation | .sinkMap | .zoneMap | .schedule | .thresholds | .fogTune | .sinkTune | .dispatch | .zoneSet
  | .timers | .flagEnables | .lightProfile | .scenes | .info | .nodeState | .pointValues | .channelValues
  | .watchState | .fogResult | .dispatchResult | .zoneResult | .bankState | .abortRecord => s

/-- R162 step 6: a write in CONFIG. -/
def State.writeConfig (s : State) (id : TableId) (first n : Nat) (content : List Byte) : State × Answer :=
  ((s.storeRun id first n content).resetWritten id first n, .plain .done)

/-! ### Writes of tunable tables in RUN (R162 step 7) -/

/-- R40: the lowest-numbered unchained in-use OUTSIDE entry whose clearing band the table would leave
empty. -/
def Tables.thresholdFailure (t : Tables) : Option Nat :=
  t.watch.first fun k r => !t.chained k && t.watchInUse k && r.bandEmpty t.thresholds

/-- R40, R56. -/
def State.writeThresholds (s : State) (first n : Nat) (content : List Byte) : State × Answer :=
  let s' := s.storeRun .thresholds first n content
  match s'.tables.thresholdFailure with
  | some k => (s, .badEntry (some k))
  | none => (s'.watchThresholds s.tables.thresholds, .plain .done)

/-- R64, R75. -/
def State.writeFogTune (s : State) (first n : Nat) (content : List Byte) : State × Answer :=
  let s' := s.storeRun .fogTune first n content
  match s'.tables.fogTuneWriteFailure first n with
  | some i => (s, .badEntry (some i))
  | none => (s'.fogRetune s.tables.fogTune first n, .plain .done)

/-- R84. -/
def State.writeSinkTune (s : State) (first n : Nat) (content : List Byte) : State × Answer :=
  let s' := s.storeRun .sinkTune first n content
  match s'.tables.sinkTune.first fun i r => inWrite first n i && s'.tables.sinkTuneFails i r with
  | some i => (s, .badEntry (some i))
  | none => (s', .plain .done)

/-- R82: the trigger, the arrival count or the dispatch period differs. -/
def DispatchRec.retimed (before now : DispatchRec) : Bool :=
  before.trigger != now.trigger || before.arrivalCount != now.arrivalCount || before.period != now.period

/-- R82: the timer and the arrival count after an accepted write of DISPATCH, the record already stored. -/
def State.restartDispatch (s : State) (before : DispatchRec) : State :=
  if before.retimed s.tables.dispatch ∧ s.heatActive then
    { s with heat := { s.heat with arrivals := 0, timer := some (1000 * s.tables.dispatch.period) } }
  else s

/-- R82. -/
def State.writeDispatch (s : State) (first n : Nat) (content : List Byte) : State × Answer :=
  let s' := s.storeRun .dispatch first n content
  if s'.tables.dispatchFails s'.tables.dispatch then (s, .badEntry (some 0))
  else (s'.restartDispatch s.tables.dispatch, .plain .done)

/-- R101. -/
def State.writeZoneSet (s : State) (first n : Nat) (content : List Byte) : State × Answer :=
  let s' := s.storeRun .zoneSet first n content
  match s'.tables.zoneSet.first fun i r => inWrite first n i && s'.tables.zoneSetFails i r with
  | some i => (s, .badEntry (some i))
  | none => (s'.zoneReset first n, .plain .done)

/-- R163. -/
def State.writeTimers (s : State) (first n : Nat) (content : List Byte) : State × Answer :=
  let s' := s.storeRun .timers first n content
  if s'.tables.timers.outOfRange then (s, .badEntry none) else (s', .plain .done)

/-- R127. -/
def State.writeProfile (s : State) (first n : Nat) (content : List Byte) : State × Answer :=
  let s' := s.storeRun .lightProfile first n content
  if s.lightingInUse then (s, .plain .busy)
  else if s'.tables.profile.outOfRange then (s, .badEntry (some 0))
  else (s', .plain .done)

/-- R162 steps 5 and 7: a write in RUN of a table other than SCENES. -/
def State.writeRunning (s : State) (id : TableId) (first n : Nat) (content : List Byte) : State × Answer :=
  match id with
  | .thresholds => s.writeThresholds first n content
  | .fogTune => s.writeFogTune first n content
  | .sinkTune => s.writeSinkTune first n content
  | .dispatch => s.writeDispatch first n content
  | .zoneSet => s.writeZoneSet first n content
  | .timers => s.writeTimers first n content
  | .flagEnables => (s.storeRun .flagEnables first n content, .plain .done)
  | .lightProfile => s.writeProfile first n content
  | .nodes | .points | .watch | .saturation | .fogMap | .sinkMap | .zoneMap | .channels | .schedule => (s, .plain .state)
  | .scenes | .info | .nodeState | .pointValues | .channelValues | .watchState | .fogResult | .dispatchResult
  | .zoneResult | .bankState | .abortRecord => (s, .plain .badRequest)

/-! ### The two requests -/

/-- R161: READ_TABLE. -/
def State.readTable (s : State) (tag table : Byte) (first count : Word16) : State × Option Answer :=
  match TableId.ofCode table.toNat with
  | none => (s, some (.plain .badRequest))
  | some id =>
    if id = .scenes then
      if count.toNat = 1 then s.readRow tag (sceneBank first) (sceneRow first) else (s, some (.badEntry none))
    else if runInTable id first.toNat count.toNat then (s, some ⟨.done, s.readRun id first.toNat count.toNat⟩)
    else (s, some (.badEntry none))

/-- R162 step 3: the run lies in the table and the content is as long as it. -/
def runMatches (id : TableId) (first count : Nat) (content : List Byte) : Bool :=
  runInTable id first count && content.length == id.runLength first (runCount id first count)

/-- R162, outside an open bracket. -/
def State.writeTable (s : State) (tag table : Byte) (first count : Word16) (content : List Byte) :
    State × Option Answer :=
  match TableId.ofCode table.toNat with
  | none => (s, some (.plain .badRequest))
  | some id =>
    if id.tableClass = .readOnly then (s, some (.plain .badRequest))
    else if s.saving then (s, some (.plain .busy))
    else if id = .scenes then
      if count.toNat = 1 then s.writeRow tag (sceneBank first) (sceneRow first) content
      else (s, some (.badEntry none))
    else if !runMatches id first.toNat count.toNat content then (s, some (.badEntry none))
    else
      let n := runCount id first.toNat count.toNat
      let o := if s.inRun then s.writeRunning id first.toNat n content else s.writeConfig id first.toNat n content
      (o.1, some o.2)

end Sys2Proof.Machine
end

