-- ==== Sys2Proof/Machine/Loader.lean ====
section
/-! DEFINITION. The image loader (chapter 11): entry to RUN and ENTER_CONFIG as every block takes them, the
stored image as bytes, the load in its five stages, the save, and the row operations of the memory port at
their completion (R12, R30, R116, R124, R125, R174 to R179). -/

namespace Sys2Proof.Machine

open Sys2Proof

/-! ### Entry to RUN (R12, R14, R30, R59, R79, R98, R109, R125, R140, R143, R174) -/

/-- R12: the segment master on entry to RUN, before slot 0 starts. -/
def State.segEnterRun (s : State) : State :=
  { s with seg := {
      nodes := .replicate 48 .initial
      slotPos := 0
      phase := .silent
      replyTimer := none
      urgent := []
      checkErrors := s.seg.checkErrors
      bitRate := s.tables.scheduleHead.bitRate
      replyTimeout := s.tables.scheduleHead.replyTimeout
      log := []
      draws := s.seg.draws } }

/-- R30 step 2: the addresses of the nodes of kind ACTUATOR or MIXED, ascending. -/
def Tables.setAddresses (t : Tables) : List Nat :=
  (List.range 63).filter fun a => t.nodes.list.any fun r => r.takesSet && r.address == a

/-- R30: start values applied, and every node that takes SET frames offered with reason START. -/
def State.applyStart (s : State) : State :=
  { s with
    image := s.tables.channels.map ChannelRec.startRun
    seg := { s.seg with
      urgent := s.tables.setAddresses.foldl (fun q a => offerNode q a .start) s.seg.urgent } }

/-- R174: entry to RUN, delivered to every block in the order R12, R30, R79 and R109 give. `receiving` says
that a frame is arriving on the field segment: it began outside RUN, and slot 0 waits for its end (R1). -/
def State.enterRun (s : State) (receiving : Bool) : State :=
  let s := { s with loader := { s.loader with op := .run }, points := .initial }
  let s := s.segEnterRun.applyStart
  let s := s.watchEnterRun.heatEnterRun.restLighting.bracketEnterRun
  let s := s.fogEnterRun.zonesEnterRun
  s.startSlot (if receiving then some true else none)

/-! ### ENTER_CONFIG (R12, R59, R79, R98, R109, R124, R140, R148, R174) -/

/-- R12: the slot in progress abandoned, the queue emptied, the line released. -/
def State.segEnterConfig (s : State) : State :=
  { s with seg := { s.seg with phase := .silent, replyTimer := none, urgent := [], log := [] } }

/-- R148: ENTER_CONFIG meets an open bracket, which it aborts with STOP. -/
def State.stopBracket (s : State) : State :=
  if s.bracket.state.isOpen then
    let s := s.countOrdinal
    s.abortBracket .stop (some s.bracket.ordinal) none
  else s

/-- R174: ENTER_CONFIG taken in RUN, the bracket unit first and the scene store after it. -/
def State.leaveRun (s : State) : State :=
  let s := s.stopBracket.flushMemory.restLighting
  let s := s.segEnterConfig.watchEnterConfig.fogEnterConfig.heatEnterConfig.zonesEnterConfig
  { s with loader := { s.loader with op := .config } }

/-- R174: ENTER_CONFIG. Taken in CONFIG it does nothing. -/
def State.enterConfig (s : State) : State × Option Answer :=
  (if s.inRun then s.leaveRun else s, some (.plain .done))

/-- R174: ENTER_RUN, outside an open bracket. -/
def State.tryEnterRun (s : State) (receiving : Bool) : State × Option Answer :=
  if s.inRun then (s, some (.plain .state))
  else if s.saving then (s, some (.plain .busy))
  else
    match s.tables.validate with
    | some (id, entry) => (s, some (.badTable id entry))
    | none => (s.enterRun receiving, some (.plain .done))

/-! ### The stored image as bytes (R176) -/

/-- R176: the offset of a table within the body, `earlier` being the tables before it. -/
def bodyOffset : List TableId → TableId → Nat
  | [], _ => 0
  | e :: rest, id => if e = id then 0 else e.runLength 0 e.entries + bodyOffset rest id

/-- R176: a table's whole length. -/
def TableId.wholeLength (id : TableId) : Nat := id.runLength 0 id.entries

/-- R176: a table's directory entry. -/
def directoryEntry (id : TableId) : List Byte :=
  u8 id.code ++ u32 (bodyOffset TableId.stored id) ++ u32 id.wholeLength

/-- R176: the header after its signature, over a body. The directory names the tables in the order in which the body
holds them: DESIGN CHOICE (log 46). -/
def headerAfterSignature (body : List Byte) : List Byte :=
  u8 Config.formatVersion ++ u32 body.length ++ u16 (crc16 body).toNat ++ TableId.stored.flatMap directoryEntry

/-- R176: what a save writes from the header's fifth byte on. -/
def savedBytes (t : Tables) : List Byte := headerAfterSignature t.body ++ t.body

/-! ### The load (R177) -/

/-- R176: one entry of a table directory. -/
structure DirEntry where
  id : Nat
  offset : Nat
  length : Nat
deriving DecidableEq, Repr

/-- R176: the directory of a header. -/
def directoryOf (header : List Byte) : List DirEntry :=
  (List.range 17).map fun i => ⟨rd8 header (11 + 9 * i), rd32 header (12 + 9 * i), rd32 header (16 + 9 * i)⟩

/-- R177 stage 2: the directory names each of the 17 tables exactly once. -/
def directoryComplete (d : List DirEntry) : Bool :=
  TableId.stored.all fun id => (d.filter fun e => e.id == id.code).length == 1

/-- R177 stage 3: an entry lies in the body and is as long as its table. -/
def DirEntry.fits (bodyLength : Nat) (e : DirEntry) : Bool :=
  decide (e.offset + e.length ≤ bodyLength) &&
    match TableId.ofCode e.id with
    | some id => e.length == id.wholeLength
    | none => false

/-- R177 stage 5: one table copied from the body into the working tables. -/
def Tables.loadTable (t : Tables) (body : List Byte) (e : DirEntry) : Tables :=
  match TableId.ofCode e.id with
  | some id => t.storeRun id 0 id.entries ((body.drop e.offset).take e.length)
  | none => t

/-- R163: the image's enables of the fifteen flags other than RESET_SEEN, whose enable stays as it is. -/
def Tables.keepResetEnable (t : Tables) (before : Word16) : Tables :=
  { t with enables := (t.enables &&& ~~~EventFlag.resetSeen.bit) ||| (before &&& EventFlag.resetSeen.bit) }

/-- R177: the image judged in its stages: the tables it gives, or the reason of the first stage that
fails. -/
def judgeImage (m : List Host.Cell) (t : Tables) : Except ImageReason Tables :=
  let header := Memory.block m 0 Config.headerLength
  let d := directoryOf header
  let bodyLength := rd32 header 5
  if header.take 4 ≠ Config.signature then .error .noSignature
  else if rd8 header 4 ≠ Config.formatVersion ∨ !directoryComplete d then .error .format
  else if Config.imageRegion - Config.headerLength < bodyLength ∨ !d.all (DirEntry.fits bodyLength) then .error .length
  else
    let body := Memory.block m Config.headerLength bodyLength
    if (crc16 body).toNat ≠ rd16 header 9 then .error .check
    else
      let t' := d.foldl (fun t e => t.loadTable body e) t
      match t'.validate with
      | some (id, entry) => .error (.validation id entry)
      | none => .ok (t'.keepResetEnable t.enables)

/-- R177: a load that passes. -/
def State.loadPasses (s : State) (t : Tables) (receiving : Bool) : State :=
  State.enterRun { s with tables := t, loader := { s.loader with image := .valid } } receiving

/-- R177: a load that fails. -/
def State.loadFails (s : State) (r : ImageReason) : State :=
  State.raise { s with tables := .empty, loader := ⟨.config, .invalid r⟩ } .imageEvent

/-- R174, R177: the completion of the load. -/
def State.endLoad (s : State) (receiving : Bool) : State :=
  match judgeImage s.memory.image s.tables with
  | .ok t => s.loadPasses t receiving
  | .error r => s.loadFails r

/-! ### The save (R179) -/

/-- R179: SAVE_IMAGE, outside an open bracket. -/
def State.trySave (s : State) (tag : Byte) : State × Option Answer :=
  if s.inRun then (s, some (.plain .state))
  else if s.saving then (s, some (.plain .busy))
  else if s.longBarred then (s, some (.plain .busy))
  else (s.joinMemory (.imageSave tag s.tables), none)

/-- R179 stages 1 to 3: header erased, body written, header written but for its signature. -/
def writeUnsigned (m : List Host.Cell) (t : Tables) : List Host.Cell :=
  Memory.write m 0 (List.replicate 4 Config.erasedByte ++ savedBytes t)

/-- The flaws that lie in what stages 2 and 3 wrote. -/
def savedFlaws (t : Tables) (flaws : List (Nat × Byte)) : List (Nat × Byte) :=
  flaws.filter fun f => decide (4 ≤ f.1) && decide (f.1 < 4 + (savedBytes t).length)

/-- R179 stage 4: the header and body as the read-back finds them. -/
def readBack (m : List Host.Cell) (t : Tables) : List Byte := Memory.block m 4 (savedBytes t).length

def State.setImage (s : State) (m : List Host.Cell) : State := { s with memory := { s.memory with image := m } }

def State.setImageStatus (s : State) (i : ImageStatus) : State := { s with loader := { s.loader with image := i } }

/-- R179: the completion of IMAGE_SAVE, the operation already off the queue. -/
def State.saveEnds (s : State) (tag : Byte) (copy : Tables) (flaws : List (Nat × Byte)) : State :=
  let m := Memory.spoil (writeUnsigned s.memory.image copy) (savedFlaws copy flaws)
  if readBack m copy = savedBytes copy then
    (((s.setImage (Memory.write m 0 Config.signature)).place tag codeSaveImage .done []).setImageStatus .valid).raise
      .imageEvent
  else
    (((s.setImage m).place tag codeSaveImage .failed []).setImageStatus (.invalid .noSignature)).raise .imageEvent

/-! ### Row operations at their completion (R116) -/

/-- A place of the library in which some bytes hold something else than what was written. -/
def spoilPlace (place : List Byte) (flaws : List (Nat × Byte)) : List Byte :=
  flaws.foldl (fun l f => l.set f.1 f.2) place

def State.setPlace (s : State) (b r : Nat) (place : List Byte) : State :=
  { s with memory := { s.memory with rows := s.memory.rows.set (placeIndex b r) place } }

/-- R116: the completion of ROW_WRITE, the operation already off the queue. -/
def State.rowWriteEnds (s : State) (tag : Byte) (b r : Nat) (content : List Byte) (flaws : List (Nat × Byte)) : State :=
  let place := spoilPlace (placeOf content) flaws
  (s.setPlace b r place).place tag codeWriteTable
    (if place = placeOf content ∧ (goodRow place).isSome then .done else .failed) []

/-- R116: the completion of ROW_READ, the operation already off the queue. -/
def State.rowReadEnds (s : State) (tag : Byte) (b r : Nat) : State :=
  let place := s.memory.rows.get (placeIndex b r)
  if (goodRow place).isSome then s.place tag codeReadTable .done (rowData b r (contentOf place))
  else s.place tag codeReadTable .failed []

end Sys2Proof.Machine
end

