-- ==== Sys2Proof/Machine/Reset.lean ====
section
/-! DEFINITION. The resets, the RESET pin and the supply: what is cut off in the serial memory, and what
the part holds afterwards (R125, R175, R179, R180). -/

namespace Sys2Proof.Machine

open Sys2Proof

/-! ### What a cut leaves in the serial memory (R125, R179) -/

/-- R116: the row that the first of these bytes, its channel count, names, with a check that cannot match.
DESIGN CHOICE (log 17) for the bytes of that check. -/
def spoilCheck (bytes : List Byte) : List Byte :=
  match bytes with
  | [] => []
  | _ :: _ => contentOf bytes ++ u16 (~~~crc16 (contentOf bytes)).toNat

/-- R116, R125: a place whose ROW_WRITE was cut off after `cut` byte writes of the count, pairs, fade time
and check, the old check having been overwritten first. Before the new check is whole the place keeps a
check that cannot match. -/
def cutPlace (old content : List Byte) (cut : Nat) : List Byte :=
  if content.length + 2 ≤ cut then placeOf content
  else spoilCheck (content.take cut ++ (contentOf old).drop cut)

/-- R179: an image region whose IMAGE_SAVE was cut off after `cut` byte writes: the header erased first,
then the body written, then the header but for its signature. -/
def cutImage (m : List Host.Cell) (t : Tables) (cut : Nat) : List Host.Cell :=
  let body := t.body
  let erased := Memory.write m 0 (List.replicate Config.headerLength Config.erasedByte)
  Memory.write (Memory.write erased Config.headerLength (body.take cut)) 4
    ((headerAfterSignature body).take (cut - body.length))

/-- R125: the serial memory after the operation in flight, if there is one, is cut off. -/
def State.cutMemory (s : State) (cut : Nat) : SerialMemory :=
  match s.store.queue.head? with
  | some (.rowWrite _ b r content) =>
    let p := placeIndex b r
    { s.memory with rows := s.memory.rows.set p (cutPlace (s.memory.rows.get p) content cut) }
  | some (.imageSave _ copy) => { s.memory with image := cutImage s.memory.image copy cut }
  | some (.activate _ _) | some (.rowRead _ _ _) | none => s.memory

/-! ### The start after a reset (R175) -/

/-- R175: the part starts: straps sampled, cause recorded, every block at its reset values. -/
def State.start (s : State) (straps : Straps) (cause : ResetCause) (cut : Nat) : State :=
  State.started s.pending (s.cutMemory cut) straps cause

/-- R125, R175: the part without supply, or held in reset: nothing runs, nothing is queued, nothing is in
transmission. DESIGN CHOICE (log 18) for the values held, which nothing can read. -/
def State.stopped (s : State) (cut : Nat) (p : Power) : State :=
  let r := State.started s.pending (s.cutMemory cut) s.power.straps s.power.cause
  { r with
    power := p
    loader := ⟨.config, .notLoaded⟩
    trunk := ⟨0, [], [], .idle, none, ⟨0, 0, 0, 0, 0⟩⟩ }

/-- R175: power-on. One that finds the RESET pin asserted starts at the release of the pin. -/
def State.powerOn (s : State) (straps : Straps) (cut : Nat) : State :=
  if s.power.pinAsserted then s.stopped cut { s.power with supply := true, powerHeld := true }
  else s.start straps .power cut

/-- R175: the release of the RESET pin. -/
def State.releasePin (s : State) (straps : Straps) (cut : Nat) : State :=
  if s.power.supply then s.start straps (if s.power.powerHeld then .power else .pin) cut
  else { s with power := { s.power with pinAsserted := false } }

/-- R175: the assertion of the RESET pin. -/
def State.assertPin (s : State) (cut : Nat) : State :=
  if s.power.supply then s.stopped cut { s.power with pinAsserted := true }
  else { s with power := { s.power with pinAsserted := true } }

/-- R125: the loss of supply. -/
def State.losePower (s : State) (cut : Nat) : State :=
  s.stopped cut { s.power with supply := false, powerHeld := false }

/-! ### RESET_PART (R180) -/

/-- R180: the reply is a DONE to RESET_PART. -/
def Reply.resets (r : Reply) : Bool := r.code == codeResetPart && r.result == .done

/-- R180: the frame in transmission is a DONE reply to RESET_PART. -/
def TrunkUnit.sendingReset (t : TrunkUnit) : Bool :=
  t.sending == .reply &&
    match t.replies with
    | r :: _ => r.resets
    | [] => false

/-- R180: the end of transmission of a DONE reply to RESET_PART. -/
def State.softReset (s : State) (straps : Straps) (cut : Nat) : State :=
  if s.live && s.trunk.sendingReset then s.start straps .soft cut else s

/-- R167: the end of a trunk transmission; at the end of the reply to RESET_PART the part resets with the
straps as it last sampled them. DESIGN CHOICE (log 19). -/
def State.frameSent (s : State) : State :=
  if s.live then
    if s.trunk.sendingReset then s.start s.power.straps .soft 0 else { s with trunk := s.trunk.endSending }
  else s

end Sys2Proof.Machine
end

