-- ==== Sys2Proof/Machine/ResetCommands.lean ====
section
/-! DEFINITION. The commands of the supply, the RESET pin, RESET_PART's reset and the image load
(chapter 11). -/

namespace Sys2Proof.Machine

open Sys2Proof

/-- POWER_ON (R175). -/
def execPowerOn (straps : Straps) (cut : Nat) (s : State) : Host.Outcome State Fault Refusal :=
  .next (s.powerOn straps cut)

/-- RESET_PIN (R175). -/
def execResetPin (straps : Straps) (cut : Nat) (s : State) : Host.Outcome State Fault Refusal :=
  .next (s.releasePin straps cut)

/-- SOFT_RESET (R180). -/
def execSoftReset (straps : Straps) (cut : Nat) (s : State) : Host.Outcome State Fault Refusal :=
  .next (s.softReset straps cut)

/-- RESET_PIN_ASSERTED (R175). -/
def execResetPinAsserted (cut : Nat) (s : State) : Host.Outcome State Fault Refusal := .next (s.assertPin cut)

/-- POWER_FAILS (R125). -/
def execPowerFails (cut : Nat) (s : State) : Host.Outcome State Fault Refusal := .next (s.losePower cut)

/-- R177: the completion of the load, in LOADING. -/
def State.imageLoad (s : State) (receiving : Bool) : State :=
  if s.live && s.loader.op == .loading then s.endLoad receiving else s

/-- IMAGE_LOAD (R177). -/
def execImageLoad (receiving : Bool) (s : State) : Host.Outcome State Fault Refusal := .next (s.imageLoad receiving)

end Sys2Proof.Machine
end

