-- ==== Sys2Proof/Machine/TrunkCommands.lean ====
section
/-! DEFINITION. The commands of the trunk link that no bracket holds: bad frames, the reads, WRITE_TABLE,
CLEAR_FLAGS, the changes of operating state, SAVE_IMAGE, RESET_PART, RELEASE_WATCH, malformed requests, the
end of a transmission and the trunk silence (chapters 3, 10 and 11). -/

namespace Sys2Proof.Machine

open Sys2Proof

/-- R158 step 1. -/
def State.badTrunkFrame (s : State) : State := if s.live then { s with trunk := s.trunk.countBadFrame } else s

/-- TRUNK_BAD_FRAME (R158). -/
def execTrunkBadFrame (s : State) : Host.Outcome State Fault Refusal := .next s.badTrunkFrame

/-- R165. -/
def serveInfo (s : State) : State × Option Answer := (s, some ⟨.done, infoStructure⟩)

/-- READ_INFO (R165). -/
def execReadInfo (tag : Byte) (s : State) : Host.Outcome State Fault Refusal :=
  .next (s.passRequest tag codeReadInfo serveInfo)

/-- R166. -/
def serveStatus (s : State) : State × Option Answer := (s, some ⟨.done, s.statusBytes⟩)

/-- READ_STATUS (R166). -/
def execReadStatus (tag : Byte) (s : State) : Host.Outcome State Fault Refusal :=
  .next (s.passRequest tag codeReadStatus serveStatus)

/-- READ_TABLE (R161). -/
def execReadTable (tag table : Byte) (first count : Word16) (s : State) : Host.Outcome State Fault Refusal :=
  .next (s.request tag codeReadTable fun s => s.readTable tag table first count)

/-- WRITE_TABLE (R162). -/
def execWriteTable (tag table : Byte) (first count : Word16) (content : List Byte) (s : State) :
    Host.Outcome State Fault Refusal :=
  .next (s.request tag codeWriteTable (restricted fun s => s.writeTable tag table first count content))

/-- R170: the flags and enables as the request leaves them. -/
def serveClear (mask value : Word16) (s : State) : State × Option Answer :=
  let t := s.trunk.clearFlags mask value s.tables.enables s.bracket.record
  ({ s with trunk := t }, some ⟨.done, u16 t.flags.toNat ++ u16 s.tables.enables.toNat⟩)

/-- CLEAR_FLAGS (R170). -/
def execClearFlags (tag : Byte) (mask value : Word16) (s : State) : Host.Outcome State Fault Refusal :=
  .next (s.request tag codeClearFlags (serveClear mask value))

/-- ENTER_RUN (R174). -/
def execEnterRun (tag : Byte) (receiving : Bool) (s : State) : Host.Outcome State Fault Refusal :=
  .next (s.request tag codeEnterRun (restricted fun s => s.tryEnterRun receiving))

/-- ENTER_CONFIG (R174). -/
def execEnterConfig (tag : Byte) (s : State) : Host.Outcome State Fault Refusal :=
  .next (s.request tag codeEnterConfig State.enterConfig)

/-- SAVE_IMAGE (R179). -/
def execSaveImage (tag : Byte) (s : State) : Host.Outcome State Fault Refusal :=
  .next (s.request tag codeSaveImage (restricted fun s => s.trySave tag))

/-- R180: the answer to RESET_PART; the reset comes at the end of its transmission. -/
def serveResetPart (s : State) : State × Option Answer := (s, some (.plain .done))

/-- RESET_PART (R180). -/
def execResetPart (tag : Byte) (s : State) : Host.Outcome State Fault Refusal :=
  .next (s.request tag codeResetPart serveResetPart)

/-- R53: RELEASE_WATCH, with the mask of the entries that leave LATCHED. -/
def serveRelease (mask : BitVec 32) (s : State) : State × Option Answer :=
  (s.watchRelease mask, some ⟨.done, u32 (releasedMask s.watch.runs mask).toNat⟩)

/-- RELEASE_WATCH (R53). -/
def execReleaseWatch (tag : Byte) (mask : BitVec 32) (s : State) : Host.Outcome State Fault Refusal :=
  .next (s.request tag codeReleaseWatch (serveRelease mask))

/-- R159 step 2. -/
def serveMalformed (s : State) : State × Option Answer := (s, some (.plain .badRequest))

/-- MALFORMED_REQUEST (R159). -/
def execMalformedRequest (tag code : Byte) (s : State) : Host.Outcome State Fault Refusal :=
  .next (s.passRequest tag code serveMalformed)

/-- TRUNK_FRAME_SENT (R167). -/
def execTrunkFrameSent (s : State) : Host.Outcome State Fault Refusal := .next s.frameSent

/-- R154, R171: the expiry of the trunk silence timer. -/
def State.silenceEnds (s : State) : State :=
  if s.live && s.trunk.silence.isSome then
    (State.raise { s with trunk := { s.trunk with silence := none } } .trunkSilent).abortBracket .link none none
  else s

/-- TRUNK_SILENCE_EXPIRY (R171). -/
def execTrunkSilenceExpiry (s : State) : Host.Outcome State Fault Refusal := .next s.silenceEnds

end Sys2Proof.Machine
end

