-- ==== Sys2Proof/Machine/StageableCommands.lean ====
section
/-! DEFINITION. The stageable requests and the requests and timer of the bracket unit (R110, R130, R131,
R137, R145 to R150, R154, R164). -/

namespace Sys2Proof.Machine

open Sys2Proof

/-! ### The checks that do not depend on the moment (R146, R155) -/

/-- R164 steps 1 to 4. -/
def State.checkSetChannel (s : State) (channel value : Word16) : Checked :=
  let ch := channel.toNat
  if !s.inRun then .refused (.plain .state)
  else if Config.channelCount ≤ ch ∨ !(s.tables.channels.get ch).mapped then .refused (.badEntry none)
  else if (s.tables.channels.get ch).owner ≠ .supervisor then .refused (.plain .owned)
  else
    let v := clampChannel (s.tables.channels.get ch) value.toInt
    .good (.setChannel ch v) ((v : Int) != value.toInt)

/-- R110 steps 1 to 3. -/
def State.checkSetZone (s : State) (zone : Byte) (occupied : Option Bool) (occ unocc : Option Int) : Checked :=
  let z := zone.toNat
  if occupied.isNone && occ.isNone && unocc.isNone then .refused (.plain .badRequest)
  else if 16 ≤ z ∨ (s.inRun ∧ !s.tables.zoneInUse z) then .refused (.badEntry none)
  else
    .good (.setZone z occupied (occ.map clampSetpoint) (unocc.map clampSetpoint))
      (setpointClamped occ || setpointClamped unocc)

/-- R130 steps 1 and 2. -/
def State.checkCue (s : State) (bank row : Byte) (fade : Option Word16) (rel : Bool) : Checked :=
  if !s.inRun then .refused (.plain .state)
  else if !sceneInRange bank.toNat row.toNat ∨ 6000 < (fade.map BitVec.toNat).getD 0 then .refused (.badEntry none)
  else .good (.cue bank.toNat row.toNat (fade.map BitVec.toNat) rel) false

/-- R137, before its table. -/
def State.checkRelease (s : State) (bank : Byte) : Checked :=
  if !s.inRun then .refused (.plain .state)
  else if 4 ≤ bank.toNat then .refused (.badEntry none)
  else .good (.releaseBank bank.toNat) false

/-- R144, R164: a SET_CHANNEL with DIRECT, taken at once in every bracket state. -/
def State.takeDirect (s : State) (c : Checked) : State × Option Answer :=
  match c with
  | .refused a => (s, some a)
  | .good r clamped => ((s.takeItem r).1, some (.plain (if clamped then .clamped else .done)))

/-- SET_CHANNEL (R164). -/
def execSetChannel (tag : Byte) (channel value : Word16) (direct : Bool) (s : State) :
    Host.Outcome State Fault Refusal :=
  .next (s.request tag codeSetChannel fun s =>
    if direct then s.takeDirect (s.checkSetChannel channel value)
    else s.takeStageable (s.checkSetChannel channel value))

/-- SET_ZONE (R110). -/
def execSetZone (tag zone : Byte) (occupied : Option Bool) (occupiedSet unoccupiedSet : Option Word16) (s : State) :
    Host.Outcome State Fault Refusal :=
  .next (s.request tag codeSetZone fun s =>
    s.takeStageable
      (s.checkSetZone zone occupied (occupiedSet.map BitVec.toInt) (unoccupiedSet.map BitVec.toInt)))

/-- CUE (R130, R131). -/
def execCue (tag bank row : Byte) (fade : Option Word16) (releaseAfter : Bool) (s : State) :
    Host.Outcome State Fault Refusal :=
  .next (s.request tag codeCue fun s => s.takeStageable (s.checkCue bank row fade releaseAfter))

/-- RELEASE_BANK (R137). -/
def execReleaseBank (tag bank : Byte) (s : State) : Host.Outcome State Fault Refusal :=
  .next (s.request tag codeReleaseBank fun s => s.takeStageable (s.checkRelease bank))

/-- OPEN_BRACKET (R145). -/
def execOpenBracket (tag : Byte) (kind : BracketKind) (count : Byte) (strict notify : Bool) (s : State) :
    Host.Outcome State Fault Refusal :=
  .next (s.request tag codeOpenBracket fun s => s.openBracket kind count.toNat strict notify)

/-- CLOSE_BRACKET (R149). -/
def execCloseBracket (tag : Byte) (s : State) : Host.Outcome State Fault Refusal :=
  .next (s.request tag codeCloseBracket State.closeBracket)

/-- ABANDON_BRACKET (R150). -/
def execAbandonBracket (tag : Byte) (s : State) : Host.Outcome State Fault Refusal :=
  .next (s.request tag codeAbandonBracket State.abandonBracket)

/-- R154: the expiry of the bracket timer. -/
def State.bracketTimerEnds (s : State) : State :=
  if s.live && s.bracket.timer.isSome then s.abortBracket .timeout none none else s

/-- BRACKET_TIMER_EXPIRY (R154). -/
def execBracketTimerExpiry (s : State) : Host.Outcome State Fault Refusal := .next s.bracketTimerEnds

end Sys2Proof.Machine
end

