-- ==== Sys2Proof/Machine/FieldCommands.lean ====
section
/-! DEFINITION. The commands of the field segment, the point table's staleness, and the refresh of the
actuator nodes (R1, R4, R5, R7 to R11, R18, R33 to R35). -/

namespace Sys2Proof.Machine

open Sys2Proof

/-- The part runs and is in RUN, where the segment and every control block are active. -/
def State.running (s : State) : Bool := s.live && s.inRun

/-! ### Node records -/

/-- The run fields of the node with this address changed; of an address with no record nothing. -/
def State.updateNode (s : State) (address : Nat) (f : NodeRun → NodeRun) : State :=
  match s.tables.nodeIndex address with
  | some i => { s with seg := { s.seg with nodes := s.seg.nodes.modify i f } }
  | none => s

/-- The run fields of the node with this address. -/
def State.nodeRun (s : State) (address : Nat) : NodeRun :=
  match s.tables.nodeIndex address with
  | some i => s.seg.nodes.get i
  | none => .initial

/-- A node's run fields changed, NODE_CHANGED raised if its state is (R4, R5). -/
def State.moveNode (s : State) (address : Nat) (f : NodeRun → NodeRun) : State :=
  (s.updateNode address f).raiseIf ((s.nodeRun address).state != (f (s.nodeRun address)).state) .nodeChanged

/-- R4: a good REPORT. -/
def NodeRun.reported (r : NodeRun) : NodeRun := { r with misses := 0, state := .online }

/-- R5: a miss. -/
def NodeRec.missed (m : NodeRec) (r : NodeRun) : NodeRun :=
  let n := satAdd 15 r.misses 1
  { r with
    misses := n
    state :=
      if n < m.silent then r.state
      else if n < m.offline then (if r.state = .offline then .offline else .silent)
      else .offline }

/-- R10: the end of a SET transmission. -/
def NodeRun.served (r : NodeRun) : NodeRun := { r with lastSetMs := 0, lapse := false, refreshed := false }

/-! ### Slots -/

def State.setReplyTimer (s : State) (t : Option Nat) : State := { s with seg := { s.seg with replyTimer := t } }

/-- R7: the end of transmission of a POLL frame. -/
def State.pollSent (s : State) : State :=
  if s.running then
    match s.seg.phase with
    | .sendingPoll n => (s.setPhase (.awaiting n)).setReplyTimer (some s.seg.replyTimeout)
    | .silent | .held _ _ | .awaiting _ | .sendingSet _ _ => s
  else s

/-- POLL_SENT (R7). -/
def execPollSent (s : State) : Host.Outcome State Fault Refusal := .next s.pollSent

/-- R8: the REPORT ends the slot: the slot awaits it, and it holds 1 to 12 items. -/
def State.awaits (s : State) (address : Byte) (items : List Item) : Bool :=
  s.seg.phase == .awaiting address.toNat && decide (1 ≤ items.length) && decide (items.length ≤ 12)

/-- R4, R8: a good REPORT from node `n` in the slot that awaits it. The timer stops, the slot ends, the next
one starts, and then the node and its items are taken, in the order R8 tells: DEDUCED (log 20). -/
def State.reportTaken (s : State) (n : Nat) (items : List Item) : State :=
  let u := ((s.setReplyTimer none).endSlotAmid false).moveNode n NodeRun.reported
  u.asStep (u.takeItems n items)

/-- R9: a frame that does not end an awaiting slot as a good REPORT. -/
def State.frameDiscarded (s : State) : State := s.discardFieldFrame.releaseHold false

/-- R8, R9: a REPORT with a good check and a length that agrees with its items. -/
def State.goodReport (s : State) (address : Byte) (items : List Item) : State :=
  if s.running then
    if s.awaits address items then s.reportTaken address.toNat items else s.frameDiscarded
  else s

/-- GOOD_REPORT (R8). -/
def execGoodReport (address : Byte) (items : List Item) (s : State) : Host.Outcome State Fault Refusal :=
  .next (s.goodReport address items)

/-- R5: a miss of node `n`. -/
def State.missNode (s : State) (n : Nat) : State :=
  match s.tables.nodeOf n with
  | some m => s.moveNode n m.missed
  | none => s

/-- R5, R8: the expiry of the reply timer. -/
def State.replyTimeout (s : State) (receiving : Bool) : State :=
  if s.running && s.seg.replyTimer.isSome then
    match s.seg.phase with
    | .awaiting n => ((s.setReplyTimer none).missNode n).endSlotAmid receiving
    | .silent | .held _ _ | .sendingPoll _ | .sendingSet _ _ => s
  else s

/-- REPLY_TIMEOUT (R5). -/
def execReplyTimeout (receiving : Bool) (s : State) : Host.Outcome State Fault Refusal :=
  .next (s.replyTimeout receiving)

/-- R9: a bad frame; outside RUN it is neither handled nor counted (R1). -/
def State.fieldBadFrame (s : State) : State := if s.running then s.frameDiscarded else s

/-- FIELD_BAD_FRAME (R9). -/
def execFieldBadFrame (s : State) : Host.Outcome State Fault Refusal := .next s.fieldBadFrame

/-- R10, R11: the end of transmission of a SET frame. -/
def State.setSent (s : State) (receiving : Bool) : State :=
  if s.running then
    match s.seg.phase with
    | .sendingSet n _ => (s.updateNode n NodeRun.served).endSlotAmid receiving
    | .silent | .held _ _ | .sendingPoll _ | .awaiting _ => s
  else s

/-- SET_SENT (R10). -/
def execSetSent (receiving : Bool) (s : State) : Host.Outcome State Fault Refusal := .next (s.setSent receiving)

/-- R1: the end of a frame whose reception began outside RUN. -/
def State.ignoredFrameEnds (s : State) : State := if s.running then s.releaseHold true else s

/-- IGNORED_FIELD_FRAME_END (R1). -/
def execIgnoredFieldFrameEnd (s : State) : Host.Outcome State Fault Refusal := .next s.ignoredFrameEnds

/-! ### Staleness, refresh and lapse -/

/-- R18: in RUN a point's age reaches its max age. -/
def State.pointStale (s : State) (p : Nat) : State := if s.running then s.asStep (s.goStale p) else s

/-- POINT_STALE (R18). -/
def execPointStale (point : Fin 256) (s : State) : Host.Outcome State Fault Refusal := .next (s.pointStale point.val)

/-- The node with this address, if it is an actuator or mixed node (R33). -/
def State.setNode (s : State) (address : Nat) : Option NodeRec := (s.tables.nodeOf address).filter NodeRec.takesSet

/-- R31: the node is in transmission: its SET frame has been composed, and its transmission has not ended. -/
def State.inTransmission (s : State) (address : Nat) : Bool :=
  match s.seg.phase with
  | .sendingSet n _ | .held _ (.set n _) => n == address
  | .silent | .held _ (.poll _) | .sendingPoll _ | .awaiting _ => false

/-- R34: the refresh period in ms. -/
def NodeRec.refreshMs (m : NodeRec) : Nat := 1000 * m.refresh

/-- R35: the age at which the lapse comes. -/
def NodeRec.lapseMs (m : NodeRec) : Nat := min Config.top16 (2000 * m.refresh + 1)

/-- R34: the refresh expiry of a node. -/
def State.refreshExpiry (s : State) (address : Nat) : State :=
  if s.running then
    match s.setNode address with
    | some m =>
      if (s.nodeRun address).refreshed then s
      else
        let s' := s.updateNode address fun r =>
          { r with refreshed := true, lastSetMs := max r.lastSetMs m.refreshMs }
        if s.inTransmission address then s' else (s'.offerUrgent address .refresh).settle
    | none => s
  else s

/-- REFRESH_EXPIRY (R34). -/
def execRefreshExpiry (address : Byte) (s : State) : Host.Outcome State Fault Refusal :=
  .next (s.refreshExpiry address.toNat)

/-- R35: the refresh lapse of a node. -/
def State.refreshLapse (s : State) (address : Nat) : State :=
  if s.running then
    match s.setNode address with
    | some m =>
      if (s.nodeRun address).lapse then s
      else
        (s.updateNode address fun r => { r with lapse := true, lastSetMs := max r.lastSetMs m.lapseMs }).raise
          .refreshLapse
    | none => s
  else s

/-- REFRESH_LAPSE (R35). -/
def execRefreshLapse (address : Byte) (s : State) : Host.Outcome State Fault Refusal :=
  .next (s.refreshLapse address.toNat)

end Sys2Proof.Machine
end

