-- ==== Sys2Proof/Machine/ControlCommands.lean ====
section
/-! DEFINITION. The timers of the surface watch, the fog monitor and the heat dispatcher, and the delivery
of a dispatch result to the zone controller (R46, R48, R50, R73, R76, R86, R106). -/

namespace Sys2Proof.Machine

open Sys2Proof

/-- R45: the expiry of the timer of watch entry `k`, in RUN. -/
def State.watchTimer (s : State) (k : Nat) (act : WatchRec → WatchRun → EntryOutcome) : State :=
  if s.running && (s.watch.runs.get k).timer.isSome then s.watchEvent (onEntry k act) else s

/-- QUALIFY_EXPIRY (R46). -/
def execQualifyExpiry (entry : Fin 32) (s : State) : Host.Outcome State Fault Refusal :=
  .next (s.watchTimer entry.val WatchRec.qualifyEnds)

/-- RELEASE_EXPIRY (R46). -/
def execReleaseExpiry (entry : Fin 32) (s : State) : Host.Outcome State Fault Refusal :=
  .next (s.watchTimer entry.val WatchRec.releaseEnds)

/-- HOLD_EXPIRY (R48). -/
def execHoldExpiry (entry : Fin 32) (s : State) : Host.Outcome State Fault Refusal :=
  .next (s.watchTimer entry.val WatchRec.holdEnds)

/-- WINDOW_EXPIRY (R50). -/
def execWindowExpiry (entry : Fin 32) (s : State) : Host.Outcome State Fault Refusal :=
  .next (s.watchTimer entry.val fun r w => r.windowEnds (s.tables.chained entry.val) w)

/-- R73: the expiry of a step timer. -/
def State.patternStep (s : State) (i : Nat) : State :=
  if s.running && s.tables.stationInUse i && (s.fog.stations.get i).timer.isSome then s.fogStep i else s

/-- PATTERN_STEP_EXPIRY (R73). -/
def execPatternStepExpiry (station : Fin 8) (s : State) : Host.Outcome State Fault Refusal :=
  .next (s.patternStep station.val)

/-- R76: the expiry of the dehumidifier's run timer. -/
def State.dehumidRunEnds (s : State) : State := if s.running && s.fog.runTimer.isSome then s.runTimerEnds else s

/-- DEHUMID_RUN_EXPIRY (R76). -/
def execDehumidRunExpiry (s : State) : Host.Outcome State Fault Refusal := .next s.dehumidRunEnds

/-- R76: the expiry of the dehumidifier's rest timer. -/
def State.dehumidRestEnds (s : State) : State := if s.running && s.fog.restTimer.isSome then s.restTimerEnds else s

/-- DEHUMID_REST_EXPIRY (R76). -/
def execDehumidRestExpiry (s : State) : Host.Outcome State Fault Refusal := .next s.dehumidRestEnds

/-- R86: the expiry of the dispatch timer. -/
def State.dispatchTimerEnds (s : State) : State :=
  if s.live && s.heatActive && s.heat.timer.isSome then s.dispatchPass else s

/-- DISPATCH_TIMER_EXPIRY (R86). -/
def execDispatchTimerExpiry (s : State) : Host.Outcome State Fault Refusal := .next s.dispatchTimerEnds

/-- R103, R106: the oldest dispatch result not yet taken is delivered to the zone controller. -/
def State.deliverResult (s : State) : State :=
  if s.running then
    match s.zones.deliveries with
    | d :: rest => State.splitGrant { s with zones := { s.zones with deliveries := rest } } d
    | [] => s
  else s

/-- DISPATCH_RESULT_DELIVERY (R106). -/
def execDispatchResultDelivery (s : State) : Host.Outcome State Fault Refusal := .next s.deliverResult

end Sys2Proof.Machine
end

