-- ==== Sys2Proof/Machine/LightingCommands.lean ====
section
/-! DEFINITION. The completions of the memory port and the events of the banks and fade engines (R116,
R121, R123, R132, R135, R179). -/

namespace Sys2Proof.Machine

open Sys2Proof

/-- R116, R121: the operation in flight completes, if it is an ACTIVATE. -/
def State.activateComplete (s : State) : State :=
  if s.live then
    match s.store.queue.head? with
    | some (.activate b r) => s.leaveMemory.activationEnds b r
    | some (.rowWrite _ _ _ _) | some (.rowRead _ _ _) | some (.imageSave _ _) | none => s
  else s

/-- ACTIVATE_COMPLETE (R121). -/
def execActivateComplete (s : State) : Host.Outcome State Fault Refusal := .next s.activateComplete

/-- R116: the operation in flight completes, if it is a ROW_WRITE. -/
def State.rowWriteComplete (s : State) (flaws : List (Nat × Byte)) : State :=
  if s.live then
    match s.store.queue.head? with
    | some (.rowWrite tag b r content) => s.leaveMemory.rowWriteEnds tag b r content flaws
    | some (.activate _ _) | some (.rowRead _ _ _) | some (.imageSave _ _) | none => s
  else s

/-- ROW_WRITE_COMPLETE (R116). -/
def execRowWriteComplete (flaws : List (Nat × Byte)) (s : State) : Host.Outcome State Fault Refusal :=
  .next (s.rowWriteComplete flaws)

/-- R116: the operation in flight completes, if it is a ROW_READ. -/
def State.rowReadComplete (s : State) : State :=
  if s.live then
    match s.store.queue.head? with
    | some (.rowRead tag b r) => s.leaveMemory.rowReadEnds tag b r
    | some (.activate _ _) | some (.rowWrite _ _ _ _) | some (.imageSave _ _) | none => s
  else s

/-- ROW_READ_COMPLETE (R116). -/
def execRowReadComplete (s : State) : Host.Outcome State Fault Refusal := .next s.rowReadComplete

/-- R179: the operation in flight completes, if it is an IMAGE_SAVE. -/
def State.imageSaveComplete (s : State) (flaws : List (Nat × Byte)) : State :=
  if s.live then
    match s.store.queue.head? with
    | some (.imageSave tag copy) => s.leaveMemory.saveEnds tag copy flaws
    | some (.activate _ _) | some (.rowWrite _ _ _ _) | some (.rowRead _ _ _) | none => s
  else s

/-- IMAGE_SAVE_COMPLETE (R179). -/
def execImageSaveComplete (flaws : List (Nat × Byte)) (s : State) : Host.Outcome State Fault Refusal :=
  .next (s.imageSaveComplete flaws)

/-- R129, R132: an activation's completion is delivered to engine `b`. -/
def State.activationDelivered (s : State) (b : Nat) : State :=
  if s.live && s.store.completions.contains b then
    State.deliverActivation { s with store := { s.store with completions := s.store.completions.erase b } } b
  else s

/-- ACTIVATION_DELIVERY (R132). -/
def execActivationDelivery (bank : Fin 4) (s : State) : Host.Outcome State Fault Refusal :=
  .next (s.activationDelivered bank.val)

/-- R123: the expiry of bank `b`'s settle timer. -/
def State.settleExpiry (s : State) (b : Nat) : State :=
  if s.live && (s.bank b).settle.isSome then s.settleEnds b else s

/-- SETTLE_EXPIRY (R123). -/
def execSettleExpiry (bank : Fin 4) (s : State) : Host.Outcome State Fault Refusal := .next (s.settleExpiry bank.val)

/-- R135: the expiry of engine `b`'s step timer. -/
def State.fadeStepExpiry (s : State) (b : Nat) : State :=
  if s.live && (s.engine b).timer.isSome then s.fadeStep b else s

/-- FADE_STEP_EXPIRY (R135). -/
def execFadeStepExpiry (engine : Fin 4) (s : State) : Host.Outcome State Fault Refusal :=
  .next (s.fadeStepExpiry engine.val)

end Sys2Proof.Machine
end

