-- ==== Sys2Proof/Machine/Time.lean ====
section
/-! DEFINITION. The part's own time: what falls due by itself, and one millisecond passing with nothing
due (section 5.3, R14, R18, R33, R85, R143, R171). It is what a step does when no command waits: DESIGN
CHOICE (log 21). -/

namespace Sys2Proof.Machine

open Sys2Proof

/-- A timer has run out. -/
def expired (t : Option Nat) : Bool := t == some 0

/-! ### What is due -/

/-- R18: point `p`'s age has reached its max age and the point is not yet STALE. -/
def pointDue (m : PointRec) (r : PointRun) : Bool :=
  (r.quality == .good || r.quality == .suspect || r.quality == .fault) && decide (1000 * m.maxAge ≤ r.ageMs)

/-- R34: the refresh expiry of a node is due. -/
def refreshDue (m : NodeRec) (r : NodeRun) : Bool := m.takesSet && !r.refreshed && decide (m.refreshMs ≤ r.lastSetMs)

/-- R35: the refresh lapse of a node is due. -/
def lapseDue (m : NodeRec) (r : NodeRun) : Bool := m.takesSet && !r.lapse && decide (m.lapseMs ≤ r.lastSetMs)

/-- R46, R48, R50: the expiry that the running timer of a watch entry makes. -/
def watchExpiry (r : WatchRec) (w : WatchRun) (k : Nat) : Instr :=
  match r.mode with
  | .delay => if w.state = .qualifying then .qualifyExpiry (Fin.ofNat 32 k) else .releaseExpiry (Fin.ofNat 32 k)
  | .pulse => .holdExpiry (Fin.ofNat 32 k)
  | .rate | .count | .unlisted _ => .windowExpiry (Fin.ofNat 32 k)

/-- The first node, in table order, of which `p` holds, as its address byte. -/
def State.firstNode (s : State) (p : NodeRec → NodeRun → Bool) : Option Byte :=
  ((s.tables.nodes.zip s.seg.nodes).list.find? fun x => p x.1 x.2).map fun x => BitVec.ofNat 8 x.1.address

/-- What is due of the segment master, the point table and the channel image. -/
def State.dueField (s : State) : Option Instr :=
  if expired s.seg.replyTimer then some (.replyTimeout false)
  else
    match (s.tables.points.zip s.points.runs).first fun _ x => pointDue x.1 x.2 with
    | some p => some (.pointStale (Fin.ofNat 256 p))
    | none =>
      match s.firstNode refreshDue with
      | some a => some (.refreshExpiry a)
      | none => (s.firstNode lapseDue).map .refreshLapse

/-- What is due of the surface watch. -/
def State.dueWatch (s : State) : Option Instr :=
  (((s.tables.watch.zip s.watch.runs).enum.find? fun e => expired e.2.2.timer)).map fun e =>
    watchExpiry e.2.1 e.2.2 e.1

/-- What is due of the fog monitor. -/
def State.dueFog (s : State) : Option Instr :=
  match s.fog.stations.first fun _ r => expired r.timer with
  | some i => some (.patternStepExpiry (Fin.ofNat 8 i))
  | none =>
    if expired s.fog.runTimer then some .dehumidRunExpiry
    else if expired s.fog.restTimer then some .dehumidRestExpiry
    else none

/-- What is due of the heat dispatcher and the zone controller. -/
def State.dueHeat (s : State) : Option Instr :=
  if s.zones.deliveries ≠ [] then some .dispatchResultDelivery
  else if expired s.heat.timer then some .dispatchTimerExpiry
  else none

/-- What is due of the scene store and the cue engine. -/
def State.dueLighting (s : State) : Option Instr :=
  match s.store.completions with
  | b :: _ => some (.activationDelivery (Fin.ofNat 4 b))
  | [] =>
    match s.store.banks.first fun _ k => expired k.settle with
    | some b => some (.settleExpiry (Fin.ofNat 4 b))
    | none => (s.engines.first fun _ e => expired e.timer).map fun b => .fadeStepExpiry (Fin.ofNat 4 b)

/-- What is due of the bracket unit. -/
def State.dueBracket (s : State) : Option Instr :=
  if expired s.bracket.timer then some .bracketTimerExpiry else none

/-- The first expiry or delivery that is due, block by block. Where several are due together the spec lets
either be taken first: DESIGN CHOICE (log 21) for the order. -/
def State.due (s : State) : Option Instr :=
  if !s.live then none
  else if expired s.trunk.silence then some .trunkSilenceExpiry
  else if s.inRun then
    ((((s.dueField.or s.dueWatch).or s.dueFog).or s.dueHeat).or s.dueLighting).or s.dueBracket
  else none

/-! ### One millisecond -/

/-- A running timer runs down. -/
def runDown (t : Option Nat) : Option Nat := t.map fun n => n - 1

/-- R33: the last-SET age of an actuator or mixed node. -/
def ageNode (m : NodeRec) (r : NodeRun) : NodeRun :=
  if m.takesSet then { r with lastSetMs := satSucc r.lastSetMs } else r

/-- R18: the age of a point that is not NEVER. -/
def agePoint (r : PointRun) : PointRun :=
  if r.quality = .never then r else { r with ageMs := satAdd ageTop r.ageMs 1 }

/-- R143: the open time of an open bracket. -/
def BracketUnit.pass (b : BracketUnit) : BracketUnit :=
  { b with
    timer := runDown b.timer
    openMs := if b.state.isOpen then satAdd (100 * Config.top16) b.openMs 1 else b.openMs }

/-- A millisecond of RUN at the segment master. What the image took before it lies behind the next composition (R36). -/
def State.agedSeg (s : State) : Segment :=
  { s.seg with
    replyTimer := runDown s.seg.replyTimer
    log := []
    nodes := (s.tables.nodes.zip s.seg.nodes).map fun x => ageNode x.1 x.2 }

/-- A millisecond of RUN at the point table. -/
def PointUnit.pass (p : PointUnit) : PointUnit := ⟨p.runs.map agePoint, satAdd ageTop p.runMs 1⟩

/-- A millisecond of RUN at the surface watch. -/
def WatchUnit.pass (w : WatchUnit) : WatchUnit :=
  { w with runs := w.runs.map fun r => { r with timer := runDown r.timer } }

/-- A millisecond of RUN at the fog monitor. -/
def FogUnit.pass (f : FogUnit) : FogUnit :=
  { f with
    stations := f.stations.map fun r => { r with timer := runDown r.timer }
    runTimer := runDown f.runTimer
    restTimer := runDown f.restTimer }

/-- A millisecond of RUN at the heat dispatcher. -/
def HeatUnit.pass (h : HeatUnit) : HeatUnit :=
  { h with ageMs := satAdd ageTop h.ageMs 1, timer := runDown h.timer }

/-- A millisecond of RUN at every block. -/
def State.passRun (s : State) : State :=
  { s with
    seg := s.agedSeg
    points := s.points.pass
    watch := s.watch.pass
    fog := s.fog.pass
    heat := s.heat.pass
    store := { s.store with banks := s.store.banks.map fun k => { k with settle := runDown k.settle } }
    engines := s.engines.map fun e => { e with timer := runDown e.timer }
    bracket := s.bracket.pass }

/-- One millisecond passes, with nothing due: every timer and age moves on, those of RUN in RUN only. -/
def State.tick (s : State) : State :=
  if s.live then
    let s := if s.inRun then s.passRun else s
    { s with trunk := { s.trunk with silence := runDown s.trunk.silence } }
  else s

end Sys2Proof.Machine
end

