-- ==== Sys2Proof/Machine/Dispatch.lean ====
section
/-! DEFINITION. One arm per command: the command's effect on everything but the queue of waiting commands. -/

namespace Sys2Proof.Machine

open Sys2Proof

def exec (i : Instr) (s : State) : Host.Outcome State Fault Refusal :=
  match i with
  | .powerOn straps cut => Sys2Proof.Machine.execPowerOn straps cut s
  | .resetPin straps cut => Sys2Proof.Machine.execResetPin straps cut s
  | .softReset straps cut => Sys2Proof.Machine.execSoftReset straps cut s
  | .imageLoad receiving => Sys2Proof.Machine.execImageLoad receiving s
  | .trunkBadFrame => Sys2Proof.Machine.execTrunkBadFrame s
  | .readInfo tag => Sys2Proof.Machine.execReadInfo tag s
  | .readStatus tag => Sys2Proof.Machine.execReadStatus tag s
  | .readTable tag table first count => Sys2Proof.Machine.execReadTable tag table first count s
  | .writeTable tag table first count content => Sys2Proof.Machine.execWriteTable tag table first count content s
  | .clearFlags tag mask value => Sys2Proof.Machine.execClearFlags tag mask value s
  | .enterRun tag receiving => Sys2Proof.Machine.execEnterRun tag receiving s
  | .enterConfig tag => Sys2Proof.Machine.execEnterConfig tag s
  | .saveImage tag => Sys2Proof.Machine.execSaveImage tag s
  | .resetPart tag => Sys2Proof.Machine.execResetPart tag s
  | .setChannel tag channel value direct => Sys2Proof.Machine.execSetChannel tag channel value direct s
  | .setZone tag zone occupied occupiedSet unoccupiedSet => Sys2Proof.Machine.execSetZone tag zone occupied occupiedSet unoccupiedSet s
  | .cue tag bank row fade releaseAfter => Sys2Proof.Machine.execCue tag bank row fade releaseAfter s
  | .releaseBank tag bank => Sys2Proof.Machine.execReleaseBank tag bank s
  | .releaseWatch tag mask => Sys2Proof.Machine.execReleaseWatch tag mask s
  | .openBracket tag kind count strict notify => Sys2Proof.Machine.execOpenBracket tag kind count strict notify s
  | .closeBracket tag => Sys2Proof.Machine.execCloseBracket tag s
  | .abandonBracket tag => Sys2Proof.Machine.execAbandonBracket tag s
  | .trunkFrameSent => Sys2Proof.Machine.execTrunkFrameSent s
  | .trunkSilenceExpiry => Sys2Proof.Machine.execTrunkSilenceExpiry s
  | .pollSent => Sys2Proof.Machine.execPollSent s
  | .goodReport address items => Sys2Proof.Machine.execGoodReport address items s
  | .replyTimeout receiving => Sys2Proof.Machine.execReplyTimeout receiving s
  | .fieldBadFrame => Sys2Proof.Machine.execFieldBadFrame s
  | .setSent receiving => Sys2Proof.Machine.execSetSent receiving s
  | .pointStale point => Sys2Proof.Machine.execPointStale point s
  | .refreshExpiry address => Sys2Proof.Machine.execRefreshExpiry address s
  | .refreshLapse address => Sys2Proof.Machine.execRefreshLapse address s
  | .qualifyExpiry entry => Sys2Proof.Machine.execQualifyExpiry entry s
  | .releaseExpiry entry => Sys2Proof.Machine.execReleaseExpiry entry s
  | .holdExpiry entry => Sys2Proof.Machine.execHoldExpiry entry s
  | .windowExpiry entry => Sys2Proof.Machine.execWindowExpiry entry s
  | .patternStepExpiry station => Sys2Proof.Machine.execPatternStepExpiry station s
  | .dehumidRunExpiry => Sys2Proof.Machine.execDehumidRunExpiry s
  | .dehumidRestExpiry => Sys2Proof.Machine.execDehumidRestExpiry s
  | .dispatchTimerExpiry => Sys2Proof.Machine.execDispatchTimerExpiry s
  | .dispatchResultDelivery => Sys2Proof.Machine.execDispatchResultDelivery s
  | .activateComplete => Sys2Proof.Machine.execActivateComplete s
  | .rowWriteComplete flaws => Sys2Proof.Machine.execRowWriteComplete flaws s
  | .rowReadComplete => Sys2Proof.Machine.execRowReadComplete s
  | .imageSaveComplete flaws => Sys2Proof.Machine.execImageSaveComplete flaws s
  | .activationDelivery bank => Sys2Proof.Machine.execActivationDelivery bank s
  | .settleExpiry bank => Sys2Proof.Machine.execSettleExpiry bank s
  | .fadeStepExpiry engine => Sys2Proof.Machine.execFadeStepExpiry engine s
  | .bracketTimerExpiry => Sys2Proof.Machine.execBracketTimerExpiry s
  | .malformedRequest tag code => Sys2Proof.Machine.execMalformedRequest tag code s
  | .resetPinAsserted cut => Sys2Proof.Machine.execResetPinAsserted cut s
  | .powerFails cut => Sys2Proof.Machine.execPowerFails cut s
  | .ignoredFieldFrameEnd => Sys2Proof.Machine.execIgnoredFieldFrameEnd s

end Sys2Proof.Machine
end

