-- ==== Sys2Proof/Machine/Idle.lean ====
section
/-! DEFINITION. What a step does when no command waits. -/

namespace Sys2Proof.Machine

open Sys2Proof

/-- With no command waiting: what is due by itself, or a millisecond. DESIGN CHOICE (log 21). -/
def State.idle (s : State) : Host.Outcome State Fault Refusal :=
  match s.due with
  | some i => exec i s
  | none => .next s.tick

end Sys2Proof.Machine
end

