-- ==== Sys2Proof/Safety.lean ====
section
/-! DEFINITION. What counts as a safe run: the laws the spec says hold of the part at every moment, and the
runs of the part with commands arriving. Claims are stated in these terms. -/

namespace Sys2Proof

/-- The commands that a part without supply, or held in reset, still takes: what reaches it through a pin or
the supply. -/
def Instr.external : Instr → Bool
  | .powerOn _ _ | .resetPin _ _ | .resetPinAsserted _ | .powerFails _ => true
  | _ => false

/-- The commands that carry a request with a good frame. -/
def Instr.isRequest : Instr → Bool
  | .readInfo _ | .readStatus _ | .readTable _ _ _ _ | .writeTable _ _ _ _ _ | .clearFlags _ _ _ | .enterRun _ _
  | .enterConfig _ | .saveImage _ | .resetPart _ | .setChannel _ _ _ _ | .setZone _ _ _ _ _ | .cue _ _ _ _ _
  | .releaseBank _ _ | .releaseWatch _ _ | .openBracket _ _ _ _ _ | .closeBracket _ | .abandonBracket _
  | .malformedRequest _ _ => true
  | _ => false

/-- The commands that start or stop the part. -/
def Instr.restarts : Instr → Bool
  | .powerOn _ _ | .resetPin _ _ | .softReset _ _ | .resetPinAsserted _ | .powerFails _ | .trunkFrameSent => true
  | _ => false

end Sys2Proof

namespace Sys2Proof.Machine

open Sys2Proof

/-! ### Runs -/

/-- A command arrives and waits behind the others. -/
def State.send (s : State) (c : Instr) : State := { s with pending := s.pending ++ [c] }

/-- `Reaches s t`: from `s`, commands arriving and steps made in some order lead to `t`. -/
inductive Reaches : State → State → Prop
  | refl (s : State) : Reaches s s
  | send {s t : State} (c : Instr) (h : Reaches s t) : Reaches s (t.send c)
  | step {s t u : State} (h : Reaches s t) (hu : step t = .next u) : Reaches s u

/-- R159: the part runs and has room for the reply of a request that arrives now. -/
def State.receives (s : State) : Prop := s.live = true ∧ s.replyRoomFull = false

/-- R159: a request that arrives now is passed to the rule of its own. -/
def State.serves (s : State) : Prop := s.receives ∧ s.loader.op ≠ .loading

/-- R159, and R144: the same, with no bracket open. -/
def State.servesFreely (s : State) : Prop := s.serves ∧ s.bracket.state.isOpen = false

/-- A property that every step keeps. -/
def KeptByStep (p : State → Prop) : Prop := ∀ s t, p s → step s = .next t → p t

/-- What an event of the surface watch leaves as it was, whatever it does to the entries and the guard level: all
but the channel image, the urgent queue, the bracket and the trunk interface, and, where the guard level stays,
those but the last too (R58). -/
def State.besideGuard (s t : State) : Prop :=
  t = { s with
    watch := t.watch
    image := t.image
    seg := { s.seg with urgent := t.seg.urgent, log := t.seg.log }
    bracket := t.bracket
    trunk := t.trunk } ∧
  (t.watch.guard = s.watch.guard → t = { s with watch := t.watch, trunk := t.trunk })

/-! ### RUN validation, said as what each table must be (R178) -/

/-- R24: a reference names a mapped channel of its owner that no reference before it names. -/
def Tables.refFits (t : Tables) (owner : Owner) (earlier : List Nat) (ch : Nat) : Prop :=
  ch < 512 ∧ (t.channels.get ch).mapped = true ∧ (t.channels.get ch).owner = owner ∧ ch ∉ earlier

/-- R63, R81, R83, R100: a point that must be mapped and of this unit kind. -/
def Tables.pointFits (t : Tables) (u : UnitKind) (point : Option Nat) : Prop :=
  ∃ p, point = some p ∧ p < 256 ∧ (t.points.get p).mapped = true ∧ (t.points.get p).unitKind = u

/-- R42 case 7: the fields that the entry's mode reads, and its severity, latch and chain. -/
def WatchRec.modeFits (r : WatchRec) : Prop :=
  ((r.mode = .delay ∧ r.qualify ≤ 3600 ∧ r.release ≤ 3600 ∧ r.edge ∈ [.enter, .leave, .both, .neither]) ∨
    (r.mode = .pulse ∧ 1 ≤ r.hold ∧ r.hold ≤ 3600) ∨
    ((r.mode = .rate ∨ r.mode = .count) ∧ 10 ≤ r.window ∧ r.window ≤ 86400 ∧ 1 ≤ r.limit ∧ r.limit ≤ 255)) ∧
  r.severity ∈ [.advisory, .warm, .critical] ∧ (r.latch = 0 ∨ r.latch = 1) ∧ (r.chain = 0 ∨ r.chain = 1)

/-- R42 cases 3 to 5 and 7: the fields an unchained in-use entry is fed by. -/
def Tables.inputFits (t : Tables) (r : WatchRec) : Prop :=
  r.point.value < 256 ∧ (t.points.get r.point.value).mapped = true ∧ (r.point.present = 0 ∨ r.point.present = 1) ∧
  r.threshold ≤ 31 ∧ r.compare ∈ [.above, .below, .outside] ∧ r.stale ∈ [.hold, .trip, .clear] ∧
  (r.compare = .outside → r.highThreshold ≤ 31 ∧
    t.thresholds.get r.threshold + r.hysteresis ≤ t.thresholds.get r.highThreshold - r.hysteresis)

/-- R64: the fields of the tune entry of an in-use station, but its fan channel. -/
def FogTuneRec.fits (r : FogTuneRec) : Prop :=
  -100 ≤ r.warn ∧ r.warn ≤ 300 ∧ -100 ≤ r.risk ∧ r.risk ≤ r.warn ∧ r.hysteresis ≤ 50 ∧ r.watchDemand ≤ 4000 ∧
  r.riskDemand ≤ 4000 ∧ (r.fan.present = 0 ∨ r.fan.present = 1) ∧ r.fanLevel ≤ 1000 ∧ 1 ≤ r.period ∧ r.period ≤ 60

/-- R64: entry 8. -/
def DehumidTimes.fits (r : DehumidTimes) : Prop :=
  60 ≤ r.minRun ∧ r.minRun ≤ 3600 ∧ 60 ≤ r.minRest ∧ r.minRest ≤ 3600

/-- R81. -/
def Tables.dispatchFits (t : Tables) (r : DispatchRec) : Prop :=
  t.pointFits .flow r.flow.get ∧ t.pointFits .temp r.supply.get ∧ t.pointFits .temp r.ret.get ∧
  r.supply.get ≠ r.ret.get ∧ 1000 ≤ r.factor ∧ r.factor ≤ 5000 ∧ 5 ≤ r.period ∧ r.period ≤ 120 ∧
  (r.trigger = .arrivals → 1 ≤ r.arrivalCount ∧ r.arrivalCount ≤ 16)

/-- R84: the fields that a sink of this kind reads. -/
def SinkTuneRec.fits (r : SinkTuneRec) (kind : SinkKind) : Prop :=
  r.sinkClass ≤ 3 ∧ 1 ≤ r.weight ∧ r.weight ≤ 15 ∧ 1 ≤ r.slew ∧ r.slew ≤ 1000 ∧
  (kind = .proportional → -400 ≤ r.setpoint ∧ r.setpoint ≤ 600 ∧ r.gain ≤ 200) ∧
  (kind = .fixed → r.fixedDemand ≤ 4000)

/-- R101. -/
def ZoneSetRec.fits (r : ZoneSetRec) : Prop :=
  -400 ≤ r.occupiedSet ∧ r.occupiedSet ≤ 600 ∧ -400 ≤ r.unoccupiedSet ∧ r.unoccupiedSet ≤ 600 ∧
  (r.occupied = 0 ∨ r.occupied = 1) ∧ r.gain ≤ 200 ∧ r.fallback ≤ 4000

/-- R127. -/
def ProfileRec.fits (r : ProfileRec) : Prop := r.period ∈ [10, 20, 50] ∧ r.curve ∈ [.linear, .square]

/-- Entry `i` of a table passes the checks of its chapter (R2, R13, R23, R42, R62, R63, R64, R81, R83, R84, R100,
R101, R127, R163). SCHEDULE is checked as a whole. -/
def Tables.entryFits (t : Tables) : TableId → Nat → Prop
  | .nodes, i =>
    let r := t.nodes.get i
    r.present = true → 1 ≤ r.address ∧ r.address ≤ 62 ∧
      (∀ j, j < i → (t.nodes.get j).present = true → (t.nodes.get j).address ≠ r.address) ∧
      1 ≤ r.silent ∧ r.silent ≤ 15 ∧ r.silent ≤ r.offline ∧ r.offline ≤ 15 ∧
      (r.kind = .actuator ∨ r.kind = .mixed → 1 ≤ r.refresh ∧ r.refresh ≤ 60)
  | .points, i =>
    let r := t.points.get i
    r.mapped = true → (∃ n, t.nodeOf r.node = some n ∧ n.kind ≠ .actuator) ∧
      (∀ j, j < i → (t.points.get j).mapped = true →
        ¬((t.points.get j).node = r.node ∧ (t.points.get j).index = r.index)) ∧
      r.low ≤ r.high ∧ 1 ≤ r.maxAge ∧ r.maxAge ≤ 600 ∧ r.deadband ≤ 1000
  | .channels, i =>
    let r := t.channels.get i
    r.mapped = true → (∃ n, t.nodeOf r.node = some n ∧ n.kind ≠ .sensor) ∧ r.nodeChannel ≤ 15 ∧
      (∀ j, j < i → (t.channels.get j).mapped = true →
        ¬((t.channels.get j).node = r.node ∧ (t.channels.get j).nodeChannel = r.nodeChannel)) ∧
      r.floor ≤ r.ceiling ∧ r.ceiling ≤ 1000 ∧ r.criticalCap ≤ r.warmCap ∧ r.warmCap ≤ 1000 ∧ r.start ≤ 1000
  | .watch, k =>
    let r := t.watch.get k
    (isSet r.chain = true → k ≠ 31 ∧ (t.watch.get (k + 1)).mode = .count ∧ t.watchInUse k = true) ∧
    (t.watchInUse k = true → (t.chained k = false → t.inputFits r) ∧ r.hysteresis ≤ 1000 ∧ r.modeFits)
  | .fogMap, i =>
    if i < 8 then
      let r := t.fogMap.get i
      (t.pointFits .rh r.humidity.get ∧ t.pointFits .temp r.air.get ∧ t.pointFits .temp r.chill.get ∧
        r.air.get ≠ r.chill.get) ∨ (r.humidity.get = none ∧ r.air.get = none ∧ r.chill.get = none)
    else ∀ ch, t.motor.get = some ch → t.refFits .fog [] ch
  | .saturation, i =>
    (∃ j, t.stationInUse j = true) →
      1 ≤ t.saturation.get i ∧ t.saturation.get i ≤ 16777215 ∧ (i < 100 → t.saturation.get i < t.saturation.get (i + 1))
  | .fogTune, i =>
    if i < 8 then
      t.stationInUse i = true → (t.fogTune.get i).fits ∧
        ∀ ch, (t.fogTune.get i).fan.get = some ch → t.refFits .fog (t.motorRefs ++ t.fanRefs (List.range i)) ch
    else t.dehumid.fits
  | .sinkMap, i =>
    let r := t.sinkMap.get i
    r.kind ≠ .unused → 1 ≤ r.capacity ∧ r.capacity ≤ 4000 ∧
      (r.kind = .zones ∨ r.kind = .dehumid → ∀ j, j < i → (t.sinkMap.get j).kind ≠ r.kind) ∧
      (r.kind = .proportional → t.pointFits .temp (some r.input)) ∧
      ∀ ch, r.valve.get = some ch →
        t.refFits .dispatch (t.motorRefs ++ t.fanRefs (List.range 8) ++ t.valveRefs (List.range i)) ch
  | .dispatch, _ => (∃ i, t.sinkInUse i = true) → t.dispatchFits t.dispatch
  | .sinkTune, i => t.sinkInUse i = true → (t.sinkTune.get i).fits (t.sinkMap.get i).kind
  | .zoneMap, z =>
    let r := t.zoneMap.get z
    let earlier := t.motorRefs ++ t.fanRefs (List.range 8) ++ t.valveRefs (List.range 8) ++ t.zoneRefs (List.range z)
    r.point.given = true → t.pointFits .temp r.point.get ∧ 1 ≤ r.coilCapacity ∧ r.coilCapacity ≤ 2000 ∧
      1 ≤ r.primaryCapacity ∧ r.primaryCapacity ≤ 2000 ∧ t.refFits .zones earlier r.coil ∧
      t.refFits .zones (r.coil :: earlier) r.primary ∧
      (isSet r.iceAdjacent = true →
        isSet (t.channels.get r.coil).heatBearing = true ∧ isSet (t.channels.get r.primary).heatBearing = true)
  | .zoneSet, z => t.zoneInUse z = true → (t.zoneSet.get z).fits
  | .timers, _ =>
    1 ≤ t.timers.bracketLimit ∧ t.timers.bracketLimit ≤ 600 ∧ 1 ≤ t.timers.silenceLimit ∧ t.timers.silenceLimit ≤ 60
  | .lightProfile, _ => t.profile.fits
  | .schedule, _ | .thresholds, _ | .flagEnables, _ | .scenes, _ | .info, _ | .nodeState, _ | .pointValues, _
  | .channelValues, _ | .watchState, _ | .fogResult, _ | .dispatchResult, _ | .zoneResult, _ | .bankState, _
  | .abortRecord, _ => True

/-- R6: SCHEDULE passes its checks. -/
def Tables.scheduleFits (t : Tables) : Prop :=
  let h := t.scheduleHead
  1 ≤ h.slotCount ∧ h.slotCount ≤ 128 ∧ h.bitRate ≤ 3 ∧ 2 ≤ h.replyTimeout ∧ h.replyTimeout ≤ 100 ∧
  (∀ i, i < h.slotCount →
    ((t.slots.get i).kind = .poll → ∃ n, t.nodeOf (t.slots.get i).address = some n ∧ n.kind ≠ .actuator) ∧
    ((t.slots.get i).kind = .set → ∃ n, t.nodeOf (t.slots.get i).address = some n ∧ n.kind ≠ .sensor)) ∧
  ∃ i, i < h.slotCount ∧ ((t.slots.get i).kind = .poll ∨ (t.slots.get i).kind = .set)

/-- R178: a table passes. -/
def Tables.fits (t : Tables) (id : TableId) : Prop :=
  if id = .schedule then t.scheduleFits else ∀ i, i < id.entries → t.entryFits id i

/-- R178: the tables that are checked, in their order. -/
def validationOrder : List TableId :=
  [.nodes, .points, .channels, .schedule, .watch, .fogMap, .saturation, .fogTune, .sinkMap, .dispatch, .sinkTune,
    .zoneMap, .zoneSet, .timers, .lightProfile]

/-! ### The surface watch at an edge of its condition (R46, R48, R49) -/

/-- The run fields `now` of an entry whose run fields were `w` when its condition flag takes the value `c`. -/
def WatchRec.edgeGives (r : WatchRec) (w : WatchRun) (c : Bool) (now : WatchRun) : Prop :=
  let n := min 255 (w.count + 1)
  (c = w.cond → now = w) ∧
  (w.cond = false → c = true →
    (r.mode = .delay →
      (w.state = .idle → (r.edge = .enter ∨ r.edge = .both) → 0 < r.qualify →
        now = { w with cond := true, state := .qualifying, timer := some (1000 * r.qualify) }) ∧
      (w.state = .idle → ((r.edge ≠ .enter ∧ r.edge ≠ .both) ∨ r.qualify = 0) →
        now = { w with cond := true, state := .tripped }) ∧
      (w.state = .releasing → now = { w with cond := true, state := .tripped, timer := none }) ∧
      (w.state = .latched → now = { w with cond := true })) ∧
    (r.mode = .pulse →
      (w.state = .idle ∨ w.state = .tripped →
        now = { w with cond := true, state := .tripped, timer := some (1000 * r.hold) }) ∧
      (w.state = .latched → now = { w with cond := true })) ∧
    (r.mode = .rate ∨ r.mode = .count →
      now = { w with
        cond := true
        count := n
        state := if w.state = .idle ∧ r.limit ≤ n then .tripped else w.state })) ∧
  (w.cond = true → c = false →
    (r.mode = .delay →
      (w.state = .qualifying → now = { w with cond := false, state := .idle, timer := none }) ∧
      (w.state = .tripped → isSet r.latch = true → now = { w with cond := false, state := .latched, timer := none }) ∧
      (w.state = .tripped → isSet r.latch = false → (r.edge = .leave ∨ r.edge = .both) → 0 < r.release →
        now = { w with cond := false, state := .releasing, timer := some (1000 * r.release) }) ∧
      (w.state = .tripped → isSet r.latch = false → ((r.edge ≠ .leave ∧ r.edge ≠ .both) ∨ r.release = 0) →
        now = { w with cond := false, state := .idle, timer := none }) ∧
      (w.state = .latched → now = { w with cond := false })) ∧
    (r.mode = .pulse ∨ r.mode = .rate ∨ r.mode = .count → now = { w with cond := false }))

/-! ### A class shared by weight (R94) -/

/-- R94: `grant` shares the heat `rc` among the sinks of `u`: those whose share by weight reaches their demand are granted
it and leave, round by round, and the last round gives each sink left its share and 1 kW of the residual to each of
the first of them. -/
inductive SharedByWeight : Nat → List Claim → (Nat → Nat) → Prop
  | last {rc : Nat} {u : List Claim} {grant : Nat → Nat}
      (below : ∀ c ∈ u, rc * c.weight / (u.map Claim.weight).sum < c.demand)
      (given : ∀ i c, u[i]? = some c → grant c.sink = rc * c.weight / (u.map Claim.weight).sum +
        if i < rc - (u.map fun c => rc * c.weight / (u.map Claim.weight).sum).sum then 1 else 0) :
      SharedByWeight rc u grant
  | round {rc : Nat} {u capped left : List Claim} {grant : Nat → Nat}
      (split : capped = u.filter (fun c => decide (c.demand ≤ rc * c.weight / (u.map Claim.weight).sum)) ∧
        left = u.filter (fun c => !decide (c.demand ≤ rc * c.weight / (u.map Claim.weight).sum)))
      (some_ : capped ≠ []) (served : ∀ c ∈ capped, grant c.sink = c.demand)
      (rest : SharedByWeight (rc - (capped.map Claim.demand).sum) left grant) : SharedByWeight rc u grant

/-! ### Presence bytes (R173 point 5) -/

/-- R173 point 5: where the presence bytes stand in entry `i` of a table that may be written. The value behind each takes two
bytes. -/
def TableId.presenceBytes : TableId → Nat → List Nat
  | .watch, _ | .zoneMap, _ => [0]
  | .fogMap, i => if i < 8 then [0, 3, 6] else [0]
  | .sinkMap, _ => [3]
  | .fogTune, i => if i < 8 then [10] else []
  | .dispatch, _ => [0, 3, 6]
  | _, _ => []

/-! ### The serial memory -/

/-- The image region is in its canonical form. -/
def State.memoryLaw (s : State) : Prop := Memory.wf s.memory.image

/-! ### Queues (R115, R117, R143, R160, R167) -/

/-- The replies held and the places reserved for long requests are at most 8, the long requests at most 2,
the memory port queue at most 8, the reports and notices at most 16, the stage at most 64. -/
def State.queueLaw (s : State) : Prop :=
  s.trunk.replies.length + s.longCount ≤ 8 ∧ s.longCount ≤ 2 ∧ s.store.queue.length ≤ 8 ∧
    s.trunk.reports.length ≤ 16 ∧ s.bracket.stage.length ≤ 64

/-- R31: the urgent queue never holds the same node twice. -/
def State.urgentLaw (s : State) : Prop := (s.seg.urgent.map UrgentEntry.address).Nodup

/-! ### The channel image (R22, R27) -/

/-- R27: in RUN every mapped channel's commanded value is its demand clamped under the guard level that
stands; R22: an unmapped channel's run fields are 0. -/
def State.commandedLaw (s : State) : Prop :=
  s.inRun = true → ∀ ch, ch < 512 →
    ((s.tables.channels.get ch).mapped = true →
      (s.image.get ch).commanded = (s.tables.channels.get ch).commandedFor s.watch.guard (s.image.get ch).demand) ∧
    ((s.tables.channels.get ch).mapped = false → s.image.get ch = ⟨0, 0⟩)

/-! ### The surface watch (R43, R57) -/

/-- R57: the guard level is always the highest severity among the TRIPPED and LATCHED entries; R43, R59:
outside RUN every entry is IDLE and the level NORMAL. -/
def State.guardLaw (s : State) : Prop :=
  s.watch.guard = guardOf s.tables s.watch.runs ∧
    (s.inRun = false → s.watch.guard = .normal ∧ ∀ w ∈ s.watch.runs.list, w.state = .idle)

/-! ### The bracket unit (R143, R145) -/

/-- R145: no bracket is open at guard level CRITICAL, nor outside RUN. R143: the stage is empty unless one is
open, and a COUNTED bracket holds the items it has counted, fewer than it declared. -/
def State.bracketLaw (s : State) : Prop :=
  match s.bracket.state with
  | .idle => s.bracket.stage = []
  | .aborted r => s.bracket.stage = [] ∧ 1 ≤ r ∧ r ≤ 4
  | .opened d => s.inRun = true ∧ s.watch.guard ≠ .critical ∧ 1 ≤ d ∧ d ≤ 4
  | .counted n k => s.inRun = true ∧ s.watch.guard ≠ .critical ∧ s.bracket.stage.length = k ∧ k < n ∧ n ≤ 8

/-! ### The point table (R18) -/

/-- R18: in RUN a point is GOOD or SUSPECT only while its age does not exceed its max age. -/
def State.ageLaw (s : State) : Prop :=
  s.inRun = true → ∀ p, p < 256 → (s.points.runs.get p).quality.usable = true →
    (s.points.runs.get p).ageMs ≤ 1000 * (s.tables.points.get p).maxAge

/-! ### All of them -/

/-- The laws together. -/
structure State.Lawful (s : State) : Prop where
  memory : s.memoryLaw
  queues : s.queueLaw
  urgent : s.urgentLaw
  commanded : s.commandedLaw
  guard : s.guardLaw
  bracket : s.bracketLaw
  ages : s.ageLaw

end Sys2Proof.Machine
end

