-- ==== Sys2Proof/WellFormed.lean ====
section
/-! DEFINITION. What makes a command well formed: the operands stand within what the frame layouts of
R172 and the capacities of section 4 let a frame or an event carry. -/

namespace Sys2Proof

/-- R8: a REPORT holds 1 to 12 items. -/
def itemsWellFormed (items : List Item) : Bool :=
  decide (1 ≤ items.length) && decide (items.length ≤ 12)

/-- R172: the length field counts the kind, the tag, the request code, the five bytes of table, first
entry and count, and the content, and is at most 1,024. -/
def contentWellFormed (content : List Byte) : Bool :=
  decide (content.length + 8 ≤ Config.trunkLength)

/-- Bytes of a scene row's place, its check included (R173 point 7), that a write can spoil. -/
def rowFlawsWellFormed (flaws : List (Nat × Byte)) : Bool := flaws.all fun f => decide (f.1 < 197)

/-- Bytes of the image region (R176) that a write can spoil. -/
def imageFlawsWellFormed (flaws : List (Nat × Byte)) : Bool :=
  flaws.all fun f => decide (f.1 < Config.imageRegion)

/-- R2: a node address is 1 to 62. -/
def addressWellFormed (address : Byte) : Bool := decide (1 ≤ address.toNat) && decide (address.toNat ≤ 62)

/-- The command's operands are such as a frame or an event can carry. -/
def Instr.wellFormed : Instr → Bool
  | .writeTable _ _ _ _ content => contentWellFormed content
  | .goodReport address items => addressWellFormed address && itemsWellFormed items
  | .refreshExpiry address => addressWellFormed address
  | .refreshLapse address => addressWellFormed address
  | .rowWriteComplete flaws => rowFlawsWellFormed flaws
  | .imageSaveComplete flaws => imageFlawsWellFormed flaws
  | .powerOn _ _ | .resetPin _ _ | .softReset _ _ | .imageLoad _ | .trunkBadFrame => true
  | .readInfo _ | .readStatus _ | .readTable _ _ _ _ | .clearFlags _ _ _ | .enterRun _ _ => true
  | .enterConfig _ | .saveImage _ | .resetPart _ | .setChannel _ _ _ _ | .setZone _ _ _ _ _ => true
  | .cue _ _ _ _ _ | .releaseBank _ _ | .releaseWatch _ _ | .openBracket _ _ _ _ _ => true
  | .closeBracket _ | .abandonBracket _ | .trunkFrameSent | .trunkSilenceExpiry | .pollSent => true
  | .replyTimeout _ | .fieldBadFrame | .setSent _ | .pointStale _ => true
  | .qualifyExpiry _ | .releaseExpiry _ | .holdExpiry _ | .windowExpiry _ => true
  | .patternStepExpiry _ | .dehumidRunExpiry | .dehumidRestExpiry | .dispatchTimerExpiry => true
  | .dispatchResultDelivery | .activateComplete | .rowReadComplete | .activationDelivery _ => true
  | .settleExpiry _ | .fadeStepExpiry _ | .bracketTimerExpiry | .malformedRequest _ _ => true
  | .resetPinAsserted _ | .powerFails _ | .ignoredFieldFrameEnd => true

end Sys2Proof
end

