-- ==== Sys2Proof/Certificates/Slice0/Obligations.lean ====
section
/-! DEFINITION. The statements for the provers, chapter by chapter. A statement whose docstring names a log rests
on a choice of the model; every other follows the rules it names. -/

open Sys2Proof Sys2Proof.Machine

/-! ### The step -/

/-- A step with a command at the front of the queue runs that command on the part with the rest of the queue. -/
def Obligations.StepRunsFront : Prop :=
  ∀ (c : Instr) (rest : List Instr) (s : State), s.pending = c :: rest →
    step s = exec c { s with pending := rest }

/-- Every command leaves a next state and none touches the queue of those that wait. The serial memory, the tables,
the operating state and what the part sampled at its start change by no other command than those whose rules say so.
That a command whose event cannot arise in the state at hand answers that state is the model's choice (log 22). -/
def Obligations.CommandsAnswer : Prop :=
  (∀ (c : Instr) (s : State), ∃ t, exec c s = .next t ∧ t.pending = s.pending) ∧
  (∀ (c : Instr) (s t : State), exec c s = .next t → c.restarts = false →
    t.power = s.power ∧
    ((∀ f, c ≠ .rowWriteComplete f) → (∀ f, c ≠ .imageSaveComplete f) → t.memory = s.memory) ∧
    ((∀ f, c ≠ .imageLoad f) → (∀ tag table first count content, c ≠ .writeTable tag table first count content) →
      (∀ tag z o a b, c ≠ .setZone tag z o a b) → s.bracket.stage = [] → t.tables = s.tables) ∧
    ((∀ f, c ≠ .imageLoad f) → (∀ tag r, c ≠ .enterRun tag r) → (∀ tag, c ≠ .enterConfig tag) →
      t.loader.op = s.loader.op))

/-- With no command waiting the part's own time goes on: what is due is taken, or a millisecond passes; in RUN it moves
every timer and every age on. Due is a running timer at 0, an age at its max age, its refresh period or its lapse
bound, a completion or a dispatch result that waits, each with the command that takes it; of several the first in a
fixed order, and nothing where there is none. The model's choice (log 21), that order included, and so are that the
open time stands still while no bracket is open (log 51) and that a millisecond that passes in RUN puts every write
before it behind the next composition (log 50). -/
def Obligations.IdleStep : Prop :=
  (∀ s : State,
    let out := fun timer : Option Nat => timer == some 0
    let address := fun i => BitVec.ofNat 8 (s.tables.nodes.get i).address
    let timed : List (Bool × Instr) :=
      [(out s.seg.replyTimer, .replyTimeout false)] ++
      ((List.range 256).map fun p =>
        let r := s.points.runs.get p
        (decide (r.quality ≠ .never ∧ r.quality ≠ .stale ∧ 1000 * (s.tables.points.get p).maxAge ≤ r.ageMs),
          .pointStale (Fin.ofNat 256 p))) ++
      ((List.range 48).map fun i =>
        let r := s.seg.nodes.get i
        (decide ((s.tables.nodes.get i).takesSet = true ∧ r.refreshed = false ∧
          1000 * (s.tables.nodes.get i).refresh ≤ r.lastSetMs), .refreshExpiry (address i))) ++
      ((List.range 48).map fun i =>
        let r := s.seg.nodes.get i
        (decide ((s.tables.nodes.get i).takesSet = true ∧ r.lapse = false ∧
          min 65535 (2000 * (s.tables.nodes.get i).refresh + 1) ≤ r.lastSetMs), .refreshLapse (address i))) ++
      ((List.range 32).map fun k => (out (s.watch.runs.get k).timer,
        match (s.tables.watch.get k).mode with
        | .delay => if (s.watch.runs.get k).state = .qualifying then .qualifyExpiry (Fin.ofNat 32 k)
          else .releaseExpiry (Fin.ofNat 32 k)
        | .pulse => .holdExpiry (Fin.ofNat 32 k)
        | .rate | .count | .unlisted _ => .windowExpiry (Fin.ofNat 32 k))) ++
      ((List.range 8).map fun i => (out (s.fog.stations.get i).timer, .patternStepExpiry (Fin.ofNat 8 i))) ++
      [(out s.fog.runTimer, .dehumidRunExpiry), (out s.fog.restTimer, .dehumidRestExpiry),
        (decide (s.zones.deliveries ≠ []), .dispatchResultDelivery), (out s.heat.timer, .dispatchTimerExpiry)] ++
      (s.store.completions.map fun b => (true, .activationDelivery (Fin.ofNat 4 b))) ++
      ((List.range 4).map fun b => (out (s.bank b).settle, .settleExpiry (Fin.ofNat 4 b))) ++
      ((List.range 4).map fun b => (out (s.engine b).timer, .fadeStepExpiry (Fin.ofNat 4 b))) ++
      [(out s.bracket.timer, .bracketTimerExpiry)]
    let events := if s.live = true then
        (out s.trunk.silence, .trunkSilenceExpiry) :: if s.inRun = true then timed else []
      else []
    s.due = (events.find? Prod.fst).map Prod.snd ∧
    (s.due = none ↔ ∀ e ∈ events, e.1 = false)) ∧
  ∀ s : State, s.pending = [] →
    (∀ c, s.due = some c → step s = exec c s) ∧
    (s.due = none → s.live = true → ∃ t, step s = .next t ∧
      t.trunk = { s.trunk with silence := s.trunk.silence.map (· - 1) } ∧
      (s.inRun = true →
        t.seg.log = [] ∧ t.seg.replyTimer = s.seg.replyTimer.map (· - 1) ∧ t.bracket.timer = s.bracket.timer.map (· - 1) ∧
        t.heat.timer = s.heat.timer.map (· - 1) ∧ t.fog.runTimer = s.fog.runTimer.map (· - 1) ∧
        t.fog.restTimer = s.fog.restTimer.map (· - 1)) ∧
      (s.inRun = false → t = { s with trunk := t.trunk }) ∧
      t.tables = s.tables ∧ t.memory = s.memory ∧ t.image = s.image ∧ t.zones = s.zones ∧ t.loader = s.loader ∧
      t.power = s.power ∧ t.seg.urgent = s.seg.urgent ∧ t.watch.guard = s.watch.guard ∧
      (s.inRun = true →
        (∀ p, p < 256 → t.points.runs.get p = if (s.points.runs.get p).quality = .never then s.points.runs.get p
          else { s.points.runs.get p with ageMs := min 65535000 ((s.points.runs.get p).ageMs + 1) }) ∧
        t.points.runMs = min 65535000 (s.points.runMs + 1) ∧
        (∀ i, i < 48 → t.seg.nodes.get i = if (s.tables.nodes.get i).takesSet = true then
            { s.seg.nodes.get i with lastSetMs := min 65535 ((s.seg.nodes.get i).lastSetMs + 1) }
          else s.seg.nodes.get i) ∧
        (∀ k, k < 32 → t.watch.runs.get k =
          { s.watch.runs.get k with timer := (s.watch.runs.get k).timer.map (· - 1) }) ∧
        (∀ i, i < 8 → t.fog.stations.get i =
          { s.fog.stations.get i with timer := (s.fog.stations.get i).timer.map (· - 1) }) ∧
        (∀ b, b < 4 → t.bank b = { s.bank b with settle := (s.bank b).settle.map (· - 1) } ∧
          t.engine b = { s.engine b with timer := (s.engine b).timer.map (· - 1) }) ∧
        t.heat.ageMs = min 65535000 (s.heat.ageMs + 1) ∧
        t.bracket.openMs =
          if s.bracket.state.isOpen = true then min 6553500 (s.bracket.openMs + 1) else s.bracket.openMs))

/-! ### Resets, the pin and the supply (R175, R180) -/

/-- The three resets: every block at its reset values, the straps sampled, the cause recorded. That POWER_ON at a
part that has its supply, and RESET_PIN where the pin is not asserted, start the part all the same is the model's
choice (log 34). A POWER_ON that finds the RESET pin asserted holds the part in reset, with the memory as the operation cut
off left it, and the release of the pin then starts it with cause POWER. What a part held in reset holds, CONFIG, released
lines and no ATTN, is the model's choice (log 18). -/
def Obligations.ResetsStart : Prop :=
  ∀ (s : State) (straps : Straps) (cut : Nat),
    (s.power.pinAsserted = false →
      exec (.powerOn straps cut) s = .next (State.started s.pending (s.cutMemory cut) straps .power)) ∧
    (s.power.supply = true →
      exec (.resetPin straps cut) s =
        .next (State.started s.pending (s.cutMemory cut) straps (if s.power.powerHeld then .power else .pin))) ∧
    (∀ (tag : Byte) (data : List Byte) (rest : List Reply), s.live = true → s.trunk.sending = .reply →
      s.trunk.replies = ⟨tag, 0x09, .done, data⟩ :: rest →
      exec (.softReset straps cut) s = .next (State.started s.pending (s.cutMemory cut) straps .soft)) ∧
    (s.power.pinAsserted = true → ∃ t, exec (.powerOn straps cut) s = .next t ∧ t.live = false ∧
      t.power = { s.power with supply := true, powerHeld := true } ∧ t.memory = s.cutMemory cut ∧
      t.pending = s.pending ∧ t.inRun = false ∧ t.frameOnTrunk = none ∧ t.frameOnField = none ∧ t.attn = false ∧
      ∀ (found : Straps) (n : Nat),
        exec (.resetPin found n) t = .next (State.started s.pending (s.cutMemory cut) found .power)) ∧
    (s.power.supply = false →
      exec (.resetPin straps cut) s = .next { s with power := { s.power with pinAsserted := false } })

/-- What a reset leaves, at the values the rules of each chapter give, the tables empty. That the cleared bracket kind is
OPEN is the model's choice (log 42), and so are the open time 0 (log 51), the empty log of the image's events (log 50), that
an empty entry of NODES holds zeros (log 3), and the fields of an empty entry of WATCH but for its point and its flags (log
38), of SINK_MAP but for its kind and of ZONE_MAP but for its point (log 48). -/
def Obligations.ResetValues : Prop :=
  ∀ (pending : List Instr) (memory : SerialMemory) (straps : Straps) (cause : ResetCause),
    let s := State.started pending memory straps cause
    s.power.straps = straps ∧ s.power.cause = cause ∧ s.live = true ∧
    s.loader = ⟨if straps.boot = .auto then .loading else .config, .notLoaded⟩ ∧
    (s.tables.timers = ⟨600, 60⟩ ∧ s.tables.enables = 0xFFFF ∧ s.tables.profile = ⟨20, .linear⟩ ∧
      s.tables.dehumid = ⟨60, 60⟩ ∧ (∀ k, k < 32 → s.tables.thresholds.get k = 0) ∧
      (∀ i, i < 8 → s.tables.sinkTune.get i = ⟨0, 1, 0, 0, 0, 1000⟩)) ∧
    ((∀ i, i < 48 → s.tables.nodes.get i = ⟨0, .sensor, 0, 0, 0⟩) ∧
      (∀ p, p < 256 → s.tables.points.get p = ⟨0, 0, .temp, 0, 0, 0, 0, 0⟩) ∧
      (∀ k, k < 32 → s.tables.watch.get k =
        ⟨⟨0, 0⟩, .above, 0, 0, 0, .delay, .enter, 0, 0, 0, 0, 0, .advisory, 0, .hold, 0⟩) ∧
      (∀ i, i < 101 → s.tables.saturation.get i = 0) ∧
      (∀ i, i < 8 → s.tables.fogMap.get i = ⟨⟨0, 0⟩, ⟨0, 0⟩, ⟨0, 0⟩⟩) ∧ s.tables.motor = ⟨0, 0⟩ ∧
      (∀ i, i < 8 → s.tables.sinkMap.get i = ⟨.unused, 0, ⟨0, 0⟩, 0, 0⟩) ∧
      (∀ z, z < 16 → s.tables.zoneMap.get z = ⟨⟨0, 0⟩, 0, 0, 0, 0, 0⟩) ∧
      (∀ ch, ch < 512 → s.tables.channels.get ch = ⟨.unowned, 0, 0, 0, 0, 0, 0, 0, 0⟩) ∧
      s.tables.scheduleHead = ⟨0, 0, 0⟩ ∧ (∀ i, i < 128 → s.tables.slots.get i = ⟨.free, 0⟩) ∧
      (∀ i, i < 8 → s.tables.fogTune.get i = ⟨0, 0, 0, 0, 0, ⟨0, 0⟩, 0, 0, 0, 0, 1⟩) ∧
      s.tables.dispatch = ⟨⟨0, 0⟩, ⟨0, 0⟩, ⟨0, 0⟩, 0, .timer, 0, 0⟩ ∧
      (∀ z, z < 16 → s.tables.zoneSet.get z = ⟨0, 0, 0, 0, 0⟩)) ∧
    (s.trunk.flags = 0x0001 ∧ s.trunk.reports = [.notice 0x0001 0xFFFF none] ∧ s.trunk.replies = [] ∧
      s.trunk.silence = some 60000 ∧ s.trunk.counters = ⟨0, 0, 0, 0, 0⟩ ∧ s.attn = true) ∧
    (s.seg.slotPos = 0 ∧ s.seg.urgent = [] ∧ s.seg.log = [] ∧ s.seg.checkErrors = 0 ∧ s.seg.phase = .silent ∧
      s.seg.replyTimer = none ∧
      ∀ i, i < 48 → s.seg.nodes.get i = ⟨.unknown, 0, 0, false, false⟩) ∧
    (∀ p, p < 256 → s.points.runs.get p = ⟨none, .never, 0, none, none⟩) ∧
    (∀ ch, ch < 512 → s.image.get ch = ⟨0, 0⟩) ∧
    (s.watch.guard = .normal ∧ ∀ k, k < 32 → s.watch.runs.get k = ⟨false, .idle, 0, none, true⟩) ∧
    (s.fog.unitState = .off ∧ s.fog.runTimer = none ∧ s.fog.restTimer = none ∧ s.fog.served = false ∧
      s.fog.demand = 0 ∧ s.fog.promotion = false ∧
      ∀ i, i < 8 → s.fog.stations.get i = ⟨.unknown, none, none, false, false, 0, none⟩) ∧
    (s.heat.available = 0 ∧ s.heat.blind = true ∧ s.heat.timer = none ∧ s.heat.arrivals = 0 ∧ s.heat.ageMs = 0 ∧
      s.heat.passMade = false ∧ ∀ i, i < 8 → s.heat.sinks.get i = ⟨0, 0, 0, 0⟩ ∧ s.heat.valves.get i = 0) ∧
    (s.zones.split = none ∧ ∀ z, z < 16 → s.zones.runs.get z = ⟨0, 0, 0, 0, 0, 0, 0, true⟩) ∧
    (s.store.queue = [] ∧ ∀ b, b < 4 →
      (s.bank b).state = .idle ∧ (s.bank b).row = none ∧ (s.bank b).pairs = [] ∧ (s.bank b).skipped = 0 ∧
      (s.bank b).releaseAfter = false ∧ (s.bank b).settle = none ∧ (s.bank b).orphan = false) ∧
    (∀ b, b < 4 → s.engine b = ⟨.free, none, none, false, 0, 0, none, []⟩) ∧
    s.bracket = ⟨.idle, .openKind, false, false, 0, 0, [], none, none⟩

/-- The RESET pin and the loss of supply stop the part: nothing runs, the operation in flight is cut off, and
nothing is taken but what a pin or the supply brings. The values it holds until it starts again are the model's choice
(log 18). -/
def Obligations.HeldInReset : Prop :=
  (∀ (s : State) (cut : Nat),
    (s.power.supply = true → ∃ t, exec (.resetPinAsserted cut) s = .next t ∧ t.live = false ∧
      t.power = { s.power with pinAsserted := true } ∧ t.memory = s.cutMemory cut ∧ t.inRun = false ∧
      t.frameOnTrunk = none ∧ t.frameOnField = none ∧ t.attn = false) ∧
    (∃ t, exec (.powerFails cut) s = .next t ∧ t.live = false ∧
      t.power = { s.power with supply := false, powerHeld := false } ∧ t.memory = s.cutMemory cut ∧
      t.inRun = false ∧ t.frameOnTrunk = none ∧ t.frameOnField = none ∧ t.attn = false)) ∧
  (∀ (c : Instr) (s : State), s.live = false → c.external = false → exec c s = .next s)

/-- A ROW_WRITE cut off by the loss of supply leaves a row with a bad check before its check is stored whole, and
the new content with a good check after; every other row is as it was. -/
def Obligations.CutRowWrite : Prop :=
  ∀ (s : State) (tag : Byte) (b r cut : Nat) (content : List Byte) (rest : List MemOp), b < 4 → r < 32 →
    wellFormedContent content = true → s.store.queue = .rowWrite tag b r content :: rest →
    (goodRow (placeOf content)).isSome = true ∧
    ∃ t, exec (.powerFails cut) s = .next t ∧
      (cut < content.length + 2 → goodRow (t.memory.rows.get (placeIndex b r)) = none) ∧
      (content.length + 2 ≤ cut → t.memory.rows.get (placeIndex b r) = placeOf content) ∧
      (∀ p, p ≠ placeIndex b r → t.memory.rows.get p = s.memory.rows.get p) ∧ t.memory.image = s.memory.image

/-- A save cut off at any byte leaves no image: the next start with BOOT = AUTO ends in CONFIG with empty tables
and the status INVALID, NO_SIGNATURE. -/
def Obligations.CutSaveLeavesNoImage : Prop :=
  ∀ (s t u v : State) (tag : Byte) (copy : Tables) (rest : List MemOp) (cut cut' : Nat) (r1 r0 receiving : Bool),
    Memory.wf s.memory.image → s.power.pinAsserted = false → s.store.queue = .imageSave tag copy :: rest →
    exec (.powerFails cut) s = .next t → exec (.powerOn ⟨.auto, r1, r0⟩ cut') t = .next u →
    exec (.imageLoad receiving) u = .next v →
    v.loader = ⟨.config, .invalid .noSignature⟩ ∧ v.tables = .empty ∧ EventFlag.imageEvent.of v.trunk.flags = true

/-! ### Trunk link (chapter 10) -/

/-- A bad frame adds one to the check errors and does nothing else. RESET_PART and a malformed request are answered,
and nothing else comes of them before the reply has gone. -/
def Obligations.FramesAnswered : Prop :=
  (∀ s : State, s.live = true →
    exec .trunkBadFrame s = .next { s with trunk := { s.trunk with counters := { s.trunk.counters with
      checkErrors := min 65535 (s.trunk.counters.checkErrors + 1) } } }) ∧
  (∀ (tag code : Byte) (s : State),
    (s.serves → exec (.resetPart tag) s = .next (s.goodFrame.place tag 0x09 .done [])) ∧
    (s.receives → exec (.malformedRequest tag code) s = .next (s.goodFrame.place tag code .badRequest [])))

/-- READ_INFO answers DONE in every operating state with the same structure, byte for byte; the frame that
carried it is counted and restarts the silence timer. -/
def Obligations.InfoReply : Prop :=
  ∀ (tag : Byte) (s : State), s.receives →
    exec (.readInfo tag) s = .next { s with trunk := { s.trunk with
      replies := s.trunk.replies ++ [⟨tag, 0x01, .done,
        [1, 17, 0x53, 0x48, 0x45, 0x4C, 0x44, 0x52, 0x41, 0, 0x53, 0x41, 0x32, 0x36, 0x34, 0x30, 0, 0, 0x43] ++
        [2, 54, 0, 48, 0, 62, 1, 0, 0, 12, 2, 0, 0, 16, 0, 128, 0, 48, 0, 32, 0, 32, 0, 101, 0, 8, 0, 8, 0, 4,
          0, 16, 0, 4, 0, 32, 0, 48, 0, 4, 0, 8, 0, 4, 0, 64, 0, 8, 0, 16, 0, 8, 0, 16, 0, 2] ++
        [3, 1, 3] ++ [0, 0]⟩]
      sending := if s.trunk.sending = .idle then .reply else s.trunk.sending
      silence := some (1000 * s.tables.timers.silenceLimit)
      counters := { s.trunk.counters with goodFrames := min 65535 (s.trunk.counters.goodFrames + 1) } } }

/-- READ_STATUS answers DONE in every operating state, with its eight items spelled field by field. READ_TABLE on a table
other than SCENES answers with the entries of the run, or the refusal. The layout of READ_STATUS where the rule leaves
it open rests on log 15, the one count byte of a list whose length is reported on log 41, a remaining time rounded up
on log 5, the numbering of the entries of a read-only table that holds more than one kind of item on log 9, the class
shown for a sink not in use on log 40, and the data of BAD_ENTRY on log 10. The entries carried are as many of the run
as fit whole in the reply, those of a table of configuration as the table holds them, and those of a read-only table
as its owner holds them. That a reply without continuation names 0 as its next entry is the model's choice (log 15). A
run lies in its table where its first entry and its last do, the sizes of the tables of configuration spelled; on
SCENES a count that is not 1 and a bank or row out of range are refused BAD_ENTRY, and a read with no room for a long
request BUSY. That the sink kind NONE is sent as 0, at its place in the list of kinds, is DEDUCED (log 27), and that a
kind no rule lists is sent as it is stored is the model's choice (log 4). -/
def Obligations.ReadsAnswered : Prop :=
  (∀ (tag : Byte) (s : State), s.receives →
    let mark := fun b : Bool => if b = true then (1 : Byte) else 0
    let number := fun n : Option Nat => match n with | some n => [1] ++ u16 n | none => [0, 0, 0]
    let image : List Byte := match s.loader.image with
      | .notLoaded => [0, 0, 0, 0, 0, 0, 0, 0]
      | .valid => [1, 0, 0, 0, 0, 0, 0, 0]
      | .invalid .noSignature => [2, 1, 0, 0, 0, 0, 0, 0]
      | .invalid .format => [2, 1, 1, 0, 0, 0, 0, 0]
      | .invalid .length => [2, 1, 2, 0, 0, 0, 0, 0]
      | .invalid .check => [2, 1, 3, 0, 0, 0, 0, 0]
      | .invalid (.validation id entry) => [2, 1, 4, 1] ++ u8 id.code ++ [1] ++ u16 entry
    let item1 := [match s.loader.op with | .loading => (0 : Byte) | .config => 1 | .run => 2] ++ image ++
      [match s.power.cause with | .power => (0 : Byte) | .pin => 1 | .soft => 2]
    let item2 := u16 s.trunk.flags.toNat ++ u16 s.tables.enables.toNat ++
      [if s.trunk.flags &&& s.tables.enables = 0#16 then 0 else 1]
    let item3 := u16 s.seg.slotPos ++ u16 s.seg.checkErrors ++ u8 s.seg.urgent.length ++
      s.seg.urgent.flatMap fun e => u16 e.address ++
        [match e.reason with | .start => (0 : Byte) | .value => 1 | .refresh => 2]
    let item4 := [match s.watch.guard with | .normal => (0 : Byte) | .warm => 1 | .critical => 2]
    let item5 := u16 s.heat.available ++ [mark s.heat.blind]
    let item6 := ((List.range 4).flatMap fun b =>
      [match (s.bank b).state with | .idle => (0 : Byte) | .activating => 1 | .active => 2 | .closing => 3,
        match (s.engine b).state with | .free => (0 : Byte) | .pending => 1 | .running => 2]) ++
      u16 s.store.queue.length
    let b := s.bracket
    let item7 := (match b.state with
      | .idle => [0] ++ number none ++ number none ++ number none ++ number none
      | .opened d => [1] ++ number (some d) ++ number none ++ number none ++ number none
      | .counted n k => [2] ++ number none ++ number (some n) ++ number (some k) ++ number none
      | .aborted r => [3] ++ number none ++ number none ++ number none ++ number (some r)) ++
      [match b.kind with | .openKind => (0 : Byte) | .countedKind => 1, mark b.strict, mark b.notify] ++
      u16 b.stage.length ++ u16 b.ordinal ++ number (b.timer.map fun ms => (ms + 999) / 1000)
    let c := s.trunk.counters
    let item8 := u16 (min 65535 (c.goodFrames + 1)) ++ u16 c.checkErrors ++ u16 c.requestsDropped ++
      u16 c.uplinksDropped ++ u16 c.noticesDropped ++ u16 s.longCount ++ u16 s.trunk.replies.length ++
      u16 s.trunk.reports.length
    exec (.readStatus tag) s = .next (s.goodFrame.place tag 0x02 .done
      (item1 ++ item2 ++ item3 ++ item4 ++ item5 ++ item6 ++ item7 ++ item8))) ∧
  (∀ (tag table : Byte) (first count : Word16) (s : State), s.serves →
    (TableId.ofCode table.toNat = none →
      exec (.readTable tag table first count) s = .next (s.goodFrame.place tag 0x03 .badRequest [])) ∧
    (∀ id, TableId.ofCode table.toNat = some id → id ≠ .scenes →
      (runInTable id first.toNat count.toNat = false →
        exec (.readTable tag table first count) s = .next (s.goodFrame.place tag 0x03 .badEntry [0, 0, 0])) ∧
      (runInTable id first.toNat count.toNat = true →
        exec (.readTable tag table first count) s =
          .next (s.goodFrame.place tag 0x03 .done (s.goodFrame.readRun id first.toNat count.toNat)))) ∧
    (TableId.ofCode table.toNat = some .scenes →
      let inRange := count.toNat = 1 ∧ first.toNat / 256 < 4 ∧ first.toNat % 256 < 32
      (¬ inRange → exec (.readTable tag table first count) s = .next (s.goodFrame.place tag 0x03 .badEntry [0, 0, 0])) ∧
      (inRange → s.longBarred = true →
        exec (.readTable tag table first count) s = .next (s.goodFrame.place tag 0x03 .busy [])))) ∧
  (∀ (id : TableId) (first count : Nat),
    runInTable id first count = true ↔ first < id.entries ∧ (count = 0 ∨ first + count ≤ id.entries)) ∧
  TableId.stored.map TableId.entries = [48, 256, 32, 101, 9, 8, 16, 512, 129, 32, 9, 8, 1, 16, 1, 1, 1] ∧
  (∀ (s : State) (id : TableId) (first count : Nat),
    let entries := (List.range (runCount id first count)).map fun k => s.tableEntry id (first + k)
    let taken := fun n => ((entries.take n).map List.length).sum
    ∃ n, n ≤ entries.length ∧ taken n ≤ 1012 ∧ (n = entries.length ∨ 1012 < taken (n + 1)) ∧
      s.readRun id first count = u8 id.code ++ u16 first ++ u16 n ++
        (if n < entries.length then [1] ++ u16 (first + n) else [0] ++ u16 0) ++ (entries.take n).flatten) ∧
  (∀ (s : State) (i : Nat),
    let node := s.seg.nodes.get i
    let point := s.points.runs.get i
    let map := s.tables.channels.get i
    let ch := s.image.get i
    let zone := s.zones.runs.get i
    let quality := fun q : Quality =>
      match q with
      | .never => (0 : Byte)
      | .good => 1
      | .suspect => 2
      | .fault => 3
      | .stale => 4
    let value := fun v : Option Int => match v with | some v => [1] ++ s16 v | none => [0, 0, 0]
    (∀ id, id ∈ TableId.stored → s.tableEntry id i = s.tables.entry id i) ∧
    (s.tableEntry .nodeState i =
      [match node.state with | .unknown => (0 : Byte) | .online => 1 | .silent => 2 | .offline => 3] ++
        u16 node.misses ++ u16 node.lastSetMs ++ [if node.lapse = true then 1 else 0]) ∧
    (s.tableEntry .pointValues i = value point.value ++ [quality point.quality] ++ u16 (min 65535 (point.ageMs / 1000)) ++
      value point.sentValue ++ (match point.sentQuality with | some q => [1, quality q] | none => [0, 0])) ∧
    (s.tableEntry .channelValues i = u16 ch.demand ++ u16 ch.commanded ++
      [if map.mapped = true ∧ isSet map.heatBearing = true ∧ ch.commanded < map.commandedFor .normal ch.demand then 1
        else 0]) ∧
    (i < 16 → s.tableEntry .zoneResult i = [if s.tables.zoneInUse i = true then 1 else 0,
        if isSet (s.tables.zoneSet.get i).occupied = true then 1 else 0] ++ u16 zone.demand ++ u16 zone.eligible ++
      u16 zone.offered ++ u16 zone.share ++ u16 zone.primaryPart ++ u16 zone.coil ++ u16 zone.primary ++
      [if zone.fallback = true then 1 else 0])) ∧
  (∀ (s : State) (i : Nat),
    let mark := fun b : Bool => if b = true then (1 : Byte) else 0
    let number := fun n : Option Nat => match n with | some n => [1] ++ u16 n | none => [0, 0, 0]
    let value := fun v : Option Int => match v with | some v => [1] ++ s16 v | none => [0, 0, 0]
    let seconds := fun ms : Nat => (ms + 999) / 1000
    let w := s.watch.runs.get i
    let st := s.fog.stations.get i
    let r := s.heat.sinks.get i
    let k := s.bank i
    let e := s.engine i
    (s.tableEntry .watchState 0 = [match s.watch.guard with | .normal => (0 : Byte) | .warm => 1 | .critical => 2]) ∧
    (s.tableEntry .watchState (i + 1) = [mark (s.tables.watchInUse i),
        match w.state with | .idle => (0 : Byte) | .qualifying => 1 | .tripped => 2 | .releasing => 3 | .latched => 4,
        mark w.cond] ++ u16 w.count ++
      (match w.timer with | some ms => [1] ++ u32 (seconds ms) | none => [0, 0, 0, 0, 0]) ++ [mark w.lost]) ∧
    (i < 8 → s.tableEntry .fogResult i = [mark (s.tables.stationInUse i),
        match st.state with | .unknown => (0 : Byte) | .clear => 1 | .watch => 2 | .risk => 3] ++
      value st.dewPoint ++ value st.margin ++ [mark st.lowE, mark st.highE] ++ u16 st.step) ∧
    (s.tableEntry .fogResult 8 =
      [match s.fog.unitState with | .off => (0 : Byte) | .running => 1 | .resting => 2] ++
        number ((match s.fog.runTimer with | some ms => some ms | none => s.fog.restTimer).map seconds) ++
        [mark s.fog.served] ++ u16 s.fog.demand ++ [mark s.fog.promotion]) ∧
    (s.tableEntry .dispatchResult 0 =
      u16 s.heat.available ++ [mark s.heat.blind] ++ u16 (min 65535 (s.heat.ageMs / 1000))) ∧
    (i < 8 → s.tableEntry .dispatchResult (i + 1) = [mark (s.tables.sinkInUse i),
        match (s.tables.sinkMap.get i).kind with
        | .unused => (0 : Byte)
        | .zones => 1
        | .dehumid => 2
        | .proportional => 3
        | .fixed => 4
        | .unlisted byte => byte] ++ u16 r.demand ++
      u16 (if s.tables.sinkInUse i = true then r.effClass else (s.tables.sinkTune.get i).sinkClass) ++ u16 r.grant ++
      u16 r.target ++ u16 (s.heat.valves.get i)) ∧
    (s.tableEntry .dispatchResult 9 = number (s.heat.timer.map seconds) ++ u16 s.heat.arrivals) ∧
    (s.tableEntry .zoneResult 16 = match s.zones.split with
      | some p => [1] ++ u16 p.grant ++ u16 p.offeredSum ++ u16 p.residual
      | none => [0, 0, 0, 0, 0, 0, 0]) ∧
    (i < 4 → s.tableEntry .bankState i =
      [match k.state with | .idle => (0 : Byte) | .activating => 1 | .active => 2 | .closing => 3] ++ number k.row ++
        u16 k.pairs.length ++ u16 k.skipped ++ u16 k.fade ++ [mark k.releaseAfter] ++ number k.settle ++
        [mark k.orphan]) ∧
    (i < 4 → s.tableEntry .bankState (i + 4) =
      [match e.state with | .free => (0 : Byte) | .pending => 1 | .running => 2] ++ number e.row ++ number e.fade ++
        [mark e.releaseAfter] ++ u16 e.total ++ u16 e.step ++ number e.timer ++ u16 e.held.length) ∧
    (s.tableEntry .bankState 8 = u8 s.store.queue.length ++ ((List.range s.store.queue.length).flatMap fun j =>
      (match s.store.queue[j]? with
        | some (.activate b r) => [0] ++ number (some b) ++ number (some r)
        | some (.rowWrite _ b r _) => [1] ++ number (some b) ++ number (some r)
        | some (.rowRead _ b r) => [2] ++ number (some b) ++ number (some r)
        | some (.imageSave _ _) => [3] ++ number none ++ number none
        | none => []) ++ [if j = 0 then (1 : Byte) else 0])) ∧
    (s.bracket.record = none → s.tableEntry .abortRecord 0 = List.replicate 12 0) ∧
    (∀ a, s.bracket.record = some a → s.tableEntry .abortRecord 0 = [1] ++ u8 a.code.code ++
      [match a.kind with | .openKind => (0 : Byte) | .countedKind => 1] ++ u8 a.depth ++ u8 a.stagedCount ++
      u8 ((if a.ordinal.isSome = true then 1 else 0) + if a.refusal.isSome = true then 2 else 0) ++
      u16 (a.ordinal.getD 0) ++ u8 ((a.refusal.map ResultCode.code).getD 0) ++
      [match a.guard with | .normal => (0 : Byte) | .warm => 1 | .critical => 2] ++ u16 a.duration) ∧
    (s.receives → ∀ tag, exec (.readInfo tag) s = .next (s.goodFrame.place tag 0x01 .done (s.tableEntry .info 0))))

/-- The three long requests, accepted: the operation joins the memory port queue and no reply is placed yet. SAVE_IMAGE
refused, outside an open bracket: STATE in RUN, and in CONFIG BUSY with a save in progress, the port queue full or two long
requests in progress. -/
def Obligations.LongRequestsJoin : Prop :=
  (∀ (tag : Byte) (s : State), s.serves → s.longBarred = false →
    (∀ first : Word16, sceneInRange (sceneBank first) (sceneRow first) = true →
      exec (.readTable tag 0x12 first 1) s = .next { s.goodFrame with store := { s.store with
        queue := s.store.queue ++ [.rowRead tag (sceneBank first) (sceneRow first)] } }) ∧
    (∀ (first : Word16) (content : List Byte), s.bracket.state.isOpen = false → s.saving = false →
      sceneInRange (sceneBank first) (sceneRow first) = true → s.tables.rowRefusal content = none →
      s.rowActive (sceneBank first) (sceneRow first) = false →
      exec (.writeTable tag 0x12 first 1 content) s = .next { s.goodFrame with store := { s.store with
        queue := s.store.queue ++ [.rowWrite tag (sceneBank first) (sceneRow first) content] } }) ∧
    (s.bracket.state.isOpen = false → s.inRun = false → s.saving = false →
      exec (.saveImage tag) s = .next { s.goodFrame with store := { s.store with
        queue := s.store.queue ++ [.imageSave tag s.tables] } })) ∧
  (∀ (tag : Byte) (s : State), s.servesFreely →
    (s.inRun = true → exec (.saveImage tag) s = .next (s.goodFrame.place tag 0x08 .state [])) ∧
    (s.inRun = false → s.saving = true → exec (.saveImage tag) s = .next (s.goodFrame.place tag 0x08 .busy [])) ∧
    (s.inRun = false → s.longBarred = true → exec (.saveImage tag) s = .next (s.goodFrame.place tag 0x08 .busy []))) ∧
  (∀ s : State,
    (s.longBarred = true ↔ 8 ≤ s.store.queue.length ∨ 2 ≤ s.longCount) ∧
    (s.saving = true ↔ ∃ tag copy, MemOp.imageSave tag copy ∈ s.store.queue))

/-- WRITE_TABLE in CONFIG: the content is stored as written, the records written take the run values of their
chapter, and the reply is DONE. The entries written hold the content byte for byte, but that a record of NODES whose
silent limit is written 0 holds 3, and that the value bytes behind a presence byte of 0 are 0; nothing else of the tables
changes. A write that its checks refuse stores nothing, in CONFIG and in RUN: a table that is not one to write, a save in
progress, a run or a length that does not fit, a structural table in RUN, and the checks of a scene row. The data of its
BAD_ENTRY are the model's choice where the rule names no entry (log 10). An entry of NODES whose every byte is 0 holds
no record, the model's choice (log 3). A write of WATCH puts every entry to rest, and one of FOG_MAP that begins at a
station every station: DEDUCED (log 30). A run fits where it lies in its table and its content is as long as its entries,
the lengths spelled. The content of a scene row is refused where it is not as long as its channel count asks for or counts
more than 48 pairs, then for its first pair that is out of range or names the channel of an earlier one, then for its fade
time, and then for its first pair whose channel LIGHTING does not own: the order of the faults of one content is the model's
choice (log 16). -/
def Obligations.WritesInConfig : Prop :=
  (∀ (tag table : Byte) (first count : Word16) (content : List Byte) (s : State) (id : TableId), s.servesFreely →
    s.loader.op = .config → s.saving = false → TableId.ofCode table.toNat = some id → id.tableClass ≠ .readOnly →
    id ≠ .scenes → runMatches id first.toNat count.toNat content = true →
    exec (.writeTable tag table first count content) s =
      .next (((s.goodFrame.storeRun id first.toNat (runCount id first.toNat count.toNat) content).resetWritten id
        first.toNat (runCount id first.toNat count.toNat)).place tag 0x04 .done [])) ∧
  (∀ (t : Tables) (i : Nat) (content : List Byte), i < 512 → content.length = 16 →
    (t.storeRun .channels i 1 content).entry .channels i = content ∧
    (∀ j, j ≠ i → (t.storeRun .channels i 1 content).channels.get j = t.channels.get j) ∧
    { t.storeRun .channels i 1 content with channels := t.channels } = t) ∧
  (∀ (t : Tables) (id : TableId) (first n : Nat) (content : List Byte),
    id.tableClass = .structural ∨ id.tableClass = .tunable → first + n ≤ id.entries →
    content.length = id.runLength first n →
    let u := t.storeRun id first n content
    let written := splitRuns id.entryLength first n content
    (id ≠ .nodes → ∀ k e, (k, e) ∈ written → u.entry id k =
      (id.presenceBytes k).foldl (fun e o => if e.getD o 0 = 0 then (e.set (o + 1) 0).set (o + 2) 0 else e) e) ∧
    (written.map Prod.fst = List.range' first n ∧ (written.map Prod.snd).flatten = content ∧
      ∀ k e, (k, e) ∈ written → e.length = id.entryLength k) ∧
    (id = .nodes → ∀ k, k < n →
      let e := (content.drop (9 * k)).take 9
      u.entry .nodes (first + k) =
        if (e.drop 5).take 2 = [0, 0] ∧ e ≠ List.replicate 9 0 then e.take 5 ++ [0, 3] ++ e.drop 7 else e) ∧
    (∀ i, i < id.entries → (i < first ∨ first + n ≤ i) → u.entry id i = t.entry id i) ∧
    (∀ other, other ≠ id → ∀ i, u.entry other i = t.entry other i)) ∧
  (∀ (s : State) (first n : Nat),
    let written := fun i => first ≤ i ∧ i < first + n
    (∃ runs, s.resetWritten .nodes first n = { s with seg := { s.seg with nodes := runs } } ∧
      ∀ i, i < 48 → runs.get i = if written i then ⟨.unknown, 0, 0, false, false⟩ else s.seg.nodes.get i) ∧
    (∃ runs, s.resetWritten .points first n = { s with points := { s.points with runs := runs } } ∧
      ∀ p, p < 256 → runs.get p = if written p then ⟨none, .never, 0, none, none⟩ else s.points.runs.get p) ∧
    (∃ image, s.resetWritten .channels first n = { s with image := image } ∧
      ∀ ch, ch < 512 → image.get ch =
        let r := s.tables.channels.get ch
        if written ch then if r.mapped = true then ⟨r.start, r.commandedFor .normal r.start⟩ else ⟨0, 0⟩
        else s.image.get ch) ∧
    (∃ runs, s.resetWritten .watch first n = { s with watch := { s.watch with runs := runs } } ∧
      ∀ k, k < 32 → runs.get k = ⟨false, .idle, 0, none, !s.tables.chained k⟩) ∧
    (first < 8 → ∃ stations, s.resetWritten .fogMap first n = { s with fog := { s.fog with stations := stations } } ∧
      ∀ i, i < 8 → stations.get i = ⟨.unknown, none, none, false, false, 0, none⟩) ∧
    (8 ≤ first → s.resetWritten .fogMap first n = s) ∧
    (∀ id, id ∉ [TableId.nodes, .points, .channels, .watch, .fogMap] → s.resetWritten id first n = s)) ∧
  (∀ (tag table : Byte) (first count : Word16) (content : List Byte) (s : State), s.servesFreely →
    let answers := fun (result : ResultCode) (data : List Byte) =>
      exec (.writeTable tag table first count content) s = .next (s.goodFrame.place tag 0x04 result data)
    let bank := first.toNat / 256
    let row := first.toNat % 256
    (TableId.ofCode table.toNat = none → answers .badRequest []) ∧
    (∀ id, TableId.ofCode table.toNat = some id →
      (id.tableClass = .readOnly → answers .badRequest []) ∧
      (id.tableClass ≠ .readOnly → s.saving = true → answers .busy []) ∧
      (id.tableClass ≠ .readOnly → s.saving = false →
        (id ≠ .scenes → runMatches id first.toNat count.toNat content = false → answers .badEntry [0, 0, 0]) ∧
        (id.tableClass = .structural → s.inRun = true → runMatches id first.toNat count.toNat content = true →
          answers .state []) ∧
        (id = .scenes → count.toNat ≠ 1 ∨ 4 ≤ bank ∨ 32 ≤ row → answers .badEntry [0, 0, 0]) ∧
        (id = .scenes → count.toNat = 1 → bank < 4 → row < 32 →
          (∀ a, s.tables.rowRefusal content = some a → answers a.result a.data) ∧
          (s.tables.rowRefusal content = none →
            ((s.bank bank).row = some row ∧ ((s.bank bank).state = .activating ∨ (s.bank bank).state = .active) →
              answers .rowActive []) ∧
            (¬ ((s.bank bank).row = some row ∧
                ((s.bank bank).state = .activating ∨ (s.bank bank).state = .active)) →
              s.longBarred = true → answers .busy [])))))) ∧
  (∀ (id : TableId) (first count : Nat) (content : List Byte),
    let n := if count = 0 then id.entries - first else count
    runMatches id first count content = true ↔ first < id.entries ∧ first + n ≤ id.entries ∧
      content.length = ((List.range n).map fun k => id.entryLength (first + k)).sum) ∧
  (∀ e ∈ [(TableId.nodes, 9), (.points, 14), (.watch, 28), (.saturation, 4), (.fogMap, 9), (.sinkMap, 9), (.zoneMap, 12),
      (.channels, 16), (.schedule, 3), (.thresholds, 2), (.fogTune, 23), (.sinkTune, 12), (.dispatch, 16), (.zoneSet, 9),
      (.timers, 4), (.flagEnables, 2), (.lightProfile, 3)], ∀ i, i < e.1.entries →
    e.1.entryLength i = if e.1 = .schedule ∧ 0 < i then 2 else if e.1 = .fogMap ∧ i = 8 then 3
      else if e.1 = .fogTune ∧ i = 8 then 4 else e.2) ∧
  (∀ (t : Tables) (content : List Byte),
    let n := (content.getD 0 0).toNat
    let channel := fun i => rd16 content (1 + 4 * i)
    let fade := rd16 content (1 + 4 * n)
    let whole := content.length = 4 * n + 3 ∧ n ≤ 48
    let bad := fun i => 512 ≤ channel i ∨ 1000 < rd16 content (3 + 4 * i) ∨ ∃ j, j < i ∧ channel j = channel i
    let foreign := fun i => (t.channels.get (channel i)).mapped = false ∨ (t.channels.get (channel i)).owner ≠ .lighting
    let first := fun (p : Nat → Prop) i => i < n ∧ p i ∧ ∀ j, j < i → ¬ p j
    let refused := fun data => t.rowRefusal content = some ⟨.badEntry, data⟩
    (¬ whole → refused [0, 0, 0]) ∧
    (∀ i, whole → first bad i → refused (1 :: u16 i)) ∧
    (whole → (∀ i, i < n → ¬ bad i) →
      (6000 < fade → refused [0, 0, 0]) ∧
      (∀ i, fade ≤ 6000 → first foreign i → refused (1 :: u16 i)) ∧
      (fade ≤ 6000 → (∀ i, i < n → ¬ foreign i) → t.rowRefusal content = none)))

/-- The tunable tables written in RUN. TIMERS is stored and DONE in range, refused and kept out of range; FLAG_ENABLES
takes any content. Each other is stored whole with what its chapter makes of it, or refused at the lowest entry that
would not be in range and kept; LIGHT_PROFILE waits for the lighting to rest. The data of a BAD_ENTRY of TIMERS are
the model's choice (log 10), and so is which entry of FOG_TUNE is named where a fan channel is given twice: the fan
channels of the stations not written come first (log 31). That the writes of one event are noted as a series is the
model's choice (log 50). -/
def Obligations.TimersInRun : Prop :=
  (∀ (tag a b c d : Byte) (s : State), s.servesFreely → s.inRun = true → s.saving = false →
    (1 ≤ a.toNat * 256 + b.toNat ∧ a.toNat * 256 + b.toNat ≤ 600 ∧ 1 ≤ c.toNat * 256 + d.toNat ∧
        c.toNat * 256 + d.toNat ≤ 60 →
      exec (.writeTable tag 0x0F 0 1 [a, b, c, d]) s =
        .next ({ s.goodFrame with tables := { s.tables with
          timers := ⟨a.toNat * 256 + b.toNat, c.toNat * 256 + d.toNat⟩ } }.place tag 0x04 .done [])) ∧
    (a.toNat * 256 + b.toNat < 1 ∨ 600 < a.toNat * 256 + b.toNat ∨ c.toNat * 256 + d.toNat < 1 ∨
        60 < c.toNat * 256 + d.toNat →
      exec (.writeTable tag 0x0F 0 1 [a, b, c, d]) s = .next (s.goodFrame.place tag 0x04 .badEntry [0, 0, 0])) ∧
    exec (.writeTable tag 0x10 0 1 [a, b]) s =
      .next ({ s.goodFrame with tables := { s.tables with enables := a ++ b } }.place tag 0x04 .done [])) ∧
  (∀ (tag : Byte) (first count : Word16) (content : List Byte) (s : State), s.servesFreely → s.inRun = true →
    s.saving = false →
    let f := first.toNat
    let len := fun id => runCount id f count.toNat
    let written := fun id i => f ≤ i ∧ i < f + len id
    let stored := fun id => s.tables.storeRun id f (len id) content
    let keeps : State := s.goodFrame
    let takes := fun (code : Byte) (id : TableId) (bad : Nat → Prop) (t : State) =>
      runMatches id f count.toNat content = true →
        (∀ i, bad i → (∀ j, j < i → ¬ bad j) →
          exec (.writeTable tag code first count content) s = .next (keeps.place tag 0x04 .badEntry (1 :: u16 i))) ∧
        ((∀ i, ¬ bad i) → exec (.writeTable tag code first count content) s = .next (t.place tag 0x04 .done []))
    takes 0x0A .thresholds
      (fun k => k < 32 ∧ s.tables.chained k = false ∧ (s.tables.watch.get k).point.given = true ∧
        (s.tables.watch.get k).compare = .outside ∧
        (stored .thresholds).thresholds.get (s.tables.watch.get k).highThreshold - (s.tables.watch.get k).hysteresis <
          (stored .thresholds).thresholds.get (s.tables.watch.get k).threshold + (s.tables.watch.get k).hysteresis)
      (State.watchThresholds { keeps with tables := stored .thresholds } s.tables.thresholds) ∧
    takes 0x0B .fogTune
      (fun i => written .fogTune i ∧
        ((i < 8 ∧ s.tables.stationInUse i = true ∧ ¬ (((stored .fogTune).fogTune.get i).fits ∧
          ∀ ch, ((stored .fogTune).fogTune.get i).fan.get = some ch →
            ch < 512 ∧ (s.tables.channels.get ch).mapped = true ∧ (s.tables.channels.get ch).owner = .fog ∧
            s.tables.motor.get ≠ some ch ∧
            ∀ j, j < 8 → j ≠ i → s.tables.stationInUse j = true → (written .fogTune j → j < i) →
              ((stored .fogTune).fogTune.get j).fan.get ≠ some ch)) ∨
          (i = 8 ∧ ¬ (stored .fogTune).dehumid.fits)))
      (let v : State := { keeps with tables := stored .fogTune }
      v.asSeries (((List.range 8).filter fun i =>
          s.tables.stationInUse i && decide (f ≤ i) && decide (i < f + len .fogTune)).foldl
        (fun u i => u.retuneStation i (s.tables.fogTune.get i)) v).publishFog) ∧
    takes 0x0C .sinkTune
      (fun i => written .sinkTune i ∧ i < 8 ∧ s.tables.sinkInUse i = true ∧
        ¬ ((stored .sinkTune).sinkTune.get i).fits (s.tables.sinkMap.get i).kind)
      { keeps with tables := stored .sinkTune } ∧
    takes 0x0D .dispatch (fun i => i = 0 ∧ ¬ s.tables.dispatchFits (stored .dispatch).dispatch)
      { keeps with
        tables := stored .dispatch
        heat :=
          if ((stored .dispatch).dispatch.trigger ≠ s.tables.dispatch.trigger ∨
              (stored .dispatch).dispatch.arrivalCount ≠ s.tables.dispatch.arrivalCount ∨
              (stored .dispatch).dispatch.period ≠ s.tables.dispatch.period) ∧ s.heatActive = true then
            { s.heat with arrivals := 0, timer := some (1000 * (stored .dispatch).dispatch.period) }
          else s.heat } ∧
    takes 0x0E .zoneSet
      (fun z => written .zoneSet z ∧ z < 16 ∧ s.tables.zoneInUse z = true ∧ ¬ ((stored .zoneSet).zoneSet.get z).fits)
      (let v : State := { keeps with tables := stored .zoneSet }
      v.asSeries (((List.range 16).filter fun z =>
        s.tables.zoneInUse z && decide (f ≤ z) && decide (z < f + len .zoneSet)).foldl State.recomputeZone v)) ∧
    ((∀ b, b < 4 → (s.bank b).state = .idle ∧ (s.engine b).state = .free) →
      takes 0x11 .lightProfile (fun i => i = 0 ∧ ¬ (stored .lightProfile).profile.fits)
        { keeps with tables := stored .lightProfile }) ∧
    ((∃ b, b < 4 ∧ ((s.bank b).state ≠ .idle ∨ (s.engine b).state ≠ .free)) →
      runMatches .lightProfile f count.toNat content = true →
      exec (.writeTable tag 0x11 first count content) s = .next (keeps.place tag 0x04 .busy []))) ∧
  (∀ (s : State) (before : Tab Int 32),
    let t := s.watchThresholds before
    t.watch.guard = guardOf s.tables t.watch.runs ∧ s.besideGuard t ∧
    ∀ k, k < 32 → s.tables.chained k = false →
      let r := s.tables.watch.get k
      let changed := before.get r.threshold ≠ s.tables.thresholds.get r.threshold ∨
        (r.compare = .outside ∧ before.get r.highThreshold ≠ s.tables.thresholds.get r.highThreshold)
      (∀ p v, r.point.get = some p → changed → (s.watch.runs.get k).lost = false → s.pointValue p = some v →
        t.watch.runs.get k = (s.watchValue p v).watch.runs.get k) ∧
      (r.point.get = none ∨ ¬ changed ∨ (s.watch.runs.get k).lost = true ∨
          (∃ p, r.point.get = some p ∧ s.pointValue p = none) →
        t.watch.runs.get k = s.watch.runs.get k)) ∧
  (∀ (s : State) (i : Nat) (old : FogTuneRec), i < 8 →
    let r := s.tables.fogTune.get i
    let st := s.fog.stations.get i
    let limits := r.warn ≠ old.warn ∨ r.risk ≠ old.risk ∨ r.hysteresis ≠ old.hysteresis
    let driven := r.fan.get ≠ old.fan.get ∨ r.fanLevel ≠ old.fanLevel ∨ r.pattern st.state ≠ old.pattern st.state
    let level := fun (state : FogState) step => if (r.pattern state).getLsbD step = true then r.fanLevel else 0
    let stays := (st.state = .unknown ∨ ¬ limits ∨ st.margin = none ∨
      ∃ m, st.margin = some m ∧ r.nextState st.state m = st.state)
    (∀ m, st.state ≠ .unknown → limits → st.margin = some m → r.nextState st.state m ≠ st.state →
      s.retuneStation i old = State.writeDemandTo
        (State.raise { s with fog := { s.fog with stations := s.fog.stations.set i { st with
          state := r.nextState st.state m
          step := 0
          timer := some (1000 * r.period) } } } .fogChanged)
        r.fan.get (level (r.nextState st.state m) 0)) ∧
    (stays → driven → s.retuneStation i old = s.writeDemandTo r.fan.get (level st.state st.step)) ∧
    (stays → ¬ driven → s.retuneStation i old = s))

/-- CLEAR_FLAGS: each masked flag takes its value bit and each other is left; each rise of an enabled flag queues a NOTICE
while there is room; the reply carries flags and enables as the request left them. A NOTICE that finds no room is
dropped and counted, and UPLINK_DROPPED stands raised, its own NOTICE counted too where it rises and is enabled. A
raise of any flag by itself: of one that is set nothing, of one that is not enabled the flag alone, of one that is
enabled a NOTICE with the flags, the enables and the abort record, or, without room, the count and UPLINK_DROPPED.
ATTN is asserted exactly where a flag and its enable are both set, whatever set them, by the numbers of the flags. The
snapshot of a NOTICE shows the flags as they then stand, those to be cleared cleared before any rise, and the rises in
ascending flag number: the model's choice (log 44), and so is that an idle transmitter starts a NOTICE as it is placed
(log 45). -/
def Obligations.ClearFlagsReply : Prop :=
  (∀ (tag : Byte) (mask value : Word16) (s : State), s.serves → ∃ t,
    exec (.clearFlags tag mask value) s = .next t ∧ t = { s with trunk := t.trunk } ∧
    t.trunk.replies = s.trunk.replies ++ [⟨tag, 0x05, .done, u16 t.trunk.flags.toNat ++ u16 s.tables.enables.toNat⟩] ∧
    let room := 16 - s.trunk.reports.length
    let flags := (s.trunk.flags &&& ~~~mask) ||| (mask &&& value)
    let rises := EventFlag.all.filter fun f =>
      f.of mask && f.of value && !f.of s.trunk.flags && f.of s.tables.enables
    let own := if EventFlag.uplinkDropped.of s.tables.enables = true ∧ EventFlag.uplinkDropped.of flags = false then 1
      else 0
    let counters := { s.trunk.counters with goodFrames := min 65535 (s.trunk.counters.goodFrames + 1) }
    t.trunk.reports = s.trunk.reports ++ (rises.take room).map (fun f =>
      let upTo : Word16 := (2#16 <<< f.num) - 1#16
      .notice ((s.trunk.flags &&& ~~~(mask &&& ~~~value)) ||| (mask &&& value &&& upTo)) s.tables.enables
        s.bracket.record) ∧
    (rises.length ≤ room → t.trunk.flags = flags ∧ t.trunk.counters = counters) ∧
    (room < rises.length → t.trunk.flags = flags ||| EventFlag.uplinkDropped.bit ∧
      t.trunk.counters = { counters with
        noticesDropped := min 65535 (s.trunk.counters.noticesDropped + (rises.length - room) + own) })) ∧
  (∀ (s : State) (f : EventFlag),
    let u := s.trunk
    let flags := u.flags ||| f.bit
    let own := if EventFlag.uplinkDropped.of s.tables.enables = true ∧ EventFlag.uplinkDropped.of flags = false then 1
      else 0
    s.raiseIf true f = s.raise f ∧ s.raiseIf false f = s ∧
    (f.of u.flags = true → s.raise f = s) ∧
    (f.of u.flags = false → f.of s.tables.enables = false → s.raise f = { s with trunk := { u with flags := flags } }) ∧
    (f.of u.flags = false → f.of s.tables.enables = true → u.reports.length < 16 →
      s.raise f = { s with trunk := { u with
        flags := flags
        reports := u.reports ++ [.notice flags s.tables.enables s.bracket.record]
        sending := if u.sending ≠ .idle then u.sending else if u.replies ≠ [] then .reply else .report } }) ∧
    (f.of u.flags = false → f.of s.tables.enables = true → 16 ≤ u.reports.length →
      s.raise f = { s with trunk := { u with
        flags := flags ||| 0x1000#16
        counters := { u.counters with noticesDropped := min 65535 (u.counters.noticesDropped + 1 + own) } } })) ∧
  (∀ s : State, s.attn = true ↔
    ∃ n, n < 16 ∧ s.trunk.flags.getLsbD n = true ∧ s.tables.enables.getLsbD n = true) ∧
  (∀ (f : EventFlag) (w : Word16), f.of w = w.getLsbD f.num ∧ ∀ n, f.bit.getLsbD n = (n == f.num)) ∧
  [EventFlag.resetSeen, .guardChanged, .watchLatched, .fogChanged, .dispatchBlind, .shortfall, .nodeChanged,
    .refreshLapse, .cueDone, .bankFault, .bracketAborted, .imageEvent, .uplinkDropped, .requestDropped, .trunkSilent,
    .fieldErrors].map EventFlag.num = List.range 16

/-- In LOADING every request but READ_INFO, READ_STATUS and a malformed one is answered STARTING and does nothing.
With the reply queue full, counting the places held for long requests, a request is discarded, counted and told of by
REQUEST_DROPPED alone. -/
def Obligations.RequestsTurnedAway : Prop :=
  (∀ (c : Instr) (tag code : Byte) (args : List Byte) (s : State), s.receives → s.loader.op = .loading →
    encodeRequest c = some (tag, code, args) → code ≠ 0x01 → code ≠ 0x02 →
    exec c s = .next (s.goodFrame.place tag code .starting [])) ∧
  (∀ (c : Instr) (s : State), c.isRequest = true → s.live = true → s.replyRoomFull = true → ∃ t,
    exec c s = .next t ∧ t = { s with trunk := t.trunk } ∧ t.trunk.replies = s.trunk.replies ∧
    t.trunk.counters.requestsDropped = min 65535 (s.trunk.counters.requestsDropped + 1) ∧
    EventFlag.requestDropped.of t.trunk.flags = true)

/-- The end of a transmission: the frame leaves its queue, and the oldest reply goes next, or failing that the oldest
report or notice. The silence timer's expiry: the timer stops, TRUNK_SILENT is raised, and an open bracket is aborted
with LINK. At the end of RESET_PART's DONE the part resets with the straps as it last sampled them, the model's choice
(log 19). The bytes of the frame in transmission are spelled for a reply, an UPLINK and a NOTICE, with the codes they
carry; while the transmitter is idle nothing is sent. -/
def Obligations.TrunkEvents : Prop :=
  (∀ s : State, s.live = true →
    (∀ (r : Reply) (rest : List Reply), s.trunk.sending = .reply → s.trunk.replies = r :: rest →
      (r.code ≠ 0x09 ∨ r.result ≠ .done) →
      exec .trunkFrameSent s = .next { s with trunk := { s.trunk with
        replies := rest
        sending := if rest ≠ [] then .reply else if s.trunk.reports ≠ [] then .report else .idle } }) ∧
    (∀ (r : Report) (rest : List Report), s.trunk.sending = .report → s.trunk.reports = r :: rest →
      exec .trunkFrameSent s = .next { s with trunk := { s.trunk with
        reports := rest
        sending := if s.trunk.replies ≠ [] then .reply else if rest ≠ [] then .report else .idle } })) ∧
  (∀ (s : State) (n : Nat), s.live = true → s.trunk.silence = some n → ∃ t,
    exec .trunkSilenceExpiry s = .next t ∧ t.trunk.silence = none ∧ EventFlag.trunkSilent.of t.trunk.flags = true ∧
    (s.bracket.state.isOpen = false → t = { s with trunk := t.trunk }) ∧
    (s.bracket.state.isOpen = true → t = { s with trunk := t.trunk, bracket := t.bracket } ∧
      t.bracket.state = .aborted s.bracket.state.depth ∧ t.bracket.stage = [] ∧ t.bracket.timer = none ∧
      t.bracket.record = some (s.bracket.abortRecord s.watch.guard .link none none) ∧
      EventFlag.bracketAborted.of t.trunk.flags = true)) ∧
  (∀ (s : State) (tag : Byte) (data : List Byte) (rest : List Reply), s.live = true → s.trunk.sending = .reply →
    s.trunk.replies = ⟨tag, 0x09, .done, data⟩ :: rest →
    exec .trunkFrameSent s = .next (State.started s.pending (s.cutMemory 0) s.power.straps .soft)) ∧
  (∀ s : State,
    let framed := fun (kind : Byte) (body : List Byte) =>
      let covered := u16 (body.length + 1) ++ [kind] ++ body
      some ([0x5A] ++ covered ++ u16 (crc16 covered).toNat)
    (s.trunk.sending = .idle → s.frameOnTrunk = none) ∧
    (∀ (r : Reply) (rest : List Reply), s.trunk.sending = .reply → s.trunk.replies = r :: rest →
      s.frameOnTrunk = framed 0x02 ([r.tag, r.code] ++ u8 r.result.code ++ r.data)) ∧
    (∀ (es : List UplinkEntry) (rest : List Report), s.trunk.sending = .report → s.trunk.reports = .uplink es :: rest →
      s.frameOnTrunk = framed 0x03 (u8 es.length ++ es.flatMap fun e => u16 e.point ++ s16 (e.value.getD 0) ++
        [(match e.quality with | .never => (0 : Byte) | .good => 1 | .suspect => 2 | .fault => 3 | .stale => 4) +
          if e.value = none then 0x80 else 0])) ∧
    (∀ (flags enables : Word16) (record : Option AbortRecord) (rest : List Report), s.trunk.sending = .report →
      s.trunk.reports = .notice flags enables record :: rest →
      s.frameOnTrunk = framed 0x04 (u16 flags.toNat ++ u16 enables.toNat ++ match record with
        | none => List.replicate 12 0
        | some a => [1] ++ u8 a.code.code ++ [match a.kind with | .openKind => (0 : Byte) | .countedKind => 1] ++
          u8 a.depth ++ u8 a.stagedCount ++
          u8 ((if a.ordinal.isSome = true then 1 else 0) + if a.refusal.isSome = true then 2 else 0) ++
          u16 (a.ordinal.getD 0) ++ u8 ((a.refusal.map ResultCode.code).getD 0) ++
          [match a.guard with | .normal => (0 : Byte) | .warm => 1 | .critical => 2] ++ u16 a.duration))) ∧
  [ResultCode.done, .clamped, .accepted, .staged, .busy, .state, .starting, .badRequest, .badTable, .badEntry, .owned,
    .bankBusy, .rowActive, .guarded, .noBracket, .aborted, .failed].map ResultCode.code = List.range 17 ∧
  [AbortCode.abandoned, .guard, .timeout, .link, .capacity, .nest, .restricted, .strictRefusal, .conflict, .stop].map
    AbortCode.code = List.range 10

/-! ### Operating states, the image and the memory port (chapters 7 and 11) -/

/-- ENTER_RUN in CONFIG: entry to RUN with the blocks at the values of their chapters, or BAD_TABLE with the first failure
and nothing done; in RUN it is refused STATE. The first failure is found in the order of R178, table by table and
entry by entry; which of two failing slots of SCHEDULE is named is the model's choice (log 11), and so are that an
entry of NODES whose every field is 0 holds no record (log 3) and what a byte means that no rule lists (log 4). The
default fade 0 of a bank at rest is the model's choice (log 7), the order of the blocks' first writes too (log 28),
that the open time is kept (log 51), and that the count of the compositions that drew their moment is kept (log 50).
SCHEDULE fails at 0 for its count, rate and timeout, then at the first failing POLL slot, then at the first failing
SET slot, and at 0 where no slot sends. A slot that starts while a frame is being received waits for its end. -/
def Obligations.EnterRunTaken : Prop :=
  (∀ (tag : Byte) (receiving : Bool) (s : State), s.servesFreely →
    (s.inRun = true → exec (.enterRun tag receiving) s = .next (s.goodFrame.place tag 0x06 .state [])) ∧
    (s.inRun = false → s.saving = true →
      exec (.enterRun tag receiving) s = .next (s.goodFrame.place tag 0x06 .busy [])) ∧
    (∀ id entry, s.inRun = false → s.saving = false → s.tables.validate = some (id, entry) →
      exec (.enterRun tag receiving) s =
        .next (s.goodFrame.place tag 0x06 .badTable (u8 id.code ++ u16 entry))) ∧
    (s.inRun = false → s.saving = false → s.tables.validate = none → ∃ t,
      exec (.enterRun tag receiving) s = .next t ∧ t.inRun = true ∧ t.loader.image = s.loader.image ∧
      t.tables = s.tables ∧ t.memory = s.memory ∧ t.power = s.power ∧
      t.trunk = (s.goodFrame.place tag 0x06 .done []).trunk ∧ t.watch.guard = .normal ∧
      (∀ k, k < 32 → (t.watch.runs.get k).state = .idle ∧ (t.watch.runs.get k).cond = false) ∧
      (∀ p, p < 256 → (t.points.runs.get p).quality = .never) ∧ (∀ b, b < 4 → (t.engine b).state = .free) ∧
      (∀ b, b < 4 → (t.bank b).state = .idle) ∧ t.store.queue = s.store.queue ∧ t.bracket.state = .idle ∧
      t.bracket.stage = [] ∧ t.bracket.record = s.bracket.record ∧ t.heat.available = 0 ∧ t.heat.blind = true ∧
      t.zones.split = none ∧ t.seg.checkErrors = s.seg.checkErrors) ∧
    (s.inRun = false → s.saving = false → s.tables.validate = none →
      exec (.enterRun tag receiving) s = .next ((s.goodFrame.enterRun receiving).place tag 0x06 .done []))) ∧
  (∀ (receiving : Bool) (s : State),
    let tables := s.tables
    let zone := fun z =>
      let m := tables.zoneMap.get z
      let d := min (m.coilCapacity + m.primaryCapacity) (tables.zoneSet.get z).fallback
      (⟨d, min d m.coilCapacity, 0, 0, d, (tables.channels.get m.coil).start, min 1000 (d * 1000 / m.primaryCapacity),
        true⟩ : ZoneRun)
    let stations := (List.range 8).filter fun i => tables.stationInUse i
    let demand := (stations.map fun i => (tables.fogTune.get i).watchDemand).foldl max 0
    let writes : List (Nat × Nat) :=
      (stations.filterMap fun i => (tables.fogTune.get i).fan.get.map fun ch =>
        (ch, if (tables.fogTune.get i).watchPattern.getLsbD 0 = true then (tables.fogTune.get i).fanLevel else 0)) ++
      (if 0 < demand then tables.motor.get.toList.map fun ch => (ch, 1000) else []) ++
      ((List.range 16).filter fun z => tables.zoneInUse z).map fun z =>
        ((tables.zoneMap.get z).primary, (zone z).primary)
    ∃ start u : State,
      start.tables = tables ∧ start.inRun = true ∧ start.watch.guard = .normal ∧
      (∀ ch, ch < 512 → start.image.get ch =
        let r := tables.channels.get ch
        if r.mapped = true then ⟨r.start, max (min r.floor r.ceiling) (min r.start r.ceiling)⟩ else ⟨0, 0⟩) ∧
      start.seg.urgent = ((List.range 63).filter fun a => tables.nodes.list.any fun r => r.takesSet && r.address == a).map
        (fun a => ⟨a, .start⟩) ∧
      s.enterRun receiving = u.startSlot (if receiving = true then some true else none) ∧
      u.image = (start.writeSeries writes).image ∧
      u.seg = ⟨.replicate 48 ⟨.unknown, 0, 0, false, false⟩, 0, .silent, none, (start.writeSeries writes).seg.urgent,
        s.seg.checkErrors, tables.scheduleHead.bitRate, tables.scheduleHead.replyTimeout, u.seg.log, s.seg.draws⟩ ∧
      u.points = ⟨.replicate 256 ⟨none, .never, 0, none, none⟩, 0⟩ ∧
      (∀ k, k < 32 → u.watch.runs.get k = ⟨false, .idle, 0,
        if tables.watchInUse k = true ∧ ((tables.watch.get k).mode = .rate ∨ (tables.watch.get k).mode = .count) then
          some (1000 * (tables.watch.get k).window) else none, !tables.chained k⟩) ∧
      (∀ i, i < 8 → u.fog.stations.get i = ⟨.unknown, none, none, false, false, 0,
        if tables.stationInUse i = true then some (1000 * (tables.fogTune.get i).period) else none⟩) ∧
      u.fog.demand = demand ∧ u.fog.promotion = false ∧ u.fog.served = false ∧ u.fog.restTimer = none ∧
      u.fog.unitState = (if 0 < demand then .running else .off) ∧
      u.fog.runTimer = (if 0 < demand then some (1000 * tables.dehumid.minRun) else none) ∧
      (∀ i, i < 8 → u.heat.sinks.get i = ⟨0, (tables.sinkTune.get i).sinkClass, 0, 0⟩ ∧
        u.heat.valves.get i = if tables.sinkInUse i = true then
          (match (tables.sinkMap.get i).valve.get with | some ch => (tables.channels.get ch).start | none => 0) else 0) ∧
      u.heat.timer =
        (if ∃ i, i < 8 ∧ tables.sinkInUse i = true then some (1000 * tables.dispatch.period) else none) ∧
      u.heat.available = 0 ∧ u.heat.blind = true ∧ u.heat.ageMs = 0 ∧ u.heat.arrivals = 0 ∧ u.heat.passMade = false ∧
      (∀ z, z < 16 → u.zones.runs.get z = if tables.zoneInUse z = true then zone z else ⟨0, 0, 0, 0, 0, 0, 0, true⟩) ∧
      u.zones.split = none ∧ u.zones.deliveries = [] ∧
      (∀ b, b < 4 → u.bank b = { Bank.initial with orphan := (s.bank b).orphan } ∧
        u.engine b = ⟨.free, none, none, false, 0, 0, none, []⟩) ∧ u.store.completions = [] ∧
      u.bracket = { s.bracket with state := .idle, stage := [], timer := none, ordinal := 0 }) ∧
  (∀ t : Tables,
    (t.validate = none ↔ ∀ id ∈ validationOrder, t.fits id) ∧
    (∀ id entry, t.validate = some (id, entry) →
      (∃ before after, validationOrder = before ++ id :: after ∧ ∀ e ∈ before, t.fits e) ∧ ¬ t.fits id ∧
      (id ≠ .schedule → entry < id.entries ∧ ¬ t.entryFits id entry ∧ ∀ i, i < entry → t.entryFits id i))) ∧
  (∀ (t : Tables) (entry : Nat), t.validate = some (.schedule, entry) →
    let h := t.scheduleHead
    let headFits := 1 ≤ h.slotCount ∧ h.slotCount ≤ 128 ∧ h.bitRate ≤ 3 ∧ 2 ≤ h.replyTimeout ∧ h.replyTimeout ≤ 100
    let fails := fun (kind : SlotKind) (bars : NodeKind) n => n < h.slotCount ∧ (t.slots.get n).kind = kind ∧
      (t.nodeOf (t.slots.get n).address = none ∨
        ∃ r, t.nodeOf (t.slots.get n).address = some r ∧ r.kind = bars)
    let first := fun (p : Nat → Prop) n => p n ∧ ∀ j, j < n → ¬ p j
    (¬ headFits → entry = 0) ∧
    (∀ n, headFits → first (fails .poll .actuator) n → entry = n + 1) ∧
    (∀ n, headFits → (∀ j, ¬ fails .poll .actuator j) → first (fails .set .sensor) n → entry = n + 1) ∧
    (headFits → (∀ j, ¬ fails .poll .actuator j ∧ ¬ fails .set .sensor j) → entry = 0))

/-- ENTER_CONFIG taken in RUN stops every block as its chapter gives, and in CONFIG it does nothing; the answer is DONE. A
dispatch result not yet taken is not taken outside RUN: DEDUCED (log 8). The default fade 0 of a bank at rest is the
model's choice (log 7). That the open time is kept behind the abort is the model's choice (log 51), and so is that the
log of the image's events is emptied and the count of the compositions that drew their moment kept (log 50). -/
def Obligations.EnterConfigTaken : Prop :=
  ∀ (tag : Byte) (s : State), s.serves →
    (s.inRun = false → exec (.enterConfig tag) s = .next (s.goodFrame.place tag 0x07 .done [])) ∧
    (s.inRun = true → ∃ t, exec (.enterConfig tag) s = .next t ∧ t.loader = { s.loader with op := .config } ∧
      t.tables = s.tables ∧ t.memory = s.memory ∧ t.power = s.power ∧ t.image = s.image ∧ t.points = s.points ∧
      t.seg = { s.seg with phase := .silent, replyTimer := none, urgent := [], log := [] } ∧ t.watch.guard = .normal ∧
      (∀ k, k < 32 → (t.watch.runs.get k).state = .idle ∧ (t.watch.runs.get k).timer = none) ∧
      (t.fog.unitState = .off ∧ t.fog.demand = 0 ∧ t.fog.promotion = false) ∧
      t.heat = { s.heat with timer := none, arrivals := 0 } ∧ t.zones.runs = s.zones.runs ∧
      t.zones.split = s.zones.split ∧ (∀ b, b < 4 → (t.engine b).state = .free ∧ (t.bank b).state = .idle) ∧
      t.store.queue = s.store.queue.take 1 ∧
      (s.bracket.state.isOpen = false → t.bracket = s.bracket) ∧
      (s.bracket.state.isOpen = true → t.bracket.state = .aborted s.bracket.state.depth ∧ t.bracket.stage = [] ∧
        t.bracket.record = some (s.bracket.abortRecord s.watch.guard .stop
          (some (min 65535 (s.bracket.ordinal + 1))) none)) ∧
      t.trunk.replies = s.trunk.replies ++ (s.store.queue.tail.filterMap fun op => match op with
        | .rowWrite tag _ _ _ => some ⟨tag, 0x04, .failed, []⟩
        | .rowRead tag _ _ => some ⟨tag, 0x03, .failed, []⟩
        | .imageSave tag _ => some ⟨tag, 0x08, .failed, []⟩
        | .activate _ _ => none) ++ [⟨tag, 0x07, .done, []⟩] ∧
      t.watch = ⟨t.watch.runs, .normal⟩ ∧
      (∀ k, k < 32 → t.watch.runs.get k = ⟨false, .idle, 0, none, !s.tables.chained k⟩) ∧
      (∀ i, i < 8 → t.fog.stations.get i = ⟨.unknown, none, none, false, false, 0, none⟩) ∧
      t.fog.runTimer = none ∧ t.fog.restTimer = none ∧ t.fog.served = false ∧
      t.zones = ⟨s.zones.runs, s.zones.split, []⟩ ∧ t.store.completions = [] ∧
      (∀ b, b < 4 → t.engine b = ⟨.free, none, none, false, 0, 0, none, []⟩ ∧
        ∃ orphan, t.bank b = { Bank.initial with orphan := orphan } ∧
          (orphan = true ↔ (s.bank b).orphan = true ∨ ∃ r rest, s.store.queue = .activate b r :: rest)) ∧
      (s.bracket.state.isOpen = true → t.bracket = { s.bracket with
          state := t.bracket.state
          ordinal := min 65535 (s.bracket.ordinal + 1)
          stage := []
          timer := none
          record := t.bracket.record } ∧ EventFlag.bracketAborted.of t.trunk.flags = true) ∧
      (s.watch.guard ≠ .normal → EventFlag.guardChanged.of t.trunk.flags = true) ∧
      ((∃ i, i < 8 ∧ s.tables.stationInUse i = true ∧ (s.fog.stations.get i).state ≠ .unknown) →
        EventFlag.fogChanged.of t.trunk.flags = true) ∧
      (s.bracket.state.isOpen = false → s.watch.guard = .normal →
        (∀ i, i < 8 → s.tables.stationInUse i = true → (s.fog.stations.get i).state = .unknown) →
        t.trunk.flags = s.trunk.flags ∧ t.trunk.reports = s.trunk.reports))

/-- IMAGE_LOAD: a good image gives RUN and VALID; any other gives CONFIG, empty tables, INVALID with its reason and
IMAGE_EVENT, and an image without its signature is such a one. The image is judged in the five stages of R177, the
first that fails giving the reason, and the image that a save leaves of tables that pass the validation, and that the
bytes of their entries give back, loads as those tables, with the enable of RESET_SEEN as it stood. A good image enters
RUN as ENTER_RUN does, whose entry EnterRunTaken spells. -/
def Obligations.ImageLoaded : Prop :=
  (∀ (receiving : Bool) (s : State), s.live = true → s.loader.op = .loading →
    (∀ tables, judgeImage s.memory.image s.tables = .ok tables → ∃ t, exec (.imageLoad receiving) s = .next t ∧
      t.loader = ⟨.run, .valid⟩ ∧ t.tables = tables ∧ t.memory = s.memory ∧ t.trunk = s.trunk ∧ t.power = s.power ∧
      t.watch.guard = .normal ∧ t.bracket.state = .idle ∧ (∀ b, b < 4 → (t.engine b).state = .free) ∧
      t = State.enterRun { s with tables := tables, loader := { s.loader with image := .valid } } receiving) ∧
    (∀ reason, judgeImage s.memory.image s.tables = .error reason →
      exec (.imageLoad receiving) s =
        .next (State.raise { s with tables := .empty, loader := ⟨.config, .invalid reason⟩ } .imageEvent)) ∧
    (Memory.block s.memory.image 0 4 ≠ [0x53, 0x48, 0x4C, 0x44] →
      judgeImage s.memory.image s.tables = .error .noSignature)) ∧
  (∀ (m : List Host.Cell) (t : Tables), Memory.wf m →
    let header := Memory.block m 0 164
    let bodyLength := rd32 header 5
    let body := Memory.block m 164 bodyLength
    let named := fun i => rd8 header (11 + 9 * i)
    let offset := fun i => rd32 header (12 + 9 * i)
    let length := fun i => rd32 header (16 + 9 * i)
    let signed := header.take 4 = [0x53, 0x48, 0x4C, 0x44]
    let formatted := header.getD 4 0 = 3 ∧
      ∀ id ∈ TableId.stored, ∃ i, i < 17 ∧ named i = id.code ∧ ∀ j, j < 17 → named j = id.code → j = i
    let measured := bodyLength ≤ 131072 - 164 ∧ ∀ i, i < 17 → offset i + length i ≤ bodyLength ∧
      ∀ id, TableId.ofCode (named i) = some id → length i = ((List.range id.entries).map id.entryLength).sum
    let checked := (crc16 body).toNat = rd16 header 9
    let loaded := (List.range 17).foldl (fun u i => match TableId.ofCode (named i) with
      | some id => u.storeRun id 0 id.entries ((body.drop (offset i)).take (length i))
      | none => u) t
    (¬ signed → judgeImage m t = .error .noSignature) ∧
    (signed → ¬ formatted → judgeImage m t = .error .format) ∧
    (signed → formatted → ¬ measured → judgeImage m t = .error .length) ∧
    (signed → formatted → measured → ¬ checked → judgeImage m t = .error .check) ∧
    (signed → formatted → measured → checked →
      (∀ id entry, loaded.validate = some (id, entry) → judgeImage m t = .error (.validation id entry)) ∧
      (loaded.validate = none → judgeImage m t = .ok { loaded with
        enables := (loaded.enables &&& 0xFFFE#16) ||| (t.enables &&& 0x0001#16) }))) ∧
  (∀ (m : List Host.Cell) (t w : Tables), Memory.wf m →
    TableId.stored.foldl (fun v id => v.storeRun id 0 id.entries (t.bytes id)) w = t → t.validate = none →
    judgeImage (Memory.write (writeUnsigned m t) 0 [0x53, 0x48, 0x4C, 0x44]) w =
      .ok { t with enables := (t.enables &&& 0xFFFE#16) ||| (w.enables &&& 0x0001#16) })

/-- A save that completes with every byte read back as written: the image region holds signature, header and body,
the status is VALID, and the reply is DONE; with a byte of header or body read back otherwise it leaves no signature, and
FAILED. Of several flaws at one byte the last is what it holds. That no
flaw falls on the signature itself is the model's choice (log 24), and so is the order of the directory of the header
written (log 46). -/
def Obligations.SaveCompletes : Prop :=
  ∀ (flaws : List (Nat × Byte)) (s : State) (tag : Byte) (copy : Tables) (rest : List MemOp), s.live = true →
    Memory.wf s.memory.image → s.store.queue = .imageSave tag copy :: rest → ∃ t,
    exec (.imageSaveComplete flaws) s = .next t ∧ t.store.queue = rest ∧ t.tables = s.tables ∧
    t.memory.rows = s.memory.rows ∧ EventFlag.imageEvent.of t.trunk.flags = true ∧ t.loader.op = s.loader.op ∧
    ((t.loader.image = .valid ∧ t.trunk.replies = s.trunk.replies ++ [⟨tag, 0x08, .done, []⟩] ∧
        Memory.block t.memory.image 0 (4 + (savedBytes copy).length) = Config.signature ++ savedBytes copy) ∨
      (t.loader.image = .invalid .noSignature ∧ t.trunk.replies = s.trunk.replies ++ [⟨tag, 0x08, .failed, []⟩] ∧
        Memory.block t.memory.image 0 4 ≠ Config.signature ∧
        ∃ f ∈ flaws, 4 ≤ f.1 ∧ f.1 < 4 + (savedBytes copy).length)) ∧
    (t.loader.image = .invalid .noSignature ↔ ∃ i b, (savedBytes copy)[i]? = some b ∧
      ((flaws.filter fun f => f.1 == 4 + i).map Prod.snd).getLastD b ≠ b)

/-- ROW_WRITE and ROW_READ at their completion: the operation leaves the queue, the row written is in the library
with a good check, a row is read back as it was written, and a row with a bad check answers FAILED. A ROW_WRITE of
which some byte does not read back as written answers FAILED. The absent next entry of the ROW_READ reply is sent as
zeros: the model's choice (log 15). -/
def Obligations.RowOperationsComplete : Prop :=
  ∀ (s : State) (tag : Byte) (b r : Nat) (content : List Byte) (rest : List MemOp), s.live = true → b < 4 → r < 32 →
    wellFormedContent content = true →
    (s.store.queue = .rowWrite tag b r content :: rest → (goodRow (placeOf content)).isSome = true ∧
      exec (.rowWriteComplete []) s = .next ({ s with
        store := { s.store with queue := rest }
        memory := { s.memory with rows := s.memory.rows.set (placeIndex b r) (placeOf content) } }.place tag 0x04
          .done [])) ∧
    (s.store.queue = .rowRead tag b r :: rest → s.memory.rows.get (placeIndex b r) = placeOf content →
      exec .rowReadComplete s = .next ({ s with store := { s.store with queue := rest } }.place tag 0x03 .done
        ([0x12] ++ u16 (256 * b + r) ++ [0, 1, 0, 0, 0] ++ content))) ∧
    (s.store.queue = .rowRead tag b r :: rest → goodRow (s.memory.rows.get (placeIndex b r)) = none →
      exec .rowReadComplete s = .next ({ s with store := { s.store with queue := rest } }.place tag 0x03 .failed [])) ∧
    (∀ flaws place, s.store.queue = .rowWrite tag b r content :: rest →
      place = flaws.foldl (fun l f => l.set f.1 f.2) (placeOf content) → place ≠ placeOf content →
      exec (.rowWriteComplete flaws) s = .next ({ s with
        store := { s.store with queue := rest }
        memory := { s.memory with rows := s.memory.rows.set (placeIndex b r) place } }.place tag 0x04 .failed []))

/-- ACTIVATE at its completion: a good row fills the buffer with the pairs whose channel LIGHTING owns, a bad one
leaves the bank IDLE and raises BANK_FAULT, and an orphan changes nothing but its mark. The settle time's end: the
bank becomes IDLE, or ACTIVATING on the row its engine waits for if the queue has room; if it has none the engine goes
FREE with BANK_FAULT. The default fade 0 of a bank with an empty buffer, inside `Bank.initial`, is the model's choice
(log 7). -/
def Obligations.BankEvents : Prop :=
  (∀ (s : State) (b r : Nat) (rest : List MemOp), s.live = true → b < 4 → s.store.queue = .activate b r :: rest →
    (∀ row, (s.bank b).orphan = false → goodRow (s.memory.rows.get (placeIndex b r)) = some row →
      exec .activateComplete s = .next { s with store := { s.store with
        queue := rest
        completions := s.store.completions ++ [b]
        banks := s.store.banks.set b { s.bank b with
          state := .active
          pairs := row.pairs.filter fun p => s.tables.lightingChannel p.1
          fade := row.fade
          skipped := (row.pairs.filter fun p => !s.tables.lightingChannel p.1).length } } }) ∧
    ((s.bank b).orphan = false → goodRow (s.memory.rows.get (placeIndex b r)) = none →
      exec .activateComplete s = .next (State.raise { s with store := { s.store with
        queue := rest
        completions := s.store.completions ++ [b]
        banks := s.store.banks.set b Bank.initial } } .bankFault)) ∧
    ((s.bank b).orphan = true →
      exec .activateComplete s = .next { s with store := { s.store with
        queue := rest
        banks := s.store.banks.set b { s.bank b with orphan := false } } })) ∧
  (∀ (s : State) (b : Fin 4), s.live = true → (s.bank b).settle.isSome = true →
    ((s.engine b).state ≠ .pending →
      exec (.settleExpiry b) s = .next { s with store := { s.store with
        banks := s.store.banks.set b { Bank.initial with orphan := (s.bank b).orphan } } }) ∧
    (∀ r, (s.engine b).state = .pending → (s.engine b).row = some r → s.store.queue.length < 8 →
      exec (.settleExpiry b) s = .next { s with store := { s.store with
        queue := s.store.queue ++ [.activate b r]
        banks := s.store.banks.set b { Bank.initial with
          state := .activating
          row := some r
          orphan := (s.bank b).orphan } } }) ∧
    (∀ r, (s.engine b).state = .pending → (s.engine b).row = some r → 8 ≤ s.store.queue.length →
      exec (.settleExpiry b) s = .next (State.raise { s with
        store := { s.store with
          banks := s.store.banks.set b { Bank.initial with orphan := (s.bank b).orphan } }
        engines := s.engines.set b Engine.initial } .bankFault)))

/-! ### Field segment (chapter 1) -/

/-- The end of a slot: the next slot of the round starts, POLL with its frame, SET and FREE with a frame composed
for their node, which leaves the urgent queue; a frame being received holds the transmission, not the composition. A
FREE slot that finds the queue empty passes on to the next. The pairs of a SET frame are one for each mapped channel of
the node, with the commanded value that stands, in ascending node channel. A slot that starts before the newest events of
the image composes with the image and the queue as they stood before them, and each of them then offers its nodes again; so
it starts where these begin with a further write of a series and are of one step, and behind every event otherwise. Which
of these moments it is where the image has taken a series is a free value, the model's choice (log 50): the statement holds
for every value of it. -/
def Obligations.NextSlotStarts : Prop :=
  (∀ (s : State) (receiving : Bool),
    let next := fun p => if p + 1 < s.tables.scheduleHead.slotCount then p + 1 else 0
    let sends := fun pos (frame : Outgoing) urgent => ({ s with seg := { s.seg with
      slotPos := pos
      phase := if receiving = true then .held false frame else
        match frame with
        | .poll n => .sendingPoll n
        | .set n pairs => .sendingSet n pairs
      urgent := urgent
      log := [] } } : State)
    let without := fun n => s.seg.urgent.filter fun e => e.address != n
    (∀ pos, pos = next s.seg.slotPos →
      ((s.tables.slots.get pos).kind = .poll →
        s.endSlot receiving = sends pos (.poll (s.tables.slots.get pos).address) s.seg.urgent) ∧
      ((s.tables.slots.get pos).kind = .set →
        s.endSlot receiving = sends pos
          (.set (s.tables.slots.get pos).address (s.setPairs (s.tables.slots.get pos).address))
          (without (s.tables.slots.get pos).address)) ∧
      (∀ e rest, (s.tables.slots.get pos).kind = .free → s.seg.urgent = e :: rest →
        s.endSlot receiving = sends pos (.set e.address (s.setPairs e.address)) (without e.address))) ∧
    (∀ k pos, k ≤ 128 → s.seg.urgent = [] → pos = next^[k + 1] s.seg.slotPos →
      (∀ j, j < k → (s.tables.slots.get (next^[j + 1] s.seg.slotPos)).kind = .free) →
      ((s.tables.slots.get pos).kind = .poll →
        s.endSlot receiving = sends pos (.poll (s.tables.slots.get pos).address) []) ∧
      ((s.tables.slots.get pos).kind = .set →
        s.endSlot receiving = sends pos
          (.set (s.tables.slots.get pos).address (s.setPairs (s.tables.slots.get pos).address)) []))) ∧
  (∀ (s : State) (n : Nat),
    (∀ k v, (k, v) ∈ s.setPairs n ↔ k < 16 ∧ ∃ ch, ch < 512 ∧ (s.tables.channels.get ch).mapped = true ∧
      (s.tables.channels.get ch).node = n ∧ (s.tables.channels.get ch).nodeChannel = k ∧
      (s.image.get ch).commanded = v) ∧
    (s.setPairs n).Pairwise (fun p q => p.1 ≤ q.1) ∧
    ((∀ c d, c < 512 → d < 512 → (s.tables.channels.get c).mapped = true → (s.tables.channels.get d).mapped = true →
        (s.tables.channels.get c).node = n → (s.tables.channels.get d).node = n →
        (s.tables.channels.get c).nodeChannel = (s.tables.channels.get d).nodeChannel → c = d) →
      (s.setPairs n).Pairwise (fun p q => p.1 < q.1))) ∧
  (∀ (s : State) (receiving : Bool) (older later : List ImageEvent), s.seg.log = older ++ later →
    let amid := ∃ e rest, later = e :: rest ∧ e.link = .sameSeries ∧ ∀ other ∈ rest, other.link ≠ .first
    let offered := fun (q : List UrgentEntry) (events : List ImageEvent) =>
      (events.flatMap ImageEvent.offers).foldl (fun q n => if ∃ e ∈ q, e.address = n then q else q ++ [⟨n, .value⟩]) q
    (¬ amid → s.endSlotBefore receiving later.length = s.endSlot receiving) ∧
    (∀ e rest, amid → later = e :: rest → ∃ (image : Tab ChannelRun 512) (u : State) (log : List ImageEvent),
      (∀ ch, ch < 512 → image.get ch = match (later.flatMap ImageEvent.before).find? fun b => b.1 == ch with
        | some b => b.2
        | none => s.image.get ch) ∧
      u = State.endSlot { s with image := image, seg := { s.seg with urgent := s.seg.urgent.take e.queued } } receiving ∧
      (log.length = later.length ∧ ∀ i, log[i]? = later[i]?.map fun event : ImageEvent =>
        { event with queued := (offered u.seg.urgent (later.take i)).length }) ∧
      s.endSlotBefore receiving later.length = { u with
        image := s.image
        seg := { u.seg with urgent := offered u.seg.urgent later, log := log } })) ∧
  (∀ (s : State) (receiving : Bool),
    (∀ n, s.seg.log.length < n → s.endSlotBefore receiving n = s.endSlot receiving) ∧
    ((∀ e ∈ s.seg.log, e.link ≠ .sameSeries) → s.endSlotAmid receiving = s.endSlot receiving) ∧
    ((∃ e ∈ s.seg.log, e.link = .sameSeries) → s.endSlotAmid receiving =
      State.endSlotBefore { s with seg := { s.seg with draws := s.seg.draws + 1 } } receiving
        (Config.laterEvents s.seg.draws)))

/-- The ends of the frames on the segment: after a POLL the master awaits the REPORT for the reply timeout; after a SET
the node's last-SET age starts again, its lapse flag is clear and the slot ends. A frame received in RUN that does not
end an awaiting slot is counted with FIELD_ERRORS and changes nothing else but a slot it held, whose frame then goes
out as it was made ready; one that began outside RUN is not counted. The moment of the next slot's start within the
writes of a series is the model's choice (log 50). The bytes of the POLL and the SET frame that go out are spelled,
and in every other phase the line is released. -/
def Obligations.SegmentFramesEnd : Prop :=
  (∀ (s : State) (n : Nat), s.running = true →
    (s.seg.phase = .sendingPoll n →
      exec .pollSent s = .next { s with seg := { s.seg with
        phase := .awaiting n
        replyTimer := some s.seg.replyTimeout } }) ∧
    (∀ pairs i receiving, s.seg.phase = .sendingSet n pairs → s.tables.nodeIndex n = some i →
      exec (.setSent receiving) s = .next (State.endSlotAmid { s with seg := { s.seg with
        nodes := s.seg.nodes.set i { s.seg.nodes.get i with
          lastSetMs := 0
          lapse := false
          refreshed := false } } } receiving))) ∧
  (∀ s : State, s.running = true →
    let goes := fun (frame : Outgoing) => match frame with
      | .poll n => SlotPhase.sendingPoll n
      | .set n pairs => .sendingSet n pairs
    let counted : Segment := { s.seg with checkErrors := min 65535 (s.seg.checkErrors + 1) }
    ((∀ frame, s.seg.phase ≠ .held false frame) → exec .fieldBadFrame s = .next
      (State.raise { s with seg := counted } .fieldErrors)) ∧
    (∀ frame, s.seg.phase = .held false frame → exec .fieldBadFrame s = .next
      (State.raise { s with seg := { counted with phase := goes frame } } .fieldErrors)) ∧
    (∀ address items, (s.seg.phase ≠ .awaiting address.toNat ∨ items.length = 0 ∨ 12 < items.length) →
      exec (.goodReport address items) s = exec .fieldBadFrame s) ∧
    (∀ frame, s.seg.phase = .held true frame →
      exec .ignoredFieldFrameEnd s = .next { s with seg := { s.seg with phase := goes frame } }) ∧
    ((∀ frame, s.seg.phase ≠ .held true frame) → exec .ignoredFieldFrameEnd s = .next s)) ∧
  (∀ s : State,
    let closed := fun covered : List Byte => some ([0x5A] ++ covered ++ u16 (crc16 covered).toNat)
    (∀ n, s.seg.phase = .sendingPoll n → s.frameOnField = closed (u8 n ++ [0x10, 0])) ∧
    (∀ n pairs, s.seg.phase = .sendingSet n pairs →
      s.frameOnField = closed (u8 n ++ [0x12] ++ u8 pairs.length ++ pairs.flatMap fun p => u8 p.1 ++ u16 p.2)) ∧
    (s.seg.phase = .silent ∨ (∃ stale frame, s.seg.phase = .held stale frame) ∨ (∃ n, s.seg.phase = .awaiting n) →
      s.frameOnField = none))

/-- A good REPORT in the slot that awaits it: the node is ONLINE with no misses, NODE_CHANGED is raised if it was
not ONLINE, the reply timer stops and no error is counted. That the slot ends and the next one starts before the node and
the items are taken is DEDUCED (log 20), and the moment of that start within the writes of a series before it the model's
choice (log 50). -/
def Obligations.GoodReportTaken : Prop :=
  ∀ (address : Byte) (items : List Item) (i : Nat) (s : State), s.running = true →
    s.seg.phase = .awaiting address.toNat → 1 ≤ items.length → items.length ≤ 12 →
    s.tables.nodeIndex address.toNat = some i → ∃ t,
    exec (.goodReport address items) s = .next t ∧
    (let u := ((s.setReplyTimer none).endSlotAmid false).moveNode address.toNat fun r =>
      { r with misses := 0, state := .online }
    t = u.asStep (u.takeItems address.toNat items)) ∧
    (t.seg.nodes.get i).state = .online ∧ (t.seg.nodes.get i).misses = 0 ∧
    ((s.seg.nodes.get i).state ≠ .online → EventFlag.nodeChanged.of t.trunk.flags = true) ∧
    t.seg.replyTimer = none ∧ t.seg.checkErrors = s.seg.checkErrors ∧ t.tables = s.tables ∧ t.memory = s.memory ∧
    t.store = s.store ∧ t.engines = s.engines ∧ t.loader = s.loader ∧ t.power = s.power

/-- A miss: the count and the state it makes by the node's limits. The reply timer's expiry: a miss of the node
awaited, NODE_CHANGED if that changes its state, and the slot ends. The moment of the next slot's start within the writes of
a series is the model's choice (log 50). -/
def Obligations.RepliesMissed : Prop :=
  (∀ (m : NodeRec) (r : NodeRun), let n := min 15 (r.misses + 1)
    (m.missed r).misses = n ∧ (m.missed r).lastSetMs = r.lastSetMs ∧ (m.missed r).lapse = r.lapse ∧
    (n < m.silent → (m.missed r).state = r.state) ∧
    (m.silent ≤ n → n < m.offline → (m.missed r).state = if r.state = .offline then .offline else .silent) ∧
    (m.silent ≤ n → m.offline ≤ n → (m.missed r).state = .offline)) ∧
  (∀ (receiving : Bool) (n i : Nat) (s : State), s.running = true → s.seg.phase = .awaiting n →
    s.seg.replyTimer.isSome = true → s.tables.nodeIndex n = some i →
    exec (.replyTimeout receiving) s = .next
      (((State.raiseIf { s with seg := { s.seg with
            replyTimer := none
            nodes := s.seg.nodes.set i ((s.tables.nodes.get i).missed (s.seg.nodes.get i)) } }
          ((s.seg.nodes.get i).state != ((s.tables.nodes.get i).missed (s.seg.nodes.get i)).state)
          .nodeChanged)).endSlotAmid receiving))

/-- An OK item: the value, or the limit it passes, with its quality, and the age starts again; no other point changes. A
FAULT item: the quality FAULT, or STALE where the age is at the max age already, with the value held. After the items
of a REPORT one UPLINK carries the forwarded points among them that differ from what they last sent. A point whose age
reaches its max age becomes STALE with its value held, and a forwarded one sends an UPLINK of its own; the watch
entries of a point that was usable lose it; no other point changes. That the event raises the age to the max age is
the model's choice (log 23). Each item of a REPORT is looked up by the node and its index; one that matches no point
is discarded, and one that does is taken as OK or FAULT, and the point offered to its consumers, in the order of R19's
table: the model's choice (log 12). That what one event does to the image is noted as one step is the model's choice
(log 50). -/
def Obligations.PointsChange : Prop :=
  (∀ (s : State) (p : Nat) (v : Int), p < 256 →
    let m := s.tables.points.get p
    let r := s.points.runs.get p
    (m.low ≤ v → v ≤ m.high →
      (s.okItem p v).points.runs.get p = { r with value := some v, quality := .good, ageMs := 0 }) ∧
    (v < m.low →
      (s.okItem p v).points.runs.get p = { r with value := some m.low, quality := .suspect, ageMs := 0 }) ∧
    (m.low ≤ v → m.high < v →
      (s.okItem p v).points.runs.get p = { r with value := some m.high, quality := .suspect, ageMs := 0 }) ∧
    (∀ q, q ≠ p → (s.okItem p v).points.runs.get q = s.points.runs.get q)) ∧
  (∀ (p : Fin 256) (s : State), s.running = true →
    (s.points.runs.get p).quality ≠ .never → (s.points.runs.get p).quality ≠ .stale → ∃ t,
    exec (.pointStale p) s = .next t ∧ (t.points.runs.get p).quality = .stale ∧
    (t.points.runs.get p).value = (s.points.runs.get p).value ∧
    (∀ q, q ≠ p.val → t.points.runs.get q = s.points.runs.get q) ∧
    (isSet (s.tables.points.get p).forward = false →
      (t.points.runs.get p).sentValue = (s.points.runs.get p).sentValue ∧
      (t.points.runs.get p).sentQuality = (s.points.runs.get p).sentQuality) ∧
    ((s.points.runs.get p).quality.usable = true → ∀ k, k < 32 → s.tables.chained k = false →
      (s.tables.watch.get k).point.get = some p.val → (t.watch.runs.get k).lost = true) ∧
    t.tables = s.tables ∧ t.memory = s.memory ∧ t.store = s.store ∧ t.engines = s.engines ∧ t.loader = s.loader ∧
    ((s.points.runs.get p).quality = .fault → isSet (s.tables.points.get p).forward = false →
      t = { s with points := t.points })) ∧
  (∀ (s : State) (p : Nat), p < 256 →
    let m := s.tables.points.get p
    let r := s.points.runs.get p
    let t := s.faultItem p
    let late := fun age => if 1000 * m.maxAge ≤ age then Quality.stale else .fault
    (r.quality = .fault ∨ r.quality = .stale → t = s) ∧
    (r.quality = .never → ∃ age, age = min 65535000 s.points.runMs ∧
      t = { s with points := { s.points with runs := s.points.runs.set p { r with
        ageMs := age
        quality := late age } } }) ∧
    (r.quality = .good ∨ r.quality = .suspect →
      t = State.lossOfUse { s with points := { s.points with
        runs := s.points.runs.set p { r with quality := late r.ageMs } } } p ∧
      t.points.runs = s.points.runs.set p { r with quality := late r.ageMs } ∧
      t.watch = (s.watchLoss p).watch)) ∧
  (∀ (s : State) (n : Nat) (items : List Item),
    (s.takeItems n items =
      let u := items.foldl (fun u i => u.applyItem n i) s
      u.sendUplink (u.uplinkPoints n items)) ∧
    (s.uplinkPoints n items).Pairwise (· < ·) ∧
    (∀ p, p ∈ s.uplinkPoints n items ↔
      let m := s.tables.points.get p
      let r := s.points.runs.get p
      p < 256 ∧ m.mapped = true ∧ isSet m.forward = true ∧ m.node = n ∧ (∃ i ∈ items, i.index.toNat = m.index) ∧
      (r.sentQuality ≠ some r.quality ∨
        (∃ v w, r.value = some v ∧ r.sentValue = some w ∧ (m.deadband : Int) < |v - w|) ∨
        r.value.isSome ≠ r.sentValue.isSome))) ∧
  (∀ (s : State) (points : List Nat), (∀ p ∈ points, p < 256) →
    let t := s.sendUplink points
    (points = [] → t = s) ∧
    (points ≠ [] → s.trunk.reports.length < 16 →
      t = { s with trunk := t.trunk, points := { s.points with runs := t.points.runs } } ∧
      t.trunk.flags = s.trunk.flags ∧
      t.trunk.reports = s.trunk.reports ++
        [.uplink (points.map fun p => ⟨p, (s.points.runs.get p).value, (s.points.runs.get p).quality⟩)] ∧
      ∀ p, p < 256 → t.points.runs.get p = if p ∈ points then { s.points.runs.get p with
          sentValue := (s.points.runs.get p).value
          sentQuality := some (s.points.runs.get p).quality } else s.points.runs.get p) ∧
    (points ≠ [] → 16 ≤ s.trunk.reports.length →
      t = { s with trunk := t.trunk } ∧ t.trunk.reports = s.trunk.reports ∧
      t.trunk.counters.uplinksDropped = min 65535 (s.trunk.counters.uplinksDropped + 1) ∧
      EventFlag.uplinkDropped.of t.trunk.flags = true)) ∧
  (∀ (p : Fin 256) (s : State), s.running = true → isSet (s.tables.points.get p).forward = true →
    (s.points.runs.get p).quality ≠ .never → (s.points.runs.get p).quality ≠ .stale →
    let r := s.points.runs.get p
    let u : State := { s with points := { s.points with runs := s.points.runs.set p { r with
      quality := .stale
      ageMs := max r.ageMs (1000 * (s.tables.points.get p).maxAge) } } }
    exec (.pointStale p) s = .next
      (s.asStep (State.sendUplink (if r.quality.usable = true then u.lossOfUse p else u) [p.val]))) ∧
  (∀ (s : State) (n : Nat) (item : Item),
    let names := fun p => p < 256 ∧ (s.tables.points.get p).mapped = true ∧ (s.tables.points.get p).node = n ∧
      (s.tables.points.get p).index = item.index.toNat
    ((∀ p, ¬ names p) → s.applyItem n item = s) ∧
    (∀ p, names p → (∀ q, q < p → ¬ names q) →
      (item.quality = .ok → s.applyItem n item = s.okItem p item.value.toInt) ∧
      (item.quality = .fault → s.applyItem n item = s.faultItem p))) ∧
  (∀ (s : State) (p : Nat) (v : Int),
    let m := s.tables.points.get p
    let r := s.points.runs.get p
    let held : Int × Quality :=
      if v < m.low then (m.low, .suspect) else if m.high < v then (m.high, .suspect) else (v, .good)
    let u : State := { s with points := { s.points with runs := s.points.runs.set p { r with
      value := some held.1
      quality := held.2
      ageMs := 0 } } }
    s.okItem p v = (((u.watchValue p held.1).fogPoint p).zonePoint p).heatArrival p ∧
    s.lossOfUse p = ((s.watchLoss p).fogPoint p).zonePoint p)

/-! ### Channel image (chapter 2) -/

/-- A demand write in RUN: the demand, the commanded value under the guard level, and the offer of the node if the
commanded value changed; it is one event of the image, noted with what it changed. A series takes its writes one by one in
their order, each behind the first marked as a further write of the series, and of two writes to one channel the later
stands; the events of a commit, and those of a step that does more than one thing, are marked as one step. That the image's events are kept so is the model's choice (log 50). -/
def Obligations.DemandWritten : Prop :=
  (∀ (s : State) (ch level : Nat), s.inRun = true → (s.tables.channels.get ch).mapped = true →
    let c := (s.tables.channels.get ch).commandedFor s.watch.guard level
    let n := (s.tables.channels.get ch).node
    let event := fun offers : List Nat => (⟨[(ch, s.image.get ch)], s.seg.urgent.length, offers, .first⟩ : ImageEvent)
    (c = (s.image.get ch).commanded → s.writeDemand ch level = { s with
      image := s.image.set ch ⟨level, c⟩
      seg := { s.seg with log := s.seg.log ++ [event []] } }) ∧
    (c ≠ (s.image.get ch).commanded → s.writeDemand ch level = { s with
      image := s.image.set ch ⟨level, c⟩
      seg := { s.seg with
        urgent := if ∃ e ∈ s.seg.urgent, e.address = n then s.seg.urgent else s.seg.urgent ++ [⟨n, .value⟩]
        log := s.seg.log ++ [event [n]] } })) ∧
  (∀ (s : State) (writes : List (Nat × Nat)),
    let t := s.writeSeries writes
    t = s.asSeries (writes.foldl (fun t w => t.writeDemand w.1 w.2) s) ∧
    (s.inRun = true → (∀ w ∈ writes, w.1 < 512 ∧ (s.tables.channels.get w.1).mapped = true) →
      (∀ ch, ch < 512 → t.image.get ch = match (writes.filter fun w => w.1 == ch).getLast? with
        | some w => ⟨w.2, (s.tables.channels.get ch).commandedFor s.watch.guard w.2⟩
        | none => s.image.get ch) ∧
      ∃ events, t.seg.log = s.seg.log ++ events ∧ events.length = writes.length ∧
        ∀ e ∈ events.drop 1, e.link = .sameSeries)) ∧
  (∀ s t : State,
    (t.seg.log = s.seg.log → s.asSeries t = t ∧ s.asCommit t = t ∧ s.asStep t = t) ∧
    (∀ e rest, t.seg.log = s.seg.log ++ e :: rest →
      let marked := fun link : EventLink → EventLink => ({ t with seg := { t.seg with
        log := s.seg.log ++ e :: rest.map fun other => { other with link := link other.link } } } : State)
      s.asSeries t = marked (fun _ => .sameSeries) ∧ s.asCommit t = marked (fun _ => .sameStep) ∧
      s.asStep t = marked fun link => if link = .first then .sameStep else link))

/-- The commanded value of a mapped channel: the demand clamped to floor..limit, the limit prevailing below the
floor; the limit is the ceiling, or the lesser of ceiling and cap of a heat-bearing channel. And every step keeps
it so. -/
def Obligations.CommandedIsClamped : Prop :=
  (∀ (r : ChannelRec) (g : GuardLevel) (demand : Nat),
    let limit := if isSet r.heatBearing = true then
        (match g with
        | .normal => r.ceiling
        | .warm => min r.ceiling r.warmCap
        | .critical => min r.ceiling r.criticalCap)
      else r.ceiling
    r.commandedFor g demand = min limit (max r.floor demand)) ∧
  KeptByStep State.commandedLaw

/-- The urgent queue: an offer joins at the tail or leaves the queue as it is, and no step makes it hold a node
twice. -/
def Obligations.UrgentQueueHolds : Prop :=
  (∀ (q : List UrgentEntry) (a : Nat) (reason : JoinReason),
    ((∃ e ∈ q, e.address = a) → offerNode q a reason = q) ∧
    ((∀ e ∈ q, e.address ≠ a) → offerNode q a reason = q ++ [⟨a, reason⟩])) ∧
  KeptByStep State.urgentLaw

/-- Refresh expiry and lapse of a node that takes SET frames. That the event itself raises the age to the value it
stands for is the model's choice (log 23), and so is that an offer of it puts every write before it behind the next
composition (log 50). -/
def Obligations.RefreshAndLapse : Prop :=
  ∀ (a : Byte) (m : NodeRec) (i : Nat) (s : State), s.running = true → s.tables.nodeIndex a.toNat = some i →
    s.tables.nodes.get i = m → m.takesSet = true →
    ((s.seg.nodes.get i).refreshed = false → ∃ nodes,
      nodes = s.seg.nodes.set i { s.seg.nodes.get i with
        refreshed := true
        lastSetMs := max (s.seg.nodes.get i).lastSetMs (1000 * m.refresh) } ∧
      exec (.refreshExpiry a) s = .next { s with seg := { s.seg with
        nodes := nodes
        urgent := if s.inTransmission a.toNat = true then s.seg.urgent
          else offerNode s.seg.urgent a.toNat .refresh
        log := if s.inTransmission a.toNat = true then s.seg.log else [] } }) ∧
    ((s.seg.nodes.get i).lapse = false → ∃ nodes,
      nodes = s.seg.nodes.set i { s.seg.nodes.get i with
        lapse := true
        lastSetMs := max (s.seg.nodes.get i).lastSetMs (min 65535 (2000 * m.refresh + 1)) } ∧
      exec (.refreshLapse a) s = .next (State.raise { s with seg := { s.seg with nodes := nodes } } .refreshLapse))

/-! ### Surface watch (chapter 3) -/

/-- The surface watch at its timers, at a value update, and at a loss of use of the point. A timer: what the expiry
does to its entry, with the guard level found again at the end and, where the entry chains to no other, every other
entry as it was. A value update: the condition by the comparison with hysteresis, and what its edge does in each mode;
after a loss of use the condition is found plainly. A loss of use: the stale policy, under which a TRIP entry stays
TRIPPED at the end of its window. A chained entry counts the transitions into TRIPPED of the entry before it, chained or
not, in the same event, whichever event it is. That a LATCHED entry of mode RATE or COUNT goes on counting is DEDUCED (log 25). -/
def Obligations.WatchTimersExpire : Prop :=
  (∀ (k : Fin 32) (s : State), s.running = true → (s.watch.runs.get k).timer.isSome = true →
    let r := s.tables.watch.get k
    let w := s.watch.runs.get k
    let After := fun (c : Instr) (p : WatchRun → State → Prop) => ∃ t, exec c s = .next t ∧
      p (t.watch.runs.get k) t ∧ t.watch.guard = guardOf s.tables t.watch.runs ∧ s.besideGuard t ∧
      (isSet r.chain = false → ∀ j, j ≠ k.val → t.watch.runs.get j = s.watch.runs.get j)
    (r.mode = .delay → w.state = .qualifying →
      After (.qualifyExpiry k) fun w' _ => w' = { w with state := .tripped, timer := none }) ∧
    (r.mode = .delay → w.state = .releasing →
      After (.releaseExpiry k) fun w' _ => w' = { w with state := .idle, timer := none }) ∧
    (r.mode = .pulse → w.state = .tripped → isSet r.latch = false →
      After (.holdExpiry k) fun w' _ => w' = { w with state := .idle, timer := none }) ∧
    (r.mode = .pulse → w.state = .tripped → isSet r.latch = true →
      After (.holdExpiry k) fun w' t => w' = { w with state := .latched, timer := none } ∧
        EventFlag.watchLatched.of t.trunk.flags = true) ∧
    (r.mode = .rate ∨ r.mode = .count → (w.state ≠ .tripped ∨ r.limit ≤ w.count) →
      After (.windowExpiry k) fun w' _ => w' = { w with count := 0, timer := some (1000 * r.window) }) ∧
    (r.mode = .rate ∨ r.mode = .count → w.state = .tripped → w.count < r.limit →
      (s.tables.chained k = true ∨ r.stale ≠ .trip ∨ w.lost = false) →
      After (.windowExpiry k) fun w' t => w' = { w with
        count := 0
        timer := some (1000 * r.window)
        state := if isSet r.latch = true then .latched else .idle } ∧
        (isSet r.latch = true → EventFlag.watchLatched.of t.trunk.flags = true)) ∧
    (r.mode = .rate ∨ r.mode = .count → w.state = .tripped → s.tables.chained k = false → r.stale = .trip →
      w.lost = true →
      After (.windowExpiry k) fun w' _ => w' = { w with count := 0, timer := some (1000 * r.window) })) ∧
  (∀ (k : Fin 32) (s : State), s.running = true → (s.watch.runs.get k).timer.isSome = true → k.val + 1 < 32 →
    (s.tables.watch.get k).mode = .delay → (s.watch.runs.get k).state = .qualifying →
    isSet (s.tables.watch.get k).chain = true → ∃ t,
    exec (.qualifyExpiry k) s = .next t ∧
    (t.watch.runs.get (k.val + 1)).count = min 255 ((s.watch.runs.get (k.val + 1)).count + 1) ∧
    ((s.watch.runs.get (k.val + 1)).state = .idle →
      (t.watch.runs.get (k.val + 1)).state =
        if (s.tables.watch.get (k.val + 1)).limit ≤ min 255 ((s.watch.runs.get (k.val + 1)).count + 1) then .tripped
        else .idle)) ∧
  (∀ (k : Fin 32) (s : State) (c : Instr), c ∈ [.qualifyExpiry k, .releaseExpiry k, .holdExpiry k, .windowExpiry k] →
    ∃ t, exec c s = .next t ∧
    (∀ j, j ≠ k.val → s.tables.chained j = false → t.watch.runs.get j = s.watch.runs.get j) ∧
    (∀ j, j + 1 < 32 → j + 1 ≠ k.val → isSet (s.tables.watch.get j).chain = true →
      let n := min 255 ((s.watch.runs.get (j + 1)).count + 1)
      let w := s.watch.runs.get (j + 1)
      let trips := (s.watch.runs.get j).state ≠ .tripped ∧ (t.watch.runs.get j).state = .tripped
      (trips → t.watch.runs.get (j + 1) = { w with
        count := n
        state := if w.state = .idle ∧ (s.tables.watch.get (j + 1)).limit ≤ n then .tripped else w.state }) ∧
      (¬ trips → t.watch.runs.get (j + 1) = w))) ∧
  (∀ (r : WatchRec) (low high v : Int) (cond : Bool),
    let c := r.evaluate ⟨low, high⟩ v cond
    let h : Int := if cond = true then r.hysteresis else 0
    (r.compare = .above → (c = true ↔ low - h < v)) ∧ (r.compare = .below → (c = true ↔ v < low + h)) ∧
    (r.compare = .outside → (c = true ↔ v < low + h ∨ high - h < v))) ∧
  (∀ (s : State) (p k : Nat) (v : Int), k < 32 →
    let r := s.tables.watch.get k
    let w := s.watch.runs.get k
    let limits : Limits := ⟨s.tables.thresholds.get r.threshold, s.tables.thresholds.get r.highThreshold⟩
    let t := s.watchValue p v
    let now := t.watch.runs.get k
    (s.tables.chained k = false → r.point.get ≠ some p → now = w) ∧
    (s.tables.chained k = false → r.point.get = some p →
      (w.lost = false → r.edgeGives w (r.evaluate limits v w.cond) now) ∧
      (w.lost = true →
        let c := r.evaluate limits v false
        let back : WatchRun := { w with lost := false }
        (w.state = .latched → now = { back with cond := c }) ∧
        (w.state = .tripped → r.stale = .trip →
          (r.mode = .delay → r.edgeGives back c now) ∧
          (r.mode = .pulse → now = { back with cond := c, timer := some (1000 * r.hold) }) ∧
          (r.mode = .rate ∨ r.mode = .count → now = { back with cond := c })) ∧
        (w.state ≠ .latched → ¬ (w.state = .tripped ∧ r.stale = .trip) → r.edgeGives back c now)) ∧
      (now.state = .latched → w.state ≠ .latched → EventFlag.watchLatched.of t.trunk.flags = true)) ∧
    t.watch.guard = guardOf s.tables t.watch.runs ∧ s.besideGuard t) ∧
  (∀ (s : State) (p k : Nat), k < 32 →
    let r := s.tables.watch.get k
    let w := s.watch.runs.get k
    let t := s.watchLoss p
    let now := t.watch.runs.get k
    let timer := if r.mode = .delay ∨ r.mode = .pulse then none else w.timer
    (s.tables.chained k = false → r.point.get ≠ some p → now = w) ∧
    (s.tables.chained k = false → r.point.get = some p →
      (r.stale = .hold → now = { w with lost := true }) ∧
      (r.stale = .trip → w.state = .latched → now = { w with lost := true, cond := true }) ∧
      (r.stale = .trip → w.state ≠ .latched →
        now = { w with lost := true, cond := true, state := .tripped, timer := timer }) ∧
      (r.stale = .clear → w.state = .latched → now = { w with lost := true, cond := false }) ∧
      (r.stale = .clear → w.state = .tripped → isSet r.latch = true →
        now = { w with lost := true, cond := false, state := .latched, timer := timer } ∧
        EventFlag.watchLatched.of t.trunk.flags = true) ∧
      (r.stale = .clear → w.state ≠ .latched → (w.state ≠ .tripped ∨ isSet r.latch = false) →
        now = { w with lost := true, cond := false, state := .idle, timer := timer })) ∧
    t.watch.guard = guardOf s.tables t.watch.runs ∧ s.besideGuard t) ∧
  (∀ (s t : State) (p k : Nat) (v : Int), k + 1 < 32 → (t = s.watchValue p v ∨ t = s.watchLoss p) →
    let n := min 255 ((s.watch.runs.get (k + 1)).count + 1)
    let w := s.watch.runs.get (k + 1)
    let trips := (s.watch.runs.get k).state ≠ .tripped ∧ (t.watch.runs.get k).state = .tripped
    isSet (s.tables.watch.get k).chain = true →
    (trips → t.watch.runs.get (k + 1) = { w with
      count := n
      state := if w.state = .idle ∧ (s.tables.watch.get (k + 1)).limit ≤ n then .tripped else w.state }) ∧
    (¬ trips → t.watch.runs.get (k + 1) = w)) ∧
  (∀ (s : State) (p : Nat) (v : Int),
    let m := s.tables.points.get p
    (s.okItem p v).watch = (s.watchValue p (if v < m.low then m.low else min v m.high)).watch ∧
    (s.lossOfUse p).watch = (s.watchLoss p).watch)

/-- RELEASE_WATCH: each masked LATCHED entry goes IDLE, but that one of stale policy TRIP whose lost mark is set goes on
to TRIPPED, which the entry it chains to counts; no other entry changes, and the reply names those that left LATCHED. That
bit k of a mask from the least significant bit stands for entry k is the model's choice (log 26), and so is that the count
comes after the release of the entry that counts (log 39). -/
def Obligations.WatchReleased : Prop :=
  ∀ (tag : Byte) (mask : BitVec 32) (s : State), s.serves → ∃ t,
    exec (.releaseWatch tag mask) s = .next t ∧
    (let released := fun k =>
      let w := s.watch.runs.get k
      let trips := s.tables.chained k = false ∧ (s.tables.watch.get k).stale = .trip ∧ w.lost = true
      if mask.getLsbD k = true ∧ w.state = .latched then
        { w with
          state := if trips then .tripped else .idle
          cond := if trips then true else false
          count := 0 }
      else w
    (∀ k, k < 32 → s.tables.chained k = false → t.watch.runs.get k = released k) ∧
    (∀ k, k + 1 < 32 → isSet (s.tables.watch.get k).chain = true →
      let trips := (s.watch.runs.get k).state ≠ .tripped ∧ (t.watch.runs.get k).state = .tripped
      let n := min 255 ((released (k + 1)).count + 1)
      (¬ trips → t.watch.runs.get (k + 1) = released (k + 1)) ∧
      (trips → t.watch.runs.get (k + 1) = { released (k + 1) with
        count := n
        state := if (released (k + 1)).state = .idle ∧ (s.tables.watch.get (k + 1)).limit ≤ n then .tripped
          else (released (k + 1)).state }))) ∧
    t.watch.guard = guardOf s.tables t.watch.runs ∧ s.besideGuard t ∧
    ∃ left : BitVec 32, t.trunk.replies = s.trunk.replies ++ [⟨tag, 0x0E, .done, u32 left.toNat⟩] ∧
      ∀ k, k < 32 → left.getLsbD k = (mask.getLsbD k && (s.watch.runs.get k).state == .latched)

/-- The guard level is always the highest severity among the tripped entries, and NORMAL outside RUN; every step
keeps it so. A reset, the entry to RUN and the way out of it leave it NORMAL with every entry IDLE. -/
def Obligations.GuardLevelFollows : Prop :=
  (∀ (t : Tables) (runs : Tab WatchRun 32),
    let tripped := fun k => k < 32 ∧ ((runs.get k).state = .tripped ∨ (runs.get k).state = .latched)
    ((∃ k, tripped k ∧ (t.watch.get k).severity = .critical) → guardOf t runs = .critical) ∧
    ((¬ ∃ k, tripped k ∧ (t.watch.get k).severity = .critical) →
      ((∃ k, tripped k ∧ (t.watch.get k).severity = .warm) → guardOf t runs = .warm) ∧
      ((¬ ∃ k, tripped k ∧ (t.watch.get k).severity = .warm) → guardOf t runs = .normal))) ∧
  KeptByStep State.guardLaw ∧
  (∀ t : State, ((∃ pending memory straps cause, t = State.started pending memory straps cause) ∨
      (∃ (s : State) (receiving : Bool), t = s.enterRun receiving) ∨ (∃ s : State, t = s.leaveRun)) →
    t.watch.guard = .normal ∧ ∀ k, k < 32 → (t.watch.runs.get k).state = .idle)

/-- A change of the guard level: GUARD_CHANGED, the re-clamp of the heat-bearing channels with their demands kept, the
nodes of the channels that change joining the urgent queue in ascending channel number where they do not stand in it, and, at
CRITICAL, the abort of an open bracket. The re-clamp is one event of the image; that it is noted so is the model's choice
(log 50). -/
def Obligations.GuardChangeDelivered : Prop :=
  ∀ (s : State) (g : GuardLevel), g ≠ s.watch.guard →
    let t := s.setGuard g
    t.watch = { s.watch with guard := g } ∧ EventFlag.guardChanged.of t.trunk.flags = true ∧
    (∀ ch, ch < 512 → (t.image.get ch).demand = (s.image.get ch).demand ∧
      (t.image.get ch).commanded =
        if (s.tables.channels.get ch).mapped = true ∧ isSet (s.tables.channels.get ch).heatBearing = true then
          (s.tables.channels.get ch).commandedFor g (s.image.get ch).demand
        else (s.image.get ch).commanded) ∧
    (∃ joined, t.seg = { s.seg with urgent := s.seg.urgent ++ joined, log := t.seg.log } ∧
      ∀ e ∈ joined, e.reason = .value) ∧
    (let changed := (List.range 512).filter fun ch => (t.image.get ch).commanded != (s.image.get ch).commanded
    let nodes := changed.map fun ch => (s.tables.channels.get ch).node
    t.seg.urgent = nodes.foldl
      (fun q n => if ∃ e ∈ q, e.address = n then q else q ++ [⟨n, .value⟩]) s.seg.urgent ∧
    t.seg.log = s.seg.log ++ [⟨changed.map fun ch => (ch, s.image.get ch), s.seg.urgent.length, nodes, .first⟩]) ∧
    (∀ ch, ch < 512 → (t.image.get ch).commanded ≠ (s.image.get ch).commanded →
      ∃ e ∈ t.seg.urgent, e.address = (s.tables.channels.get ch).node) ∧
    (g ≠ .critical ∨ s.bracket.state.isOpen = false → t.bracket = s.bracket) ∧
    (g = .critical → s.bracket.state.isOpen = true →
      t.bracket.state = .aborted s.bracket.state.depth ∧ t.bracket.stage = [] ∧
      t.bracket.record = some (s.bracket.abortRecord .critical .guard none none)) ∧
    s.besideGuard t

/-! ### Fog monitor (chapter 4) -/

/-- The state a margin gives, from the state before. -/
def Obligations.FogStateTable : Prop :=
  ∀ (r : FogTuneRec) (m : Int),
    (∀ before, before = .unknown ∨ before = .clear →
      (m < r.risk → r.nextState before m = .risk) ∧
      (r.risk ≤ m → m < r.warn → r.nextState before m = .watch) ∧
      (r.risk ≤ m → r.warn ≤ m → r.nextState before m = .clear)) ∧
    ((m < r.risk → r.nextState .watch m = .risk) ∧
      (r.risk ≤ m → r.warn + r.hysteresis ≤ m → r.nextState .watch m = .clear) ∧
      (r.risk ≤ m → m < r.warn + r.hysteresis → r.nextState .watch m = .watch)) ∧
    ((r.warn + r.hysteresis ≤ m → r.nextState .risk m = .clear) ∧
      (m < r.warn + r.hysteresis → r.risk + r.hysteresis ≤ m → r.nextState .risk m = .watch) ∧
      (m < r.warn + r.hysteresis → m < r.risk + r.hysteresis → r.nextState .risk m = .risk))

/-- The saturation pressure by interpolation, the vapour pressure, and the dew point by inverse interpolation. With a
saturation table that rises strictly from 1 or more, the dew point never exceeds the clamped air temperature it is
computed from, and both it and the margin stay in their ranges. -/
def Obligations.DewPointBounded : Prop :=
  (∀ (e : Tab Nat 101) (t c : Int) (rh : Nat), 1 ≤ e.get 0 → (∀ i, i < 100 → e.get i < e.get (i + 1)) →
    -400 ≤ t → t ≤ 600 → -400 ≤ c → c ≤ 600 → rh ≤ 1000 →
    let d := dewPoint e (vapourPressure (saturationAt e t) rh)
    (-400 ≤ d.td ∧ d.td ≤ t) ∧ (-1000 ≤ c - d.td ∧ c - d.td ≤ 1000)) ∧
  (∀ (e : Tab Nat 101) (i f : Nat), i ≤ 100 → f ≤ 9 → (i = 100 → f = 0) →
    saturationAt e (10 * (i : Int) + f - 400) =
      if i = 100 then e.get 100 else e.get i + (e.get (i + 1) - e.get i) * f / 10) ∧
  (∀ es rh : Nat, vapourPressure es rh = (es * rh + 500) / 1000) ∧
  (∀ (e : Tab Nat 101) (p : Nat), (∀ i, i < 100 → e.get i < e.get (i + 1)) →
    (p < e.get 0 → dewPoint e p = ⟨-400, true, false⟩) ∧
    (e.get 100 ≤ p → dewPoint e p = ⟨600, false, true⟩) ∧
    (∀ j, j < 100 → e.get j ≤ p → p < e.get (j + 1) → dewPoint e p =
      ⟨10 * (j : Int) - 400 + (((p - e.get j) * 10 / (e.get (j + 1) - e.get j) : Nat) : Int), false, false⟩))

/-- The timers of the fog monitor, with the published record up to date: a step timer moves the pattern on, writes the fan
demand of the new step and starts again; the dehumidifier's run and rest timers. A value update or a loss of use of a
point: each in-use station that names it is evaluated, in ascending number, and then the record is published anew. An
evaluation: UNKNOWN without its three points, or dew point and margin and the state they give; a change of state
raises FOG_CHANGED and starts the pattern of the new state. A change of the published demand: a rise from 0 starts the
unit, and a fall to 0 rests one that has served its least time. That the writes of one event are noted as a series is
the model's choice (log 50). -/
def Obligations.FogTimersExpire : Prop :=
  (∀ (i : Fin 8) (s : State), s.running = true → s.tables.stationInUse i = true →
    (s.fog.stations.get i).timer.isSome = true → s.fog.demand = publishedDemand s.tables s.fog →
    s.fog.promotion = publishedPromotion s.tables s.fog →
    let r := s.tables.fogTune.get i
    let st := s.fog.stations.get i
    let step := if st.step = 15 then 0 else st.step + 1
    st.step < 16 →
    exec (.patternStepExpiry i) s = .next (State.writeDemandTo
      { s with fog := { s.fog with stations := s.fog.stations.set i { st with
          step := step
          timer := some (1000 * r.period) } } }
      r.fan.get (if (r.pattern st.state).getLsbD step = true then r.fanLevel else 0))) ∧
  (∀ s : State, s.running = true → s.fog.demand = publishedDemand s.tables s.fog →
    s.fog.promotion = publishedPromotion s.tables s.fog →
    (s.fog.runTimer.isSome = true → s.fog.demand = 0 →
      exec .dehumidRunExpiry s = .next (State.writeDemandTo
        { s with fog := { s.fog with
          unitState := .resting
          runTimer := none
          restTimer := some (1000 * s.tables.dehumid.minRest)
          served := true } } s.tables.motor.get 0)) ∧
    (s.fog.runTimer.isSome = true → 0 < s.fog.demand →
      exec .dehumidRunExpiry s = .next { s with fog := { s.fog with runTimer := none, served := true } }) ∧
    (s.fog.restTimer.isSome = true → s.fog.demand = 0 →
      exec .dehumidRestExpiry s = .next { s with fog := { s.fog with restTimer := none, unitState := .off } }) ∧
    (s.fog.restTimer.isSome = true → 0 < s.fog.demand →
      exec .dehumidRestExpiry s = .next (State.writeDemandTo
        { s with fog := { s.fog with
          unitState := .running
          runTimer := some (1000 * s.tables.dehumid.minRun)
          restTimer := none
          served := false } } s.tables.motor.get 1000))) ∧
  (∀ (s : State) (p : Nat),
    let names := fun i => s.tables.stationInUse i && ((s.tables.fogMap.get i).humidity.get == some p ||
      (s.tables.fogMap.get i).air.get == some p || (s.tables.fogMap.get i).chill.get == some p)
    let reached := (List.range 8).filter names
    (reached = [] → s.fogPoint p = s) ∧
    (reached ≠ [] → s.fogPoint p = s.asSeries (reached.foldl State.evaluateStation s).publishFog)) ∧
  (∀ (s : State) (i h a c : Nat), i < 8 → (s.tables.fogMap.get i).humidity.get = some h →
    (s.tables.fogMap.get i).air.get = some a → (s.tables.fogMap.get i).chill.get = some c →
    let r := s.tables.fogTune.get i
    let st := s.fog.stations.get i
    let usable := fun p => (s.points.runs.get p).quality = .good ∨ (s.points.runs.get p).quality = .suspect
    let becomes := fun (found : StationRun) (n : FogState) =>
      (n = st.state →
        s.evaluateStation i = { s with fog := { s.fog with stations := s.fog.stations.set i found } }) ∧
      (n ≠ st.state → s.evaluateStation i = State.writeDemandTo
        (State.raise { s with fog := { s.fog with stations := s.fog.stations.set i { found with
          state := n
          step := 0
          timer := some (1000 * r.period) } } } .fogChanged)
        r.fan.get (if (r.pattern n).getLsbD 0 = true then r.fanLevel else 0))
    (¬ usable h ∨ ¬ usable a ∨ ¬ usable c →
      becomes { st with dewPoint := none, margin := none, lowE := false, highE := false } .unknown) ∧
    (∀ x y z, usable h → usable a → usable c → (s.points.runs.get h).value = some x →
      (s.points.runs.get a).value = some y → (s.points.runs.get c).value = some z →
      let d := dewPoint s.tables.saturation (vapourPressure (saturationAt s.tables.saturation (max (-400) (min y 600)))
        (max 0 (min x 1000)).toNat)
      let m := max (-400) (min z 600) - d.td
      becomes { st with dewPoint := some d.td, margin := some m, lowE := d.lowE, highE := d.highE }
        (r.nextState st.state m))) ∧
  (∀ s : State,
    let inUse := (List.range 8).filter fun i => s.tables.stationInUse i
    let demand := (inUse.map fun i => match (s.fog.stations.get i).state with
      | .risk => (s.tables.fogTune.get i).riskDemand
      | .watch => (s.tables.fogTune.get i).watchDemand
      | .unknown => (s.tables.fogTune.get i).watchDemand
      | .clear => 0).foldl max 0
    let before := s.fog.demand
    let u : State := { s with fog := { s.fog with
      demand := demand
      promotion := inUse.any fun i => (s.fog.stations.get i).state == .risk } }
    (s.fog.unitState = .off → before = 0 → 0 < demand → s.publishFog = State.writeDemandTo
      { u with fog := { u.fog with
        unitState := .running
        runTimer := some (1000 * s.tables.dehumid.minRun)
        restTimer := none
        served := false } } s.tables.motor.get 1000) ∧
    (s.fog.unitState = .running → s.fog.served = true → 0 < before → demand = 0 → s.publishFog = State.writeDemandTo
      { u with fog := { u.fog with
        unitState := .resting
        runTimer := none
        restTimer := some (1000 * s.tables.dehumid.minRest) } } s.tables.motor.get 0) ∧
    (¬ (s.fog.unitState = .off ∧ before = 0 ∧ 0 < demand) →
      ¬ (s.fog.unitState = .running ∧ s.fog.served = true ∧ 0 < before ∧ demand = 0) → s.publishFog = u))

/-! ### Heat dispatch (chapter 5) -/

/-- The heat available, from flow, supply and return values and the heat factor. A pass finds it from the values
its three points hold where all are usable, and finds none where one is not. -/
def Obligations.HeatAvailableFormula : Prop :=
  (∀ (f ts tr : Int) (k : Nat),
    (heatAvailable f ts tr k : Int) =
      min 4000 (max 0 (min f 10000) * max 0 (min (ts - tr) 500) * k / 100000)) ∧
  (∀ (s : State) (p q r : Nat), s.tables.dispatch.flow.get = some p → s.tables.dispatch.supply.get = some q →
    s.tables.dispatch.ret.get = some r →
    let usable := fun i => (s.points.runs.get i).quality.usable = true
    let holds := fun i (v : Int) => (s.points.runs.get i).value = some v
    (∀ f ts tr, usable p → usable q → usable r → holds p f → holds q ts → holds r tr →
      s.heatMeasured = some (heatAvailable f ts tr s.tables.dispatch.factor)) ∧
    (¬ usable p ∨ ¬ usable q ∨ ¬ usable r → s.heatMeasured = none))

/-- The allocation by class and weight: no grant exceeds its demand, and the grants sum to the lesser of the heat
available and the sum of the demands. The classes are served in order: one whose demands fit in what the classes before it
leave is served whole, the first that does not fit shares what is left by weight in rounds, the odd kilowatts to its
first sinks in the list, which are the lowest at a pass, and every later class gets nothing. -/
def Obligations.AllocationExact : Prop :=
  ∀ (h : Nat) (claims : List Claim), claims.length ≤ 8 → (claims.map Claim.sink).Nodup →
    (∀ c ∈ claims, 1 ≤ c.weight ∧ c.cls ≤ 3) →
    (∀ c ∈ claims, grantOf (allocate h claims) c.sink ≤ c.demand) ∧
    (claims.map fun c => grantOf (allocate h claims) c.sink).sum = min h (claims.map Claim.demand).sum ∧
    ∀ cls, cls ≤ 3 →
      let before := ((claims.filter fun c => decide (c.cls < cls)).map Claim.demand).sum
      let members := claims.filter fun c => c.cls == cls && decide (0 < c.demand)
      let asked := (members.map Claim.demand).sum
      (before + asked ≤ h → ∀ c ∈ members, grantOf (allocate h claims) c.sink = c.demand) ∧
      (before ≤ h → h < before + asked → SharedByWeight (h - before) members (grantOf (allocate h claims))) ∧
      (h < before → ∀ c ∈ members, grantOf (allocate h claims) c.sink = 0)

/-- The dispatch timer's expiry makes a pass: the result is published and handed to the zone controller with the grant of
its sink, the timer starts again, each in-use valve moves toward its target by at most its slew and is written, and a
BLIND pass and a shortfall of an essential sink raise their flags. The demand of a sink is found by its kind and
clamped to its capacity, its class from SINK_TUNE, 0 for the DEHUMID sink under promotion, and the in-use sinks make
their claims in ascending number. Under trigger ARRIVALS an update of the flow point is counted, and the N-th makes
the pass that the timer's expiry makes. That the writes of one event are noted as a series is the model's choice (log
50). -/
def Obligations.DispatchPassMade : Prop :=
  (∀ s : State, s.live = true → s.heatActive = true → s.heat.timer.isSome = true → ∃ t,
    exec .dispatchTimerExpiry s = .next t ∧ t.heat.available = s.heatMeasured.getD 0 ∧
    t.heat.blind = s.heatMeasured.isNone ∧ t.heat.ageMs = 0 ∧ t.heat.arrivals = 0 ∧
    t.heat.timer = some (1000 * s.tables.dispatch.period) ∧
    (∀ i, i < 8 → s.tables.sinkInUse i = true →
      (t.heat.sinks.get i).demand = s.sinkDemand i ∧
      (t.heat.sinks.get i).effClass = s.effectiveClass i ∧
      (t.heat.sinks.get i).grant = grantOf (allocate (s.heatMeasured.getD 0) s.claims) i ∧
      (t.heat.sinks.get i).target =
        min 1000 ((t.heat.sinks.get i).grant * 1000 / (s.tables.sinkMap.get i).capacity) ∧
      let v := s.heat.valves.get i
      let target := (t.heat.sinks.get i).target
      let slew := (s.tables.sinkTune.get i).slew
      t.heat.valves.get i = if v < target then min target (v + slew) else if target < v then max target (v - slew) else v) ∧
    (∃ d : Delivery, t.zones = { s.zones with deliveries := s.zones.deliveries ++ [d] } ∧
      (∀ z, z < 16 → d.offered.get z = (s.zones.runs.get z).eligible) ∧
      (∀ i, i < 8 → (s.tables.sinkMap.get i).kind = .zones →
        (∀ j, j < i → (s.tables.sinkMap.get j).kind ≠ .zones) → d.grant = (t.heat.sinks.get i).grant) ∧
      ((∀ i, i < 8 → (s.tables.sinkMap.get i).kind ≠ .zones) → d.grant = 0)) ∧
    (∀ i, i < 8 → s.tables.sinkInUse i = false → t.heat.valves.get i = 0 ∧
      t.heat.sinks.get i = ⟨0, (s.tables.sinkTune.get i).sinkClass, 0, 0⟩) ∧
    t.heat.passMade = true ∧
    (∃ writes, writes = (((List.range 8).filter fun i => s.tables.sinkInUse i).filterMap fun i =>
        (s.tables.sinkMap.get i).valve.get.map fun ch => (ch, t.heat.valves.get i)) ∧
      t.image = (s.writeSeries writes).image ∧ t.seg = (s.writeSeries writes).seg) ∧
    (∀ blind short : Bool,
      (blind = true ↔ s.heatMeasured = none ∧ (s.heat.passMade = false ∨ s.heat.blind = false)) →
      (short = true ↔ ∃ i, i < 8 ∧ (s.tables.sinkMap.get i).kind = .proportional ∧
        isSet (s.tables.sinkMap.get i).essential = true ∧ (t.heat.sinks.get i).grant < (t.heat.sinks.get i).demand) →
      t.trunk = ((s.raiseIf blind .dispatchBlind).raiseIf short .shortfall).trunk ∧
      (short = true → EventFlag.shortfall.of t.trunk.flags = true)) ∧
    (s.heatMeasured = none → (s.heat.passMade = false ∨ s.heat.blind = false) →
      EventFlag.dispatchBlind.of t.trunk.flags = true) ∧
    t = { s with
      heat := t.heat
      zones := t.zones
      trunk := t.trunk
      image := t.image
      seg := { s.seg with urgent := t.seg.urgent, log := t.seg.log } }) ∧
  (∀ (s : State) (i : Nat),
    let m := s.tables.sinkMap.get i
    let r := s.tables.sinkTune.get i
    let usable := (s.points.runs.get m.input).quality = .good ∨ (s.points.runs.get m.input).quality = .suspect
    (m.kind = .zones → s.sinkDemand i =
      min m.capacity ((List.range 16).map fun z => (s.zones.runs.get z).eligible).sum) ∧
    (m.kind = .dehumid → s.sinkDemand i =
      min m.capacity (if s.fog.unitState = .running then s.fog.demand else 0)) ∧
    (∀ v, m.kind = .proportional → usable → (s.points.runs.get m.input).value = some v →
      s.sinkDemand i = min m.capacity ((max 0 (r.setpoint - v)).toNat * r.gain / 10)) ∧
    (m.kind = .proportional → ¬ usable → s.sinkDemand i = m.capacity) ∧
    (m.kind = .fixed → s.sinkDemand i = min m.capacity r.fixedDemand) ∧
    (m.kind = .dehumid → s.fog.promotion = true → s.effectiveClass i = 0) ∧
    (m.kind ≠ .dehumid ∨ s.fog.promotion = false → s.effectiveClass i = r.sinkClass)) ∧
  (∀ s : State, s.claims = (((List.range 8).filter fun i => (s.tables.sinkMap.get i).kind != .unused).map fun i =>
    ⟨i, s.sinkDemand i, (s.tables.sinkTune.get i).weight, s.effectiveClass i⟩)) ∧
  (∀ (s : State) (p : Nat),
    let d := s.tables.dispatch
    let counted := s.heatActive = true ∧ d.trigger = .arrivals ∧ d.flow.get = some p
    (¬ counted → s.heatArrival p = s) ∧
    (counted → s.heat.arrivals + 1 ≠ d.arrivalCount →
      s.heatArrival p = { s with heat := { s.heat with arrivals := s.heat.arrivals + 1 } }) ∧
    (counted → s.heat.arrivals + 1 = d.arrivalCount → s.live = true → s.heat.timer.isSome = true →
      exec .dispatchTimerExpiry s = .next (s.heatArrival p)))

/-! ### Zones (chapter 6) -/

/-- A split gives exactly the grant, and no zone more than it offered: each its part of the grant in proportion, and 1 kW
of the residual to each of the lowest zones that can take it. The delivery of a dispatch result: every in-use zone
takes its share and writes its coil channel and then its primary channel, in ascending zone; the split record holds
the grant, the sum offered and the residual. That the writes of one event are noted as a series is the model's choice
(log 50). -/
def Obligations.SplitMade : Prop :=
  (∀ (grant : Nat) (o : Tab Nat 16), grant ≤ o.list.sum →
    (splitShares grant o).length = 16 ∧ (splitShares grant o).sum = grant ∧
    ∀ z, z < 16 → (splitShares grant o).getD z 0 ≤ o.get z) ∧
  (∀ (s : State) (d : Delivery) (rest : List Delivery), s.running = true → s.zones.deliveries = d :: rest → ∃ t,
    exec .dispatchResultDelivery s = .next t ∧ t.zones.deliveries = rest ∧
    t.zones.split = some ⟨d.grant, d.offered.list.sum, splitResidual d.grant d.offered⟩ ∧
    (∀ z, z < 16 → s.tables.zoneInUse z = true →
      let m := s.tables.zoneMap.get z
      let share := (splitShares d.grant d.offered).getD z 0
      let part := (s.zones.runs.get z).demand - share
      t.zones.runs.get z = { s.zones.runs.get z with
        offered := d.offered.get z
        share := share
        primaryPart := part
        coil := share * 1000 / m.coilCapacity
        primary := min 1000 (part * 1000 / m.primaryCapacity) }) ∧
    (∀ z, z < 16 → s.tables.zoneInUse z = false → t.zones.runs.get z = s.zones.runs.get z) ∧
    t = { s with
      zones := t.zones
      image := t.image
      seg := { s.seg with urgent := t.seg.urgent, log := t.seg.log } }) ∧
  (∀ (grant : Nat) (o : Tab Nat 16),
    let total := o.list.sum
    let base := fun z => if total = 0 then 0 else grant * o.get z / total
    let residual := if total = 0 then 0 else grant - ((List.range 16).map base).sum
    splitResidual grant o = residual ∧
    ∀ z, z < 16 → (splitShares grant o).getD z 0 = base z +
      if base z < o.get z ∧ ((List.range z).filter fun y => decide (base y < o.get y)).length < residual then 1
      else 0) ∧
  (∀ (s : State) (d : Delivery) (rest : List Delivery), s.running = true → s.zones.deliveries = d :: rest → ∃ t,
    exec .dispatchResultDelivery s = .next t ∧
    ∃ writes, writes = (((List.range 16).filter fun z => s.tables.zoneInUse z).flatMap fun z =>
        [((s.tables.zoneMap.get z).coil, (t.zones.runs.get z).coil),
          ((s.tables.zoneMap.get z).primary, (t.zones.runs.get z).primary)]) ∧
      t.image = (s.writeSeries writes).image ∧ t.seg = (s.writeSeries writes).seg)

/-- SET_ZONE outside a bracket: refused with none of its parts or for a zone it may not name; otherwise the parts carried
are stored, clamped, and in RUN the zone is computed again and writes its primary channel. The computation: the demand
from the setpoint in force and the value of the zone's point, or the fallback where it is not usable. A value update
or a loss of use of a point computes the in-use zones that name it again, in ascending number. The data of BAD_ENTRY
are the model's choice (log 10). That the writes of one event are noted as a series is the model's choice (log 50). -/
def Obligations.ZoneSetTaken : Prop :=
  (∀ (tag zone : Byte) (occupied : Option Bool) (occ unocc : Option Word16) (s : State), s.serves →
    s.bracket.state = .idle →
    (occupied = none → occ = none → unocc = none →
      exec (.setZone tag zone occupied occ unocc) s = .next (s.goodFrame.place tag 0x0B .badRequest [])) ∧
    ((occupied ≠ none ∨ occ ≠ none ∨ unocc ≠ none) →
      (16 ≤ zone.toNat ∨ (s.inRun = true ∧ s.tables.zoneInUse zone.toNat = false)) →
      exec (.setZone tag zone occupied occ unocc) s = .next (s.goodFrame.place tag 0x0B .badEntry [0, 0, 0])) ∧
    ((occupied ≠ none ∨ occ ≠ none ∨ unocc ≠ none) → zone.toNat < 16 →
      (s.inRun = true → s.tables.zoneInUse zone.toNat = true) →
      let clamp := fun w : Word16 => max (-400) (min w.toInt 600)
      let old := s.tables.zoneSet.get zone.toNat
      let u : State := { s.goodFrame with tables := { s.tables with zoneSet := s.tables.zoneSet.set zone.toNat { old with
        occupied := match occupied with | some true => 1 | some false => 0 | none => old.occupied
        occupiedSet := (occ.map clamp).getD old.occupiedSet
        unoccupiedSet := (unocc.map clamp).getD old.unoccupiedSet } } }
      exec (.setZone tag zone occupied occ unocc) s =
        .next ((if s.inRun = true then u.recomputeZone zone.toNat else u).place tag 0x0B
          (if occ.map clamp ≠ occ.map BitVec.toInt ∨ unocc.map clamp ≠ unocc.map BitVec.toInt then .clamped
            else .done) []))) ∧
  (∀ (s : State) (z p : Nat), z < 16 → (s.tables.zoneMap.get z).point.get = some p →
    let m := s.tables.zoneMap.get z
    let r := s.tables.zoneSet.get z
    let old := s.zones.runs.get z
    let setpoint := if isSet r.occupied = true then r.occupiedSet else r.unoccupiedSet
    let gives := fun (asked : Nat) (fallback : Bool) =>
      let d := min (m.coilCapacity + m.primaryCapacity) asked
      let primary := min 1000 ((d - old.share) * 1000 / m.primaryCapacity)
      s.recomputeZone z = State.writeDemand
        { s with zones := { s.zones with runs := s.zones.runs.set z { old with
          demand := d
          eligible := min d m.coilCapacity
          primaryPart := d - old.share
          primary := primary
          fallback := fallback } } } m.primary primary
    (∀ v, (s.points.runs.get p).quality = .good ∨ (s.points.runs.get p).quality = .suspect →
      (s.points.runs.get p).value = some v → gives ((max 0 (setpoint - v)).toNat * r.gain / 10) false) ∧
    ((s.points.runs.get p).quality ≠ .good → (s.points.runs.get p).quality ≠ .suspect → gives r.fallback true)) ∧
  (∀ (s : State) (p : Nat), s.zonePoint p = s.asSeries (((List.range 16).filter fun z =>
    (s.tables.zoneMap.get z).point.get == some p).foldl State.recomputeZone s))

/-! ### Supervisor channels and brackets (chapters 9 and 10) -/

/-- SET_CHANNEL outside a bracket, and with DIRECT in any bracket state: refused by its checks, or the value clamped
and written, CLAMPED if a clamp changed it. The data of BAD_ENTRY are the model's choice (log 10). -/
def Obligations.SetChannelWritten : Prop :=
  ∀ (tag : Byte) (channel value : Word16) (direct : Bool) (s : State), s.serves →
    (direct = true ∨ s.bracket.state = .idle) →
    let r := s.tables.channels.get channel.toNat
    let v := max r.floor (min (max 0 (min value.toInt 1000)).toNat r.ceiling)
    (s.inRun = false →
      exec (.setChannel tag channel value direct) s = .next (s.goodFrame.place tag 0x0A .state [])) ∧
    (s.inRun = true → (512 ≤ channel.toNat ∨ r.mapped = false) →
      exec (.setChannel tag channel value direct) s = .next (s.goodFrame.place tag 0x0A .badEntry [0, 0, 0])) ∧
    (s.inRun = true → channel.toNat < 512 → r.mapped = true → r.owner ≠ .supervisor →
      exec (.setChannel tag channel value direct) s = .next (s.goodFrame.place tag 0x0A .owned [])) ∧
    (s.inRun = true → channel.toNat < 512 → r.mapped = true → r.owner = .supervisor →
      exec (.setChannel tag channel value direct) s =
        .next ((s.goodFrame.writeDemand channel.toNat v).place tag 0x0A
          (if (v : Int) = value.toInt then .done else .clamped) []))

/-- A stageable request that passes its checks in an open bracket with room joins the stage with its ordinal, and has no
other effect yet; the last item that a COUNTED bracket declared commits it, and one that finds the stage full aborts
it with CAPACITY. A refused one takes its ordinal and its refusal code, and aborts a STRICT bracket alone; in ABORTED
one that its checks refuse takes their code, and one that passes them is refused ABORTED and not done, in CONFIG as in
RUN. The data of a BAD_ENTRY are the model's choice (log 10). A commit checks the stage item by item on a working
copy, and applies each item as the same request alone would take effect. What the last item answers where a clamp
changed it is DEDUCED (log 14), and so is that an engine RUNNING before the commit stays so in the working copy (log
47); that an item a block then refuses has no effect is the model's choice (log 43), and so are the pairs of states
that the table of CUE does not list (log 13). That what a commit does to the image is noted as one step is the model's
choice (log 50). That the open time is kept once a commit has ended the bracket is the model's choice (log 51). -/
def Obligations.RequestsStaged : Prop :=
  (∀ (tag : Byte) (s : State) (d : Nat), s.serves → s.inRun = true → s.bracket.state = .opened d →
    s.bracket.stage.length < 64 →
    let o := min 65535 (s.bracket.ordinal + 1)
    let staged := fun (r : StagedReq) => ({ s.goodFrame with bracket := { s.bracket with
      ordinal := o
      stage := s.bracket.stage ++ [⟨o, r⟩] } } : State)
    (∀ channel value, channel.toNat < 512 → (s.tables.channels.get channel.toNat).mapped = true →
      (s.tables.channels.get channel.toNat).owner = .supervisor →
      exec (.setChannel tag channel value false) s =
        let v := clampChannel (s.tables.channels.get channel.toNat) value.toInt
        .next ((staged (.setChannel channel.toNat v)).place tag 0x0A
          (if (v : Int) = value.toInt then .staged else .clamped) (u16 o))) ∧
    (∀ zone occupied occ unocc, zone.toNat < 16 → s.tables.zoneInUse zone.toNat = true →
      (occupied ≠ none ∨ occ ≠ none ∨ unocc ≠ none) →
      let clamp := fun w : Word16 => max (-400) (min w.toInt 600)
      exec (.setZone tag zone occupied occ unocc) s =
        .next ((staged (.setZone zone.toNat occupied (occ.map clamp) (unocc.map clamp))).place tag 0x0B
          (if occ.map clamp = occ.map BitVec.toInt ∧ unocc.map clamp = unocc.map BitVec.toInt then .staged else .clamped)
          (u16 o))) ∧
    (∀ bank row fade rel, bank.toNat < 4 → row.toNat < 32 → (fade.map BitVec.toNat).getD 0 ≤ 6000 →
      exec (.cue tag bank row fade rel) s =
        .next ((staged (.cue bank.toNat row.toNat (fade.map BitVec.toNat) rel)).place tag 0x0C .staged (u16 o))) ∧
    (∀ bank, bank.toNat < 4 →
      exec (.releaseBank tag bank) s = .next ((staged (.releaseBank bank.toNat)).place tag 0x0D .staged (u16 o)))) ∧
  (∀ (tag : Byte) (s : State), s.serves →
    let o := min 65535 (s.bracket.ordinal + 1)
    let refused := fun (c : Instr) (code : Byte) (result : ResultCode) (data : List Byte) =>
      (s.bracket.state.isOpen = true → s.bracket.strict = false →
        exec c s = .next (s.goodFrame.countOrdinal.place tag code result data)) ∧
      (s.bracket.state.isOpen = true → s.bracket.strict = true →
        exec c s = .next ((s.goodFrame.countOrdinal.abortBracket .strictRefusal (some o) (some result)).place tag code
          result data)) ∧
      (∀ r, s.bracket.state = .aborted r → exec c s = .next (s.goodFrame.place tag code result data))
    let passed := fun (c : Instr) (code : Byte) =>
      ∀ r, s.bracket.state = .aborted r → exec c s = .next (s.goodFrame.place tag code .aborted [])
    (∀ channel value,
      let c : Instr := .setChannel tag channel value false
      let r := s.tables.channels.get channel.toNat
      (s.inRun = false → refused c 0x0A .state []) ∧
      (s.inRun = true → (512 ≤ channel.toNat ∨ r.mapped = false) → refused c 0x0A .badEntry [0, 0, 0]) ∧
      (s.inRun = true → channel.toNat < 512 → r.mapped = true → r.owner ≠ .supervisor → refused c 0x0A .owned []) ∧
      (s.inRun = true → channel.toNat < 512 → r.mapped = true → r.owner = .supervisor → passed c 0x0A)) ∧
    (∀ zone occupied occ unocc,
      let c : Instr := .setZone tag zone occupied occ unocc
      let given := occupied ≠ none ∨ occ ≠ none ∨ unocc ≠ none
      let known := zone.toNat < 16 ∧ (s.inRun = false ∨ s.tables.zoneInUse zone.toNat = true)
      (¬ given → refused c 0x0B .badRequest []) ∧
      (given → ¬ known → refused c 0x0B .badEntry [0, 0, 0]) ∧ (given → known → passed c 0x0B)) ∧
    (∀ bank row fade rel,
      let c : Instr := .cue tag bank row fade rel
      let inRange := bank.toNat < 4 ∧ row.toNat < 32 ∧ (fade.map BitVec.toNat).getD 0 ≤ 6000
      (s.inRun = false → refused c 0x0C .state []) ∧
      (s.inRun = true → ¬ inRange → refused c 0x0C .badEntry [0, 0, 0]) ∧
      (s.inRun = true → inRange → passed c 0x0C)) ∧
    (∀ bank,
      let c : Instr := .releaseBank tag bank
      (s.inRun = false → refused c 0x0D .state []) ∧
      (s.inRun = true → 4 ≤ bank.toNat → refused c 0x0D .badEntry [0, 0, 0]) ∧
      (s.inRun = true → bank.toNat < 4 → passed c 0x0D))) ∧
  (∀ (tag : Byte) (s : State), s.serves → s.inRun = true → s.bracket.state.isOpen = true →
    let o := min 65535 (s.bracket.ordinal + 1)
    let counts := fun (c : Instr) (code : Byte) (r : StagedReq) (clamped : Bool) =>
      let stage := s.bracket.stage ++ [⟨o, r⟩]
      (64 ≤ s.bracket.stage.length → exec c s = .next
        ((s.goodFrame.countOrdinal.abortBracket .capacity (some o) none).place tag code .aborted [])) ∧
      (∀ n k, s.bracket.state = .counted n k → s.bracket.stage.length < 64 →
        let u : State := { s.goodFrame with bracket := { s.bracket with
          ordinal := o
          stage := stage
          state := .counted n (k + 1) } }
        (k + 1 ≠ n → exec c s = .next (u.place tag code (if clamped = true then .clamped else .staged) (u16 o))) ∧
        (k + 1 = n → checkStage s.workingCopy stage = true → exec c s = .next ({ u.applyStage stage with
            bracket := { s.bracket with ordinal := o, state := .idle, stage := [], timer := none } }.place
          tag code (if clamped = true then .clamped else .done) (if clamped = true then u16 o else []))) ∧
        (k + 1 = n → checkStage s.workingCopy stage = false → exec c s = .next
          ((u.abortBracket .conflict (some o) none).place tag code .aborted [])))
    (∀ channel value, channel.toNat < 512 → (s.tables.channels.get channel.toNat).mapped = true →
      (s.tables.channels.get channel.toNat).owner = .supervisor →
      let v := clampChannel (s.tables.channels.get channel.toNat) value.toInt
      counts (.setChannel tag channel value false) 0x0A (.setChannel channel.toNat v) ((v : Int) != value.toInt)) ∧
    (∀ zone occupied occ unocc, zone.toNat < 16 → s.tables.zoneInUse zone.toNat = true →
      (occupied ≠ none ∨ occ ≠ none ∨ unocc ≠ none) →
      let clamp := fun w : Word16 => max (-400) (min w.toInt 600)
      counts (.setZone tag zone occupied occ unocc) 0x0B
        (.setZone zone.toNat occupied (occ.map clamp) (unocc.map clamp))
        (occ.map clamp != occ.map BitVec.toInt || unocc.map clamp != unocc.map BitVec.toInt)) ∧
    (∀ bank row fade rel, bank.toNat < 4 → row.toNat < 32 → (fade.map BitVec.toNat).getD 0 ≤ 6000 →
      counts (.cue tag bank row fade rel) 0x0C (.cue bank.toNat row.toNat (fade.map BitVec.toNat) rel) false) ∧
    (∀ bank, bank.toNat < 4 → counts (.releaseBank tag bank) 0x0D (.releaseBank bank.toNat) false)) ∧
  (∀ s : State, s.workingCopy.free = 8 - s.store.queue.length ∧ ∀ b, b < 4 →
    s.workingCopy.engines.get b = ((s.engine b).state, (s.engine b).row) ∧
    s.workingCopy.banks.get b = ((s.bank b).state, (s.bank b).row)) ∧
  (∀ (w : WorkingCopy) (o b r : Nat) (fade : Option Nat) (rel : Bool) (rest : List StageItem), b < 4 →
    let e := w.engines.get b
    let k := w.banks.get b
    let passes := checkStage w (⟨o, .cue b r fade rel⟩ :: rest)
    let frees := checkStage w (⟨o, .releaseBank b⟩ :: rest)
    checkStage w [] = true ∧
    (∀ ch v, checkStage w (⟨o, .setChannel ch v⟩ :: rest) = checkStage w rest) ∧
    (∀ z x y u, checkStage w (⟨o, .setZone z x y u⟩ :: rest) = checkStage w rest) ∧
    (e.1 ≠ .free → e.2 ≠ some r → passes = false) ∧
    (e.1 = .pending → e.2 = some r → passes = checkStage w rest) ∧
    ((e = (.running, some r)) ∨ (e.1 = .free ∧ k = (.active, some r)) →
      passes = checkStage { w with engines := w.engines.set b (.running, some r) } rest) ∧
    (e.1 = .free → k.1 = .active → k.2 ≠ some r → passes = checkStage { w with
      banks := w.banks.set b (.closing, k.2)
      engines := w.engines.set b (.pending, some r) } rest) ∧
    (e.1 = .free → k.1 = .idle → w.free = 0 → passes = false) ∧
    (e.1 = .free → k.1 = .idle → 0 < w.free → passes = checkStage {
      banks := w.banks.set b (.activating, some r)
      engines := w.engines.set b (.pending, some r)
      free := w.free - 1 } rest) ∧
    (e.1 = .free → k.1 = .closing →
      passes = checkStage { w with engines := w.engines.set b (.pending, some r) } rest) ∧
    (e.1 = .pending → frees = false) ∧ (e.1 = .running → frees = checkStage w rest) ∧
    (e.1 = .free → k.1 = .active →
      frees = checkStage { w with banks := w.banks.set b (.closing, k.2) } rest) ∧
    (e.1 = .free → k.1 ≠ .active → frees = checkStage w rest)) ∧
  (∀ (s : State) (stage : List StageItem), s.applyStage stage = s.asCommit (stage.foldl (fun t item =>
    match item.request with
    | .setChannel ch v => t.writeDemand ch v
    | .setZone z x y u => t.applyZone z x y u
    | .cue b r fade rel => (t.takeCue b r fade rel).1
    | .releaseBank b => (t.takeRelease b).1) s)) ∧
  (∀ (tag : Byte) (s : State), s.serves → s.inRun = true → s.bracket.state = .idle →
    (∀ bank row fade rel, bank.toNat < 4 → row.toNat < 32 → (fade.map BitVec.toNat).getD 0 ≤ 6000 →
      let taken := s.goodFrame.takeCue bank.toNat row.toNat (fade.map BitVec.toNat) rel
      exec (.cue tag bank row fade rel) s = .next (taken.1.place tag 0x0C taken.2 [])) ∧
    (∀ bank, bank.toNat < 4 → exec (.releaseBank tag bank) s =
      .next ((s.goodFrame.takeRelease bank.toNat).1.place tag 0x0D (s.goodFrame.takeRelease bank.toNat).2 [])) ∧
    (∀ zone occupied occ unocc, zone.toNat < 16 → s.tables.zoneInUse zone.toNat = true →
      (occupied ≠ none ∨ occ ≠ none ∨ unocc ≠ none) →
      let clamp := fun w : Word16 => max (-400) (min w.toInt 600)
      exec (.setZone tag zone occupied occ unocc) s =
        .next ((s.goodFrame.applyZone zone.toNat occupied (occ.map clamp) (unocc.map clamp)).place tag 0x0B
          (if occ.map clamp = occ.map BitVec.toInt ∧ unocc.map clamp = unocc.map BitVec.toInt then .done else .clamped)
          [])))

/-- OPEN_BRACKET by the bracket state: refused outside RUN, at CRITICAL and for a count outside 1 to 8, opened in
IDLE, deepened to 4 in OPEN, and aborting otherwise. The data of BAD_ENTRY are the model's choice (log 10). -/
def Obligations.OpenBracketTaken : Prop :=
  ∀ (tag : Byte) (kind : BracketKind) (count : Byte) (strict notify : Bool) (s : State), s.serves →
    let run := exec (.openBracket tag kind count strict notify) s
    let o := min 65535 (s.bracket.ordinal + 1)
    (s.bracket.state = .idle → s.inRun = false → run = .next (s.goodFrame.place tag 0x0F .state [])) ∧
    (s.bracket.state = .idle → s.inRun = true → s.watch.guard = .critical →
      run = .next (s.goodFrame.place tag 0x0F .guarded [])) ∧
    (s.bracket.state = .idle → s.inRun = true → s.watch.guard ≠ .critical → kind = .countedKind →
      (count.toNat < 1 ∨ 8 < count.toNat) → run = .next (s.goodFrame.place tag 0x0F .badEntry [0, 0, 0])) ∧
    (s.bracket.state = .idle → s.inRun = true → s.watch.guard ≠ .critical →
      (kind = .openKind ∨ (1 ≤ count.toNat ∧ count.toNat ≤ 8)) →
      run = .next ({ s.goodFrame with bracket := {
        state := if kind = BracketKind.openKind then .opened 1 else .counted count.toNat 0
        kind := kind
        strict := strict
        notify := notify
        ordinal := 0
        openMs := 0
        stage := []
        timer := some (1000 * s.tables.timers.bracketLimit)
        record := s.bracket.record } }.place tag 0x0F .done [])) ∧
    (∀ d, s.bracket.state = .opened d → kind = .openKind → d < 4 →
      run = .next ({ s.goodFrame with bracket := { s.bracket with
        ordinal := o
        state := .opened (d + 1) } }.place tag 0x0F .done [])) ∧
    (∀ d, s.bracket.state = .opened d → kind = .openKind → 4 ≤ d →
      run = .next ((s.goodFrame.countOrdinal.abortBracket .nest (some o) none).place tag 0x0F .aborted [])) ∧
    (s.bracket.state.isOpen = true → (kind = BracketKind.countedKind ∨ ∃ n k, s.bracket.state = .counted n k) →
      run = .next ((s.goodFrame.countOrdinal.abortBracket .restricted (some o) none).place tag 0x0F .aborted [])) ∧
    (∀ r, s.bracket.state = .aborted r → run = .next (s.goodFrame.place tag 0x0F .aborted []))

/-- CLOSE_BRACKET by the bracket state. A commit leaves it IDLE with the stage empty and the bracket timer stopped. That the
open time is kept once the bracket has ended is the model's choice (log 51). -/
def Obligations.CloseBracketTaken : Prop :=
  ∀ (tag : Byte) (s : State), s.serves →
    let o := min 65535 (s.bracket.ordinal + 1)
    let counted : State := { s.goodFrame with bracket := { s.bracket with ordinal := o } }
    (∀ d, s.bracket.state = .opened d → 1 < d →
      exec (.closeBracket tag) s =
        .next ({ counted with bracket := { counted.bracket with state := .opened (d - 1) } }.place tag 0x10 .done [])) ∧
    (s.bracket.state = .opened 1 → checkStage s.workingCopy s.bracket.stage = true →
      exec (.closeBracket tag) s =
        .next ({ counted.applyStage s.bracket.stage with
          bracket := { s.bracket with ordinal := o, state := .idle, stage := [], timer := none } }.place tag 0x10 .done
            [])) ∧
    (s.bracket.state = .opened 1 → checkStage s.workingCopy s.bracket.stage = false →
      exec (.closeBracket tag) s =
        .next ((counted.abortBracket .conflict (some o) none).place tag 0x10 .aborted [])) ∧
    (∀ n k, s.bracket.state = .counted n k →
      exec (.closeBracket tag) s =
        .next ((counted.abortBracket .restricted (some o) none).place tag 0x10 .aborted [])) ∧
    (s.bracket.state = .idle → exec (.closeBracket tag) s = .next (s.goodFrame.place tag 0x10 .noBracket [])) ∧
    (∀ r, s.bracket.state = .aborted r →
      exec (.closeBracket tag) s = .next ({ s.goodFrame with bracket := { s.bracket with
        state := if r ≤ 1 then .idle else .aborted (r - 1) } }.place tag 0x10 .aborted []))

/-- ABANDON_BRACKET by the bracket state: the way out of any bracket, and NO_BRACKET where there is none. That the open time
is kept once the bracket has ended is the model's choice (log 51). -/
def Obligations.AbandonBracketTaken : Prop :=
  ∀ (tag : Byte) (s : State), s.serves →
    (s.bracket.state.isOpen = true → ∃ t, exec (.abandonBracket tag) s = .next t ∧
      t.bracket.state = .idle ∧ t.bracket.stage = [] ∧ t.bracket.timer = none ∧
      (∃ r, t.bracket.record = some r ∧ r.code = .abandoned ∧ r.ordinal = some (min 65535 (s.bracket.ordinal + 1))) ∧
      t.trunk.replies = s.trunk.replies ++ [⟨tag, 0x11, .done, []⟩] ∧
      t = { s with bracket := t.bracket, trunk := t.trunk }) ∧
    (∀ r, s.bracket.state = .aborted r → exec (.abandonBracket tag) s =
      .next ({ s.goodFrame with bracket := { s.bracket with state := .idle } }.place tag 0x11 .done [])) ∧
    (s.bracket.state = .idle → exec (.abandonBracket tag) s = .next (s.goodFrame.place tag 0x11 .noBracket []))

/-- Every abort: the stage and the timer go, the record is written, BRACKET_ABORTED is raised, the state becomes
ABORTED with the depth as residual, or IDLE under ABANDONED. A restricted request in an open bracket is not done and
aborts it with RESTRICTED; the bracket timer's expiry aborts it with TIMEOUT. That the open time is kept behind the abort
is the model's choice (log 51). -/
def Obligations.BracketAborts : Prop :=
  (∀ (s : State) (code : AbortCode) (ordinal : Option Nat) (refusal : Option ResultCode),
    s.bracket.state.isOpen = true →
    let t := s.abortBracket code ordinal refusal
    let depth := match s.bracket.state with | .opened d => d | _ => 1
    t = { s with
      trunk := t.trunk
      bracket := { s.bracket with
        stage := []
        timer := none
        state := if code = .abandoned then .idle else .aborted depth
        record := some {
          code := code
          kind := s.bracket.kind
          depth := depth
          stagedCount := s.bracket.stage.length
          ordinal := ordinal
          refusal := refusal
          guard := s.watch.guard
          duration := min 65535 (s.bracket.openMs / 100) } } } ∧
    EventFlag.bracketAborted.of t.trunk.flags = true ∧
    (s.bracket.notify = true → s.trunk.reports.length < 16 →
      t.trunk.reports = s.trunk.reports ++ [.notice (s.trunk.flags ||| 0x0400) s.tables.enables t.bracket.record])) ∧
  (∀ (tag : Byte) (s : State), s.bracket.state.isOpen = true →
    let aborted := s.goodFrame.countOrdinal.abortBracket .restricted (some (min 65535 (s.bracket.ordinal + 1))) none
    (s.serves →
      (∀ table first count content, exec (.writeTable tag table first count content) s =
        .next (aborted.place tag 0x04 .aborted [])) ∧
      (∀ receiving, exec (.enterRun tag receiving) s = .next (aborted.place tag 0x06 .aborted [])) ∧
      exec (.saveImage tag) s = .next (aborted.place tag 0x08 .aborted [])) ∧
    (s.live = true → s.bracket.timer.isSome = true →
      exec .bracketTimerExpiry s = .next (s.abortBracket .timeout none none)))

/-- No bracket stands open at guard level CRITICAL nor outside RUN, the stage is empty without one, and a COUNTED
bracket holds fewer items than it declared; every step keeps it so. -/
def Obligations.BracketLawKept : Prop :=
  KeptByStep State.bracketLaw

/-! ### Cues and fades (chapter 8) -/

/-- CUE outside a bracket: refused STATE outside RUN and BAD_ENTRY for a bank, a row or a fade time out of range, and
otherwise taken by the states of engine and bank. The default fade 0 of a bank that is ACTIVATING is the model's choice
(log 7), and so are the data of BAD_ENTRY (log 10). -/
def Obligations.CueTaken : Prop :=
  (∀ (tag bank row : Byte) (fade : Option Word16) (rel : Bool) (s : State), s.serves → s.bracket.state = .idle →
    (s.inRun = false → exec (.cue tag bank row fade rel) s = .next (s.goodFrame.place tag 0x0C .state [])) ∧
    (s.inRun = true → (4 ≤ bank.toNat ∨ 32 ≤ row.toNat ∨ 6000 < (fade.map BitVec.toNat).getD 0) →
      exec (.cue tag bank row fade rel) s = .next (s.goodFrame.place tag 0x0C .badEntry [0, 0, 0]))) ∧
  ∀ (tag bank row : Byte) (fade : Option Word16) (rel : Bool) (s : State), s.serves → s.inRun = true →
    s.bracket.state = .idle → bank.toNat < 4 → row.toNat < 32 → (fade.map BitVec.toNat).getD 0 ≤ 6000 →
    let b := bank.toNat
    let r := row.toNat
    let f := fade.map BitVec.toNat
    let e := s.engine b
    let k := s.bank b
    let run := exec (.cue tag bank row fade rel) s
    let waiting : Engine := { Engine.initial with state := .pending, row := some r, fade := f, releaseAfter := rel }
    (e.state ≠ .free → e.row ≠ some r → run = .next (s.goodFrame.place tag 0x0C .bankBusy [])) ∧
    (e.state = .pending → e.row = some r → run = .next ({ s.goodFrame with
      engines := s.engines.set b { e with fade := f, releaseAfter := rel } }.place tag 0x0C .done [])) ∧
    ((e.state = .running ∧ e.row = some r) ∨ (e.state = .free ∧ k.state = .active ∧ k.row = some r) →
      run = .next ((State.startFade { s.goodFrame with
        store := { s.store with banks := s.store.banks.set b { k with releaseAfter := rel } }
        engines := s.engines.set b { e with fade := f } } b).place tag 0x0C .done [])) ∧
    (e.state = .free → k.state = .active → k.row ≠ some r → run = .next ({ s.goodFrame with
      store := { s.store with banks := s.store.banks.set b { k with state := .closing, settle := some 20 } }
      engines := s.engines.set b waiting }.place tag 0x0C .accepted [])) ∧
    (e.state = .free → k.state = .idle → s.store.queue.length < 8 → run = .next ({ s.goodFrame with
      store := { s.store with
        queue := s.store.queue ++ [MemOp.activate b r]
        banks := s.store.banks.set b { k with
          state := .activating
          row := some r
          pairs := []
          fade := 0
          skipped := 0 } }
      engines := s.engines.set b waiting }.place tag 0x0C .accepted [])) ∧
    (e.state = .free → k.state = .idle → 8 ≤ s.store.queue.length →
      run = .next (s.goodFrame.place tag 0x0C .busy [])) ∧
    (e.state = .free → k.state = .closing → run = .next ({ s.goodFrame with
      engines := s.engines.set b waiting }.place tag 0x0C .accepted []))

/-- RELEASE_BANK outside a bracket, by the states of engine and bank. The data of BAD_ENTRY are the model's choice
(log 10). -/
def Obligations.ReleaseBankTaken : Prop :=
  ∀ (tag bank : Byte) (s : State), s.serves → s.bracket.state = .idle →
    let k := s.bank bank.toNat
    let run := exec (.releaseBank tag bank) s
    (s.inRun = false → run = .next (s.goodFrame.place tag 0x0D .state [])) ∧
    (s.inRun = true → 4 ≤ bank.toNat → run = .next (s.goodFrame.place tag 0x0D .badEntry [0, 0, 0])) ∧
    (s.inRun = true → bank.toNat < 4 → (s.engine bank.toNat).state = .running → run = .next ({ s.goodFrame with
      store := { s.store with
        banks := s.store.banks.set bank.toNat { k with releaseAfter := true } } }.place tag 0x0D .done [])) ∧
    (s.inRun = true → bank.toNat < 4 → (s.engine bank.toNat).state = .free → k.state = .active →
      run = .next ({ s.goodFrame with store := { s.store with
        banks := s.store.banks.set bank.toNat { k with state := .closing, settle := some 20 } } }.place tag 0x0D
          .done [])) ∧
    (s.inRun = true → bank.toNat < 4 → (s.engine bank.toNat).state = .free →
      (k.state = .idle ∨ k.state = .closing) →
      run = .next (s.goodFrame.place tag 0x0D .done [])) ∧
    (s.inRun = true → bank.toNat < 4 → (s.engine bank.toNat).state = .pending →
      run = .next (s.goodFrame.place tag 0x0D .bankBusy []))

/-- A fade start that takes some channel, needs at least one step and leaves no other engine without a channel: the engine
holds the buffer's pairs from the demands that stand, every other engine has given them up, and nothing is written
yet. Any fade start: after the takeover the engines it has left without a channel end their fades in ascending number,
and then the engine itself ends at once where its buffer is empty, writes every target and ends where it has no step
to make, and starts its step timer otherwise. That the writes of one event are noted as a series is the model's choice
(log 50). -/
def Obligations.FadeStarts : Prop :=
  (∀ (s : State) (b : Nat), b < 4 → (s.bank b).pairs ≠ [] → 1 ≤ s.tables.profile.period →
    let time := 100 * ((s.engine b).fade.getD (s.bank b).fade)
    0 < time → (∀ c, c < 4 → c ≠ b → (s.engine c).held ≠ [] →
      ∃ h ∈ (s.engine c).held, ∀ p ∈ (s.bank b).pairs, p.1 ≠ h.channel) →
    let t := s.startFade b
    t = { s with engines := t.engines } ∧
    t.engine b = { s.engine b with
      state := .running
      row := (s.bank b).row
      releaseAfter := false
      total := (time + s.tables.profile.period - 1) / s.tables.profile.period
      step := 0
      timer := some s.tables.profile.period
      held := (s.bank b).pairs.map fun p => ⟨p.1, (s.image.get p.1).demand, p.2⟩ } ∧
    (∀ c, c < 4 → c ≠ b → t.engine c = { s.engine c with
      held := (s.engine c).held.filter fun h => !(s.bank b).pairs.any fun p => p.1 == h.channel })) ∧
  (∀ (s u : State) (b : Nat), b < 4 → 1 ≤ s.tables.profile.period →
    let pairs := (s.bank b).pairs
    let fade := (s.engine b).fade.getD (s.bank b).fade
    let steps := (100 * fade + s.tables.profile.period - 1) / s.tables.profile.period
    let ends := fun (t : State) (c : Nat) =>
      let v := State.raise { t with engines := t.engines.set c ⟨.free, none, none, false, 0, 0, none, []⟩ } .cueDone
      if (t.bank c).releaseAfter = true ∧ (t.bank c).state = .active then
        v.setBank c { t.bank c with state := .closing, settle := some 20 }
      else v
    let bare := (List.range 4).filter fun c => c != b && !(s.engine c).held.isEmpty &&
      (s.engine c).held.all fun h => pairs.any fun p => p.1 == h.channel
    u = { s with engines := u.engines } →
    u.engine b = { s.engine b with
      state := .running
      row := (s.bank b).row
      releaseAfter := false
      total := steps
      step := 0
      timer := none
      held := pairs.map fun p => ⟨p.1, (s.image.get p.1).demand, p.2⟩ } →
    (∀ c, c < 4 → c ≠ b → u.engine c = { s.engine c with
      held := (s.engine c).held.filter fun h => !pairs.any fun p => p.1 == h.channel }) →
    let t := bare.foldl ends u
    (pairs = [] → s.startFade b = ends t b) ∧
    (pairs ≠ [] → fade = 0 → s.startFade b = ends (t.writeSeries pairs) b) ∧
    (pairs ≠ [] → 0 < fade →
      s.startFade b = t.setEngine b { u.engine b with timer := some s.tables.profile.period }))

/-- The delivery of an activation, and the expiry of a step timer: the pending fade starts, or the engine goes FREE where
the row was bad; each step writes the held channels in their order, and the last one ends the fade with CUE_DONE and
the close the bank asks for. That the writes of one event are noted as a series is the model's choice (log 50). -/
def Obligations.EngineEvents : Prop :=
  ∀ (b : Fin 4) (s : State), s.live = true →
    (s.store.completions.contains b.val = true →
      let u : State := { s with store := { s.store with completions := s.store.completions.erase b.val } }
      ((s.engine b).state = .pending → (s.bank b).state = .active →
        exec (.activationDelivery b) s =
          .next ((u.setBank b { s.bank b with releaseAfter := (s.engine b).releaseAfter }).startFade b)) ∧
      ((s.engine b).state = .pending → (s.bank b).state = .idle →
        exec (.activationDelivery b) s = .next (u.setEngine b Engine.initial)) ∧
      ((s.engine b).state = .free → exec (.activationDelivery b) s = .next u)) ∧
    ((s.engine b).timer.isSome = true →
      let e := s.engine b
      let moved := (s.setEngine b { e with step := e.step + 1, timer := some s.tables.profile.period }).writeSeries
        (e.held.map fun h => (h.channel, fadeLevel s.tables.profile.curve h.start h.target (e.step + 1) e.total))
      (e.step + 1 ≠ e.total → exec (.fadeStepExpiry b) s = .next moved) ∧
      (e.step + 1 = e.total → (s.bank b).state = .active →
        exec (.fadeStepExpiry b) s =
          let u := (moved.setEngine b Engine.initial).raise .cueDone
          .next (if (s.bank b).releaseAfter = true then
            u.setBank b { s.bank b with state := .closing, settle := some 20 }
          else u)))

/-- The level at a step: the formula of each curve, truncated toward zero, between the start and the target, and at
the last step the target. -/
def Obligations.FadeExact : Prop :=
  ∀ (a z k n : Nat), k ≤ n → 0 < n →
    ((fadeLevel .linear a z k n : Nat) : Int) = a + ((z - a : Int) * k).tdiv n ∧
    ((fadeLevel .square a z k n : Nat) : Int) = a + ((z - a : Int) * (k : Int) ^ 2).tdiv ((n : Int) ^ 2) ∧
    (∀ c, min a z ≤ fadeLevel c a z k n ∧ fadeLevel c a z k n ≤ max a z ∧ fadeLevel c a z n n = z)

/-! ### Laws that every step keeps, and the frames of the wire -/

/-- The part right after a reset keeps every law, whatever the straps, the cause and the waiting commands, with an image
region in its canonical form. -/
def Obligations.ResetLawful : Prop :=
  (∀ (pending : List Instr) (memory : SerialMemory) (straps : Straps) (cause : ResetCause), Memory.wf memory.image →
    (State.started pending memory straps cause).Lawful) ∧ State.reset.Lawful

/-- Every step keeps the image region in its canonical form, and no queue ever holds more than its capacity: replies
with the places reserved for long requests 8, long requests 2, memory operations 8, reports and notices 16, staged
items 64. -/
def Obligations.QueuesKept : Prop :=
  (KeptByStep State.memoryLaw) ∧
  (KeptByStep State.queueLaw)

/-- In RUN a point is GOOD or SUSPECT only while its age does not exceed its max age. -/
def Obligations.AgesKept : Prop :=
  KeptByStep State.ageLaw

/-- A well-formed request written as a frame is read back as itself, and so is a REPORT of 1 to 12 items. Bytes before a
start mark are ignored, the frame behind them is read whole and those after it from anew, and one that a gap ends
short is a bad frame. On the field segment the frames are found by their counts; a frame of no kind runs to the gap,
and one whose reception began outside RUN is ignored at its end. That bytes outside a frame are ignored there too, and
where a POLL frame with a count ends, is the model's choice (log 49). The check of a frame is the remainder of its
bits, the most significant first, by the polynomial of R172 from all ones. -/
def Obligations.FramesReadBack : Prop :=
  (∀ bytes : List Byte, crc16 bytes =
    (bytes.flatMap fun b => (List.range 8).map fun k => b.getLsbD (7 - k)).foldl
      (fun (check : Word16) bit => (check <<< 1) ^^^ if check.getLsbD 15 = bit then 0#16 else 0x1021#16) 0xFFFF#16) ∧
  (∀ (receiving : Bool) (c : Instr) (frame : List Byte), c.wellFormed = true →
    (∀ tag r, c = .enterRun tag r → r = receiving) → encodeTrunkFrame c = some frame →
    decodeTrunkFrame receiving frame = c) ∧
  (∀ (address : Byte) (items : List Item), itemsWellFormed items = true →
    decodeFieldFrame (encodeReport address items) = .goodReport address items) ∧
  (∀ (receiving : Bool) (idle : List Byte), 0x5A ∉ idle →
    (∀ rest, receiveTrunk receiving [] (idle ++ rest) = receiveTrunk receiving [] rest) ∧
    ∀ (c : Instr) (frame : List Byte), c.wellFormed = true → (∀ tag r, c = .enterRun tag r → r = receiving) →
      encodeTrunkFrame c = some frame →
      (∀ rest, receiveTrunk receiving [] (idle ++ frame ++ rest) = c :: receiveTrunk receiving [] rest) ∧
      ∀ n, 0 < n → n < frame.length → receiveTrunk receiving [] (idle ++ frame.take n) = [.trunkBadFrame]) ∧
  (∀ (ignored : Bool) (idle rest : List Byte), 0x5A ∉ idle →
    receiveField ignored [] (idle ++ rest) = receiveField false [] rest ∧
    (∀ (address : Byte) (items : List Item), itemsWellFormed items = true →
      let frame := encodeReport address items
      receiveField ignored [] (idle ++ frame ++ rest) = .goodReport address items :: receiveField false [] rest ∧
      ∀ n, 0 < n → n < frame.length →
        receiveField ignored [] (idle ++ frame.take n) = [.fieldBadFrame] ∧
        receiveField true (frame.take n) (frame.drop n ++ rest) = .ignoredFieldFrameEnd :: receiveField false [] rest) ∧
    (∀ (address kind count : Byte) (body : List Byte),
      let counted := receiveField ignored [] (idle ++ 0x5A :: address :: kind :: count :: body ++ rest)
      (kind = 0x10 → body.length = 2 → counted = .fieldBadFrame :: receiveField false [] rest) ∧
      (kind = 0x11 → count = 0 ∨ 12 < count.toNat → body.length = 4 * count.toNat + 2 →
        counted = .fieldBadFrame :: receiveField false [] rest) ∧
      (kind = 0x12 → body.length = 3 * count.toNat + 2 → counted = .fieldBadFrame :: receiveField false [] rest) ∧
      (kind ≠ 0x10 → kind ≠ 0x11 → kind ≠ 0x12 → counted = [.fieldBadFrame])))
end

