-- ==== Sys2Proof/Laws/Data.lean ====
section
/-! SUPPORT. Reading a table after it was written, mapped or walked; and the helpers on lists. -/

namespace Sys2Proof

variable {α β : Type}

theorem Tab.ext_list {n : Nat} {t u : Tab α n} (h : t.list = u.list) : t = u := by
  cases t; cases u; cases h; rfl

section get
variable {n : Nat} [Inhabited α] (t : Tab α n) (i j : Nat) (a : α)

theorem Tab.get_eq (h : i < t.list.length) : t.get i = t.list[i] := by simp [Tab.get, h]

theorem Tab.get_past (h : n ≤ i) : t.get i = default := by
  simp [Tab.get, List.getD_eq_getElem?_getD, List.getElem?_eq_none (t.len.le.trans h)]

@[simp] theorem Tab.get_set_self (h : i < n) : (t.set i a).get i = a := by
  simp [Tab.get, Tab.set, t.len, h]

@[simp] theorem Tab.get_set_ne (h : i ≠ j) : (t.set i a).get j = t.get j := by
  simp [Tab.get, Tab.set, List.getElem?_set_ne h]

theorem Tab.get_set : (t.set i a).get j = if i = j ∧ j < n then a else t.get j := by
  by_cases h : i = j
  · subst h
    by_cases hn : i < n
    · simp [hn]
    · simp [hn, Tab.set, Tab.get, t.len]
  · simp [h]

@[simp] theorem Tab.get_replicate (h : i < n) : (Tab.replicate n a).get i = a := by
  simp [Tab.get, Tab.replicate, h]

omit [Inhabited α] in
@[simp] theorem Tab.set_set (b : α) : (t.set i a).set i b = t.set i b := Tab.ext_list (by simp [Tab.set])

@[simp] theorem Tab.set_get_self : t.set i (t.get i) = t := by
  apply Tab.ext_list
  apply List.ext_getElem?
  intro k
  by_cases hk : i = k
  · subst hk
    by_cases h : i < t.list.length
    · simp [Tab.set, Tab.get, h]
    · simp [Tab.set, h]
  · simp [Tab.set, hk]

omit [Inhabited α] in
theorem Tab.set_comm (b : α) (h : i ≠ j) : (t.set i a).set j b = (t.set j b).set i a :=
  Tab.ext_list (by simp [Tab.set, List.set_comm _ _ h])

@[simp] theorem Tab.get_modify_self (f : α → α) (h : i < n) : (t.modify i f).get i = f (t.get i) := by
  simp [Tab.modify, h]

@[simp] theorem Tab.get_modify_ne (f : α → α) (h : i ≠ j) : (t.modify i f).get j = t.get j := by
  simp [Tab.modify, h]

@[simp] theorem Tab.get_map [Inhabited β] (f : α → β) (h : i < n) : (t.map f).get i = f (t.get i) := by
  simp [Tab.get, Tab.map, t.len, h]

@[simp] theorem Tab.get_zip [Inhabited β] (u : Tab β n) (h : i < n) : (t.zip u).get i = (t.get i, u.get i) := by
  have ht : i < t.list.length := t.len.symm ▸ h
  have hu : i < u.list.length := u.len.symm ▸ h
  simp [Tab.get, Tab.zip, ht, hu]

/-- Two tables that read alike at every place are equal. -/
theorem Tab.ext_get {u : Tab α n} (h : ∀ i, i < n → t.get i = u.get i) : t = u := by
  apply Tab.ext_list
  apply List.ext_getElem (t.len.trans u.len.symm)
  intro k h1 h2
  have := h k (t.len ▸ h1)
  rwa [Tab.get_eq t k h1, Tab.get_eq u k h2] at this

/-- A value stands in the list exactly when some place holds it. -/
theorem Tab.mem_list : a ∈ t.list ↔ ∃ i, i < n ∧ t.get i = a := by
  rw [List.mem_iff_getElem]
  constructor
  · rintro ⟨i, h, rfl⟩
    exact ⟨i, t.len ▸ h, t.get_eq i h⟩
  · rintro ⟨i, h, rfl⟩
    exact ⟨i, t.len.symm ▸ h, (t.get_eq i _).symm⟩

end get

/-! ### Walks that count the places -/

theorem getElem?_mapFrom (f : Nat → α → β) (l : List α) :
    ∀ k i, (mapFrom f k l)[i]? = l[i]?.map (f (k + i)) := by
  induction l with
  | nil => intro k i; simp [mapFrom]
  | cons a l ih =>
    intro k i
    cases i with
    | zero => simp [mapFrom]
    | succ i => simp [mapFrom, ih, Nat.add_comm 1 i, Nat.add_assoc]

@[simp] theorem Tab.get_mapIdx {n : Nat} [Inhabited α] [Inhabited β] (f : Nat → α → β) (t : Tab α n) (i : Nat) (h : i < n) :
    (t.mapIdx f).get i = f i (t.get i) := by
  have ht : i < t.list.length := t.len.symm ▸ h
  simp [Tab.get, Tab.mapIdx, getElem?_mapFrom, ht]

theorem mapFrom_eq_map (f : Nat → α → β) (l : List α) : ∀ k, mapFrom f k l = (l.zipIdx k).map fun p => f p.2 p.1 := by
  induction l with
  | nil => intro k; rfl
  | cons a l ih => intro k; simp [mapFrom, ih]

theorem firstFrom_some {p : Nat → α → Bool} {l : List α} :
    ∀ {k i}, firstFrom p k l = some i → ∃ a, k ≤ i ∧ l[i - k]? = some a ∧ p i a = true := by
  induction l with
  | nil => intro k i h; simp [firstFrom] at h
  | cons a l ih =>
    intro k i h
    simp only [firstFrom] at h
    split at h
    · rename_i hp; cases h; exact ⟨a, le_refl _, by simp, hp⟩
    · obtain ⟨b, h1, h2, h3⟩ := ih h
      refine ⟨b, by omega, ?_, h3⟩
      have : i - k = (i - (k + 1)) + 1 := by omega
      rw [this]; simpa using h2

/-- The first place of which `p` holds is a place, and `p` holds there. -/
theorem Tab.first_some {n : Nat} [Inhabited α] {t : Tab α n} {p : Nat → α → Bool} {i : Nat} (h : t.first p = some i) :
    i < n ∧ p i (t.get i) = true := by
  obtain ⟨a, -, h2, h3⟩ := firstFrom_some h
  obtain ⟨hl, rfl⟩ := List.getElem?_eq_some_iff.1 h2
  have hi : i < t.list.length := by simpa using hl
  exact ⟨t.len ▸ hi, by simpa [Tab.get, hi] using h3⟩

theorem firstFrom_none {p : Nat → α → Bool} {l : List α} :
    ∀ {k}, firstFrom p k l = none → ∀ i a, l[i]? = some a → p (k + i) a = false := by
  induction l with
  | nil => intro k _ i a h; simp at h
  | cons b l ih =>
    intro k h i a hi
    simp only [firstFrom] at h
    split at h
    · cases h
    · rename_i hb
      cases i with
      | zero => simp at hi; subst hi; simpa using hb
      | succ i => simpa [Nat.add_comm 1 i, Nat.add_assoc] using ih h i a (by simpa using hi)

/-- No place is the first of which `p` holds when `p` holds of none. -/
theorem Tab.first_none {n : Nat} [Inhabited α] {t : Tab α n} {p : Nat → α → Bool} (h : t.first p = none) (i : Nat)
    (hi : i < n) : p i (t.get i) = false := by
  have ht : i < t.list.length := t.len.symm ▸ hi
  simpa [Tab.get, ht] using firstFrom_none h i t.list[i] (by simp [ht])

end Sys2Proof

namespace Sys2Proof.Machine

open Sys2Proof

/-! ### Saturating numbers -/

theorem satAdd_le (top n k : Nat) : satAdd top n k ≤ top := by simp [satAdd]

theorem satSucc_eq (n : Nat) : satSucc n = min 65535 (n + 1) := rfl

end Sys2Proof.Machine
end

