-- ==== Sys2Proof/Laws/State.lean ====
section
/-! SUPPORT. Beside the state: for each operation that is one record update, what it leaves of each part of
the state, true by unfolding. -/

namespace Sys2Proof.Machine

open Sys2Proof

section raise
variable (s : State) (f : EventFlag)
@[simp] theorem State.raise_pending : (s.raise f).pending = s.pending := rfl
@[simp] theorem State.raise_power : (s.raise f).power = s.power := rfl
@[simp] theorem State.raise_loader : (s.raise f).loader = s.loader := rfl
@[simp] theorem State.raise_tables : (s.raise f).tables = s.tables := rfl
@[simp] theorem State.raise_memory : (s.raise f).memory = s.memory := rfl
@[simp] theorem State.raise_seg : (s.raise f).seg = s.seg := rfl
@[simp] theorem State.raise_points : (s.raise f).points = s.points := rfl
@[simp] theorem State.raise_image : (s.raise f).image = s.image := rfl
@[simp] theorem State.raise_watch : (s.raise f).watch = s.watch := rfl
@[simp] theorem State.raise_fog : (s.raise f).fog = s.fog := rfl
@[simp] theorem State.raise_heat : (s.raise f).heat = s.heat := rfl
@[simp] theorem State.raise_zones : (s.raise f).zones = s.zones := rfl
@[simp] theorem State.raise_store : (s.raise f).store = s.store := rfl
@[simp] theorem State.raise_engines : (s.raise f).engines = s.engines := rfl
@[simp] theorem State.raise_bracket : (s.raise f).bracket = s.bracket := rfl
end raise

section place
variable (s : State) (tag code : Byte) (r : ResultCode) (d : List Byte)
@[simp] theorem State.place_pending : (s.place tag code r d).pending = s.pending := rfl
@[simp] theorem State.place_power : (s.place tag code r d).power = s.power := rfl
@[simp] theorem State.place_loader : (s.place tag code r d).loader = s.loader := rfl
@[simp] theorem State.place_tables : (s.place tag code r d).tables = s.tables := rfl
@[simp] theorem State.place_memory : (s.place tag code r d).memory = s.memory := rfl
@[simp] theorem State.place_seg : (s.place tag code r d).seg = s.seg := rfl
@[simp] theorem State.place_points : (s.place tag code r d).points = s.points := rfl
@[simp] theorem State.place_image : (s.place tag code r d).image = s.image := rfl
@[simp] theorem State.place_watch : (s.place tag code r d).watch = s.watch := rfl
@[simp] theorem State.place_fog : (s.place tag code r d).fog = s.fog := rfl
@[simp] theorem State.place_heat : (s.place tag code r d).heat = s.heat := rfl
@[simp] theorem State.place_zones : (s.place tag code r d).zones = s.zones := rfl
@[simp] theorem State.place_store : (s.place tag code r d).store = s.store := rfl
@[simp] theorem State.place_engines : (s.place tag code r d).engines = s.engines := rfl
@[simp] theorem State.place_bracket : (s.place tag code r d).bracket = s.bracket := rfl
end place

section goodFrame
variable (s : State)
@[simp] theorem State.goodFrame_pending : (s.goodFrame).pending = s.pending := rfl
@[simp] theorem State.goodFrame_power : (s.goodFrame).power = s.power := rfl
@[simp] theorem State.goodFrame_loader : (s.goodFrame).loader = s.loader := rfl
@[simp] theorem State.goodFrame_tables : (s.goodFrame).tables = s.tables := rfl
@[simp] theorem State.goodFrame_memory : (s.goodFrame).memory = s.memory := rfl
@[simp] theorem State.goodFrame_seg : (s.goodFrame).seg = s.seg := rfl
@[simp] theorem State.goodFrame_points : (s.goodFrame).points = s.points := rfl
@[simp] theorem State.goodFrame_image : (s.goodFrame).image = s.image := rfl
@[simp] theorem State.goodFrame_watch : (s.goodFrame).watch = s.watch := rfl
@[simp] theorem State.goodFrame_fog : (s.goodFrame).fog = s.fog := rfl
@[simp] theorem State.goodFrame_heat : (s.goodFrame).heat = s.heat := rfl
@[simp] theorem State.goodFrame_zones : (s.goodFrame).zones = s.zones := rfl
@[simp] theorem State.goodFrame_store : (s.goodFrame).store = s.store := rfl
@[simp] theorem State.goodFrame_engines : (s.goodFrame).engines = s.engines := rfl
@[simp] theorem State.goodFrame_bracket : (s.goodFrame).bracket = s.bracket := rfl
end goodFrame

section offerUrgent
variable (s : State) (a : Nat) (r : JoinReason)
@[simp] theorem State.offerUrgent_pending : (s.offerUrgent a r).pending = s.pending := rfl
@[simp] theorem State.offerUrgent_power : (s.offerUrgent a r).power = s.power := rfl
@[simp] theorem State.offerUrgent_loader : (s.offerUrgent a r).loader = s.loader := rfl
@[simp] theorem State.offerUrgent_tables : (s.offerUrgent a r).tables = s.tables := rfl
@[simp] theorem State.offerUrgent_memory : (s.offerUrgent a r).memory = s.memory := rfl
@[simp] theorem State.offerUrgent_points : (s.offerUrgent a r).points = s.points := rfl
@[simp] theorem State.offerUrgent_image : (s.offerUrgent a r).image = s.image := rfl
@[simp] theorem State.offerUrgent_watch : (s.offerUrgent a r).watch = s.watch := rfl
@[simp] theorem State.offerUrgent_fog : (s.offerUrgent a r).fog = s.fog := rfl
@[simp] theorem State.offerUrgent_heat : (s.offerUrgent a r).heat = s.heat := rfl
@[simp] theorem State.offerUrgent_zones : (s.offerUrgent a r).zones = s.zones := rfl
@[simp] theorem State.offerUrgent_store : (s.offerUrgent a r).store = s.store := rfl
@[simp] theorem State.offerUrgent_engines : (s.offerUrgent a r).engines = s.engines := rfl
@[simp] theorem State.offerUrgent_bracket : (s.offerUrgent a r).bracket = s.bracket := rfl
@[simp] theorem State.offerUrgent_trunk : (s.offerUrgent a r).trunk = s.trunk := rfl
end offerUrgent

section note
variable (s : State) (before : List (Nat × ChannelRun)) (offers : List Nat)
@[simp] theorem State.note_pending : (s.note before offers).pending = s.pending := rfl
@[simp] theorem State.note_power : (s.note before offers).power = s.power := rfl
@[simp] theorem State.note_loader : (s.note before offers).loader = s.loader := rfl
@[simp] theorem State.note_tables : (s.note before offers).tables = s.tables := rfl
@[simp] theorem State.note_memory : (s.note before offers).memory = s.memory := rfl
@[simp] theorem State.note_points : (s.note before offers).points = s.points := rfl
@[simp] theorem State.note_image : (s.note before offers).image = s.image := rfl
@[simp] theorem State.note_watch : (s.note before offers).watch = s.watch := rfl
@[simp] theorem State.note_fog : (s.note before offers).fog = s.fog := rfl
@[simp] theorem State.note_heat : (s.note before offers).heat = s.heat := rfl
@[simp] theorem State.note_zones : (s.note before offers).zones = s.zones := rfl
@[simp] theorem State.note_store : (s.note before offers).store = s.store := rfl
@[simp] theorem State.note_engines : (s.note before offers).engines = s.engines := rfl
@[simp] theorem State.note_bracket : (s.note before offers).bracket = s.bracket := rfl
@[simp] theorem State.note_trunk : (s.note before offers).trunk = s.trunk := rfl
end note

section settle
variable (s : State)
@[simp] theorem State.settle_pending : (s.settle).pending = s.pending := rfl
@[simp] theorem State.settle_power : (s.settle).power = s.power := rfl
@[simp] theorem State.settle_loader : (s.settle).loader = s.loader := rfl
@[simp] theorem State.settle_tables : (s.settle).tables = s.tables := rfl
@[simp] theorem State.settle_memory : (s.settle).memory = s.memory := rfl
@[simp] theorem State.settle_points : (s.settle).points = s.points := rfl
@[simp] theorem State.settle_image : (s.settle).image = s.image := rfl
@[simp] theorem State.settle_watch : (s.settle).watch = s.watch := rfl
@[simp] theorem State.settle_fog : (s.settle).fog = s.fog := rfl
@[simp] theorem State.settle_heat : (s.settle).heat = s.heat := rfl
@[simp] theorem State.settle_zones : (s.settle).zones = s.zones := rfl
@[simp] theorem State.settle_store : (s.settle).store = s.store := rfl
@[simp] theorem State.settle_engines : (s.settle).engines = s.engines := rfl
@[simp] theorem State.settle_bracket : (s.settle).bracket = s.bracket := rfl
@[simp] theorem State.settle_trunk : (s.settle).trunk = s.trunk := rfl
end settle

section countDraw
variable (s : State)
@[simp] theorem State.countDraw_pending : (s.countDraw).pending = s.pending := rfl
@[simp] theorem State.countDraw_power : (s.countDraw).power = s.power := rfl
@[simp] theorem State.countDraw_loader : (s.countDraw).loader = s.loader := rfl
@[simp] theorem State.countDraw_tables : (s.countDraw).tables = s.tables := rfl
@[simp] theorem State.countDraw_memory : (s.countDraw).memory = s.memory := rfl
@[simp] theorem State.countDraw_points : (s.countDraw).points = s.points := rfl
@[simp] theorem State.countDraw_image : (s.countDraw).image = s.image := rfl
@[simp] theorem State.countDraw_watch : (s.countDraw).watch = s.watch := rfl
@[simp] theorem State.countDraw_fog : (s.countDraw).fog = s.fog := rfl
@[simp] theorem State.countDraw_heat : (s.countDraw).heat = s.heat := rfl
@[simp] theorem State.countDraw_zones : (s.countDraw).zones = s.zones := rfl
@[simp] theorem State.countDraw_store : (s.countDraw).store = s.store := rfl
@[simp] theorem State.countDraw_engines : (s.countDraw).engines = s.engines := rfl
@[simp] theorem State.countDraw_bracket : (s.countDraw).bracket = s.bracket := rfl
@[simp] theorem State.countDraw_trunk : (s.countDraw).trunk = s.trunk := rfl
end countDraw

section asSeries
variable (s t : State)
@[simp] theorem State.asSeries_pending : (s.asSeries t).pending = t.pending := rfl
@[simp] theorem State.asSeries_power : (s.asSeries t).power = t.power := rfl
@[simp] theorem State.asSeries_loader : (s.asSeries t).loader = t.loader := rfl
@[simp] theorem State.asSeries_tables : (s.asSeries t).tables = t.tables := rfl
@[simp] theorem State.asSeries_memory : (s.asSeries t).memory = t.memory := rfl
@[simp] theorem State.asSeries_points : (s.asSeries t).points = t.points := rfl
@[simp] theorem State.asSeries_image : (s.asSeries t).image = t.image := rfl
@[simp] theorem State.asSeries_watch : (s.asSeries t).watch = t.watch := rfl
@[simp] theorem State.asSeries_fog : (s.asSeries t).fog = t.fog := rfl
@[simp] theorem State.asSeries_heat : (s.asSeries t).heat = t.heat := rfl
@[simp] theorem State.asSeries_zones : (s.asSeries t).zones = t.zones := rfl
@[simp] theorem State.asSeries_store : (s.asSeries t).store = t.store := rfl
@[simp] theorem State.asSeries_engines : (s.asSeries t).engines = t.engines := rfl
@[simp] theorem State.asSeries_bracket : (s.asSeries t).bracket = t.bracket := rfl
@[simp] theorem State.asSeries_trunk : (s.asSeries t).trunk = t.trunk := rfl
end asSeries

section asCommit
variable (s t : State)
@[simp] theorem State.asCommit_pending : (s.asCommit t).pending = t.pending := rfl
@[simp] theorem State.asCommit_power : (s.asCommit t).power = t.power := rfl
@[simp] theorem State.asCommit_loader : (s.asCommit t).loader = t.loader := rfl
@[simp] theorem State.asCommit_tables : (s.asCommit t).tables = t.tables := rfl
@[simp] theorem State.asCommit_memory : (s.asCommit t).memory = t.memory := rfl
@[simp] theorem State.asCommit_points : (s.asCommit t).points = t.points := rfl
@[simp] theorem State.asCommit_image : (s.asCommit t).image = t.image := rfl
@[simp] theorem State.asCommit_watch : (s.asCommit t).watch = t.watch := rfl
@[simp] theorem State.asCommit_fog : (s.asCommit t).fog = t.fog := rfl
@[simp] theorem State.asCommit_heat : (s.asCommit t).heat = t.heat := rfl
@[simp] theorem State.asCommit_zones : (s.asCommit t).zones = t.zones := rfl
@[simp] theorem State.asCommit_store : (s.asCommit t).store = t.store := rfl
@[simp] theorem State.asCommit_engines : (s.asCommit t).engines = t.engines := rfl
@[simp] theorem State.asCommit_bracket : (s.asCommit t).bracket = t.bracket := rfl
@[simp] theorem State.asCommit_trunk : (s.asCommit t).trunk = t.trunk := rfl
end asCommit

section asStep
variable (s t : State)
@[simp] theorem State.asStep_pending : (s.asStep t).pending = t.pending := rfl
@[simp] theorem State.asStep_power : (s.asStep t).power = t.power := rfl
@[simp] theorem State.asStep_loader : (s.asStep t).loader = t.loader := rfl
@[simp] theorem State.asStep_tables : (s.asStep t).tables = t.tables := rfl
@[simp] theorem State.asStep_memory : (s.asStep t).memory = t.memory := rfl
@[simp] theorem State.asStep_points : (s.asStep t).points = t.points := rfl
@[simp] theorem State.asStep_image : (s.asStep t).image = t.image := rfl
@[simp] theorem State.asStep_watch : (s.asStep t).watch = t.watch := rfl
@[simp] theorem State.asStep_fog : (s.asStep t).fog = t.fog := rfl
@[simp] theorem State.asStep_heat : (s.asStep t).heat = t.heat := rfl
@[simp] theorem State.asStep_zones : (s.asStep t).zones = t.zones := rfl
@[simp] theorem State.asStep_store : (s.asStep t).store = t.store := rfl
@[simp] theorem State.asStep_engines : (s.asStep t).engines = t.engines := rfl
@[simp] theorem State.asStep_bracket : (s.asStep t).bracket = t.bracket := rfl
@[simp] theorem State.asStep_trunk : (s.asStep t).trunk = t.trunk := rfl
end asStep

section backTo
variable (s : State) (later : List ImageEvent)
@[simp] theorem State.backTo_pending : (s.backTo later).pending = s.pending := rfl
@[simp] theorem State.backTo_power : (s.backTo later).power = s.power := rfl
@[simp] theorem State.backTo_loader : (s.backTo later).loader = s.loader := rfl
@[simp] theorem State.backTo_tables : (s.backTo later).tables = s.tables := rfl
@[simp] theorem State.backTo_memory : (s.backTo later).memory = s.memory := rfl
@[simp] theorem State.backTo_points : (s.backTo later).points = s.points := rfl
@[simp] theorem State.backTo_watch : (s.backTo later).watch = s.watch := rfl
@[simp] theorem State.backTo_fog : (s.backTo later).fog = s.fog := rfl
@[simp] theorem State.backTo_heat : (s.backTo later).heat = s.heat := rfl
@[simp] theorem State.backTo_zones : (s.backTo later).zones = s.zones := rfl
@[simp] theorem State.backTo_store : (s.backTo later).store = s.store := rfl
@[simp] theorem State.backTo_engines : (s.backTo later).engines = s.engines := rfl
@[simp] theorem State.backTo_bracket : (s.backTo later).bracket = s.bracket := rfl
@[simp] theorem State.backTo_trunk : (s.backTo later).trunk = s.trunk := rfl
end backTo

section takeLater
variable (s : State) (image : Tab ChannelRun 512) (later : List ImageEvent)
@[simp] theorem State.takeLater_pending : (s.takeLater image later).pending = s.pending := rfl
@[simp] theorem State.takeLater_power : (s.takeLater image later).power = s.power := rfl
@[simp] theorem State.takeLater_loader : (s.takeLater image later).loader = s.loader := rfl
@[simp] theorem State.takeLater_tables : (s.takeLater image later).tables = s.tables := rfl
@[simp] theorem State.takeLater_memory : (s.takeLater image later).memory = s.memory := rfl
@[simp] theorem State.takeLater_points : (s.takeLater image later).points = s.points := rfl
@[simp] theorem State.takeLater_watch : (s.takeLater image later).watch = s.watch := rfl
@[simp] theorem State.takeLater_fog : (s.takeLater image later).fog = s.fog := rfl
@[simp] theorem State.takeLater_heat : (s.takeLater image later).heat = s.heat := rfl
@[simp] theorem State.takeLater_zones : (s.takeLater image later).zones = s.zones := rfl
@[simp] theorem State.takeLater_store : (s.takeLater image later).store = s.store := rfl
@[simp] theorem State.takeLater_engines : (s.takeLater image later).engines = s.engines := rfl
@[simp] theorem State.takeLater_bracket : (s.takeLater image later).bracket = s.bracket := rfl
@[simp] theorem State.takeLater_trunk : (s.takeLater image later).trunk = s.trunk := rfl
end takeLater

section setPhase
variable (s : State) (p : SlotPhase)
@[simp] theorem State.setPhase_pending : (s.setPhase p).pending = s.pending := rfl
@[simp] theorem State.setPhase_power : (s.setPhase p).power = s.power := rfl
@[simp] theorem State.setPhase_loader : (s.setPhase p).loader = s.loader := rfl
@[simp] theorem State.setPhase_tables : (s.setPhase p).tables = s.tables := rfl
@[simp] theorem State.setPhase_memory : (s.setPhase p).memory = s.memory := rfl
@[simp] theorem State.setPhase_points : (s.setPhase p).points = s.points := rfl
@[simp] theorem State.setPhase_image : (s.setPhase p).image = s.image := rfl
@[simp] theorem State.setPhase_watch : (s.setPhase p).watch = s.watch := rfl
@[simp] theorem State.setPhase_fog : (s.setPhase p).fog = s.fog := rfl
@[simp] theorem State.setPhase_heat : (s.setPhase p).heat = s.heat := rfl
@[simp] theorem State.setPhase_zones : (s.setPhase p).zones = s.zones := rfl
@[simp] theorem State.setPhase_store : (s.setPhase p).store = s.store := rfl
@[simp] theorem State.setPhase_engines : (s.setPhase p).engines = s.engines := rfl
@[simp] theorem State.setPhase_bracket : (s.setPhase p).bracket = s.bracket := rfl
@[simp] theorem State.setPhase_trunk : (s.setPhase p).trunk = s.trunk := rfl
end setPhase

section setReplyTimer
variable (s : State) (t : Option Nat)
@[simp] theorem State.setReplyTimer_pending : (s.setReplyTimer t).pending = s.pending := rfl
@[simp] theorem State.setReplyTimer_power : (s.setReplyTimer t).power = s.power := rfl
@[simp] theorem State.setReplyTimer_loader : (s.setReplyTimer t).loader = s.loader := rfl
@[simp] theorem State.setReplyTimer_tables : (s.setReplyTimer t).tables = s.tables := rfl
@[simp] theorem State.setReplyTimer_memory : (s.setReplyTimer t).memory = s.memory := rfl
@[simp] theorem State.setReplyTimer_points : (s.setReplyTimer t).points = s.points := rfl
@[simp] theorem State.setReplyTimer_image : (s.setReplyTimer t).image = s.image := rfl
@[simp] theorem State.setReplyTimer_watch : (s.setReplyTimer t).watch = s.watch := rfl
@[simp] theorem State.setReplyTimer_fog : (s.setReplyTimer t).fog = s.fog := rfl
@[simp] theorem State.setReplyTimer_heat : (s.setReplyTimer t).heat = s.heat := rfl
@[simp] theorem State.setReplyTimer_zones : (s.setReplyTimer t).zones = s.zones := rfl
@[simp] theorem State.setReplyTimer_store : (s.setReplyTimer t).store = s.store := rfl
@[simp] theorem State.setReplyTimer_engines : (s.setReplyTimer t).engines = s.engines := rfl
@[simp] theorem State.setReplyTimer_bracket : (s.setReplyTimer t).bracket = s.bracket := rfl
@[simp] theorem State.setReplyTimer_trunk : (s.setReplyTimer t).trunk = s.trunk := rfl
end setReplyTimer

section advanceSlot
variable (s : State)
@[simp] theorem State.advanceSlot_pending : (s.advanceSlot).pending = s.pending := rfl
@[simp] theorem State.advanceSlot_power : (s.advanceSlot).power = s.power := rfl
@[simp] theorem State.advanceSlot_loader : (s.advanceSlot).loader = s.loader := rfl
@[simp] theorem State.advanceSlot_tables : (s.advanceSlot).tables = s.tables := rfl
@[simp] theorem State.advanceSlot_memory : (s.advanceSlot).memory = s.memory := rfl
@[simp] theorem State.advanceSlot_points : (s.advanceSlot).points = s.points := rfl
@[simp] theorem State.advanceSlot_image : (s.advanceSlot).image = s.image := rfl
@[simp] theorem State.advanceSlot_watch : (s.advanceSlot).watch = s.watch := rfl
@[simp] theorem State.advanceSlot_fog : (s.advanceSlot).fog = s.fog := rfl
@[simp] theorem State.advanceSlot_heat : (s.advanceSlot).heat = s.heat := rfl
@[simp] theorem State.advanceSlot_zones : (s.advanceSlot).zones = s.zones := rfl
@[simp] theorem State.advanceSlot_store : (s.advanceSlot).store = s.store := rfl
@[simp] theorem State.advanceSlot_engines : (s.advanceSlot).engines = s.engines := rfl
@[simp] theorem State.advanceSlot_bracket : (s.advanceSlot).bracket = s.bracket := rfl
@[simp] theorem State.advanceSlot_trunk : (s.advanceSlot).trunk = s.trunk := rfl
end advanceSlot

section transmit
variable (s : State) (h : Option Bool) (o : Outgoing)
@[simp] theorem State.transmit_pending : (s.transmit h o).pending = s.pending := rfl
@[simp] theorem State.transmit_power : (s.transmit h o).power = s.power := rfl
@[simp] theorem State.transmit_loader : (s.transmit h o).loader = s.loader := rfl
@[simp] theorem State.transmit_tables : (s.transmit h o).tables = s.tables := rfl
@[simp] theorem State.transmit_memory : (s.transmit h o).memory = s.memory := rfl
@[simp] theorem State.transmit_points : (s.transmit h o).points = s.points := rfl
@[simp] theorem State.transmit_image : (s.transmit h o).image = s.image := rfl
@[simp] theorem State.transmit_watch : (s.transmit h o).watch = s.watch := rfl
@[simp] theorem State.transmit_fog : (s.transmit h o).fog = s.fog := rfl
@[simp] theorem State.transmit_heat : (s.transmit h o).heat = s.heat := rfl
@[simp] theorem State.transmit_zones : (s.transmit h o).zones = s.zones := rfl
@[simp] theorem State.transmit_store : (s.transmit h o).store = s.store := rfl
@[simp] theorem State.transmit_engines : (s.transmit h o).engines = s.engines := rfl
@[simp] theorem State.transmit_bracket : (s.transmit h o).bracket = s.bracket := rfl
@[simp] theorem State.transmit_trunk : (s.transmit h o).trunk = s.trunk := rfl
end transmit

section composeSet
variable (s : State) (h : Option Bool) (n : Nat)
@[simp] theorem State.composeSet_pending : (s.composeSet h n).pending = s.pending := rfl
@[simp] theorem State.composeSet_power : (s.composeSet h n).power = s.power := rfl
@[simp] theorem State.composeSet_loader : (s.composeSet h n).loader = s.loader := rfl
@[simp] theorem State.composeSet_tables : (s.composeSet h n).tables = s.tables := rfl
@[simp] theorem State.composeSet_memory : (s.composeSet h n).memory = s.memory := rfl
@[simp] theorem State.composeSet_points : (s.composeSet h n).points = s.points := rfl
@[simp] theorem State.composeSet_image : (s.composeSet h n).image = s.image := rfl
@[simp] theorem State.composeSet_watch : (s.composeSet h n).watch = s.watch := rfl
@[simp] theorem State.composeSet_fog : (s.composeSet h n).fog = s.fog := rfl
@[simp] theorem State.composeSet_heat : (s.composeSet h n).heat = s.heat := rfl
@[simp] theorem State.composeSet_zones : (s.composeSet h n).zones = s.zones := rfl
@[simp] theorem State.composeSet_store : (s.composeSet h n).store = s.store := rfl
@[simp] theorem State.composeSet_engines : (s.composeSet h n).engines = s.engines := rfl
@[simp] theorem State.composeSet_bracket : (s.composeSet h n).bracket = s.bracket := rfl
@[simp] theorem State.composeSet_trunk : (s.composeSet h n).trunk = s.trunk := rfl
end composeSet

section setPoint
variable (s : State) (p : Nat) (r : PointRun)
@[simp] theorem State.setPoint_pending : (s.setPoint p r).pending = s.pending := rfl
@[simp] theorem State.setPoint_power : (s.setPoint p r).power = s.power := rfl
@[simp] theorem State.setPoint_loader : (s.setPoint p r).loader = s.loader := rfl
@[simp] theorem State.setPoint_tables : (s.setPoint p r).tables = s.tables := rfl
@[simp] theorem State.setPoint_memory : (s.setPoint p r).memory = s.memory := rfl
@[simp] theorem State.setPoint_seg : (s.setPoint p r).seg = s.seg := rfl
@[simp] theorem State.setPoint_image : (s.setPoint p r).image = s.image := rfl
@[simp] theorem State.setPoint_watch : (s.setPoint p r).watch = s.watch := rfl
@[simp] theorem State.setPoint_fog : (s.setPoint p r).fog = s.fog := rfl
@[simp] theorem State.setPoint_heat : (s.setPoint p r).heat = s.heat := rfl
@[simp] theorem State.setPoint_zones : (s.setPoint p r).zones = s.zones := rfl
@[simp] theorem State.setPoint_store : (s.setPoint p r).store = s.store := rfl
@[simp] theorem State.setPoint_engines : (s.setPoint p r).engines = s.engines := rfl
@[simp] theorem State.setPoint_bracket : (s.setPoint p r).bracket = s.bracket := rfl
@[simp] theorem State.setPoint_trunk : (s.setPoint p r).trunk = s.trunk := rfl
end setPoint

section setStation
variable (s : State) (i : Nat) (r : StationRun)
@[simp] theorem State.setStation_pending : (s.setStation i r).pending = s.pending := rfl
@[simp] theorem State.setStation_power : (s.setStation i r).power = s.power := rfl
@[simp] theorem State.setStation_loader : (s.setStation i r).loader = s.loader := rfl
@[simp] theorem State.setStation_tables : (s.setStation i r).tables = s.tables := rfl
@[simp] theorem State.setStation_memory : (s.setStation i r).memory = s.memory := rfl
@[simp] theorem State.setStation_seg : (s.setStation i r).seg = s.seg := rfl
@[simp] theorem State.setStation_points : (s.setStation i r).points = s.points := rfl
@[simp] theorem State.setStation_image : (s.setStation i r).image = s.image := rfl
@[simp] theorem State.setStation_watch : (s.setStation i r).watch = s.watch := rfl
@[simp] theorem State.setStation_heat : (s.setStation i r).heat = s.heat := rfl
@[simp] theorem State.setStation_zones : (s.setStation i r).zones = s.zones := rfl
@[simp] theorem State.setStation_store : (s.setStation i r).store = s.store := rfl
@[simp] theorem State.setStation_engines : (s.setStation i r).engines = s.engines := rfl
@[simp] theorem State.setStation_bracket : (s.setStation i r).bracket = s.bracket := rfl
@[simp] theorem State.setStation_trunk : (s.setStation i r).trunk = s.trunk := rfl
end setStation

section setZoneRun
variable (s : State) (z : Nat) (r : ZoneRun)
@[simp] theorem State.setZoneRun_pending : (s.setZoneRun z r).pending = s.pending := rfl
@[simp] theorem State.setZoneRun_power : (s.setZoneRun z r).power = s.power := rfl
@[simp] theorem State.setZoneRun_loader : (s.setZoneRun z r).loader = s.loader := rfl
@[simp] theorem State.setZoneRun_tables : (s.setZoneRun z r).tables = s.tables := rfl
@[simp] theorem State.setZoneRun_memory : (s.setZoneRun z r).memory = s.memory := rfl
@[simp] theorem State.setZoneRun_seg : (s.setZoneRun z r).seg = s.seg := rfl
@[simp] theorem State.setZoneRun_points : (s.setZoneRun z r).points = s.points := rfl
@[simp] theorem State.setZoneRun_image : (s.setZoneRun z r).image = s.image := rfl
@[simp] theorem State.setZoneRun_watch : (s.setZoneRun z r).watch = s.watch := rfl
@[simp] theorem State.setZoneRun_fog : (s.setZoneRun z r).fog = s.fog := rfl
@[simp] theorem State.setZoneRun_heat : (s.setZoneRun z r).heat = s.heat := rfl
@[simp] theorem State.setZoneRun_store : (s.setZoneRun z r).store = s.store := rfl
@[simp] theorem State.setZoneRun_engines : (s.setZoneRun z r).engines = s.engines := rfl
@[simp] theorem State.setZoneRun_bracket : (s.setZoneRun z r).bracket = s.bracket := rfl
@[simp] theorem State.setZoneRun_trunk : (s.setZoneRun z r).trunk = s.trunk := rfl
end setZoneRun

section setBank
variable (s : State) (b : Nat) (k : Bank)
@[simp] theorem State.setBank_pending : (s.setBank b k).pending = s.pending := rfl
@[simp] theorem State.setBank_power : (s.setBank b k).power = s.power := rfl
@[simp] theorem State.setBank_loader : (s.setBank b k).loader = s.loader := rfl
@[simp] theorem State.setBank_tables : (s.setBank b k).tables = s.tables := rfl
@[simp] theorem State.setBank_memory : (s.setBank b k).memory = s.memory := rfl
@[simp] theorem State.setBank_seg : (s.setBank b k).seg = s.seg := rfl
@[simp] theorem State.setBank_points : (s.setBank b k).points = s.points := rfl
@[simp] theorem State.setBank_image : (s.setBank b k).image = s.image := rfl
@[simp] theorem State.setBank_watch : (s.setBank b k).watch = s.watch := rfl
@[simp] theorem State.setBank_fog : (s.setBank b k).fog = s.fog := rfl
@[simp] theorem State.setBank_heat : (s.setBank b k).heat = s.heat := rfl
@[simp] theorem State.setBank_zones : (s.setBank b k).zones = s.zones := rfl
@[simp] theorem State.setBank_engines : (s.setBank b k).engines = s.engines := rfl
@[simp] theorem State.setBank_bracket : (s.setBank b k).bracket = s.bracket := rfl
@[simp] theorem State.setBank_trunk : (s.setBank b k).trunk = s.trunk := rfl
end setBank

section setEngine
variable (s : State) (b : Nat) (e : Engine)
@[simp] theorem State.setEngine_pending : (s.setEngine b e).pending = s.pending := rfl
@[simp] theorem State.setEngine_power : (s.setEngine b e).power = s.power := rfl
@[simp] theorem State.setEngine_loader : (s.setEngine b e).loader = s.loader := rfl
@[simp] theorem State.setEngine_tables : (s.setEngine b e).tables = s.tables := rfl
@[simp] theorem State.setEngine_memory : (s.setEngine b e).memory = s.memory := rfl
@[simp] theorem State.setEngine_seg : (s.setEngine b e).seg = s.seg := rfl
@[simp] theorem State.setEngine_points : (s.setEngine b e).points = s.points := rfl
@[simp] theorem State.setEngine_image : (s.setEngine b e).image = s.image := rfl
@[simp] theorem State.setEngine_watch : (s.setEngine b e).watch = s.watch := rfl
@[simp] theorem State.setEngine_fog : (s.setEngine b e).fog = s.fog := rfl
@[simp] theorem State.setEngine_heat : (s.setEngine b e).heat = s.heat := rfl
@[simp] theorem State.setEngine_zones : (s.setEngine b e).zones = s.zones := rfl
@[simp] theorem State.setEngine_store : (s.setEngine b e).store = s.store := rfl
@[simp] theorem State.setEngine_bracket : (s.setEngine b e).bracket = s.bracket := rfl
@[simp] theorem State.setEngine_trunk : (s.setEngine b e).trunk = s.trunk := rfl
end setEngine

section joinMemory
variable (s : State) (op : MemOp)
@[simp] theorem State.joinMemory_pending : (s.joinMemory op).pending = s.pending := rfl
@[simp] theorem State.joinMemory_power : (s.joinMemory op).power = s.power := rfl
@[simp] theorem State.joinMemory_loader : (s.joinMemory op).loader = s.loader := rfl
@[simp] theorem State.joinMemory_tables : (s.joinMemory op).tables = s.tables := rfl
@[simp] theorem State.joinMemory_memory : (s.joinMemory op).memory = s.memory := rfl
@[simp] theorem State.joinMemory_seg : (s.joinMemory op).seg = s.seg := rfl
@[simp] theorem State.joinMemory_points : (s.joinMemory op).points = s.points := rfl
@[simp] theorem State.joinMemory_image : (s.joinMemory op).image = s.image := rfl
@[simp] theorem State.joinMemory_watch : (s.joinMemory op).watch = s.watch := rfl
@[simp] theorem State.joinMemory_fog : (s.joinMemory op).fog = s.fog := rfl
@[simp] theorem State.joinMemory_heat : (s.joinMemory op).heat = s.heat := rfl
@[simp] theorem State.joinMemory_zones : (s.joinMemory op).zones = s.zones := rfl
@[simp] theorem State.joinMemory_engines : (s.joinMemory op).engines = s.engines := rfl
@[simp] theorem State.joinMemory_bracket : (s.joinMemory op).bracket = s.bracket := rfl
@[simp] theorem State.joinMemory_trunk : (s.joinMemory op).trunk = s.trunk := rfl
end joinMemory

section leaveMemory
variable (s : State)
@[simp] theorem State.leaveMemory_pending : (s.leaveMemory).pending = s.pending := rfl
@[simp] theorem State.leaveMemory_power : (s.leaveMemory).power = s.power := rfl
@[simp] theorem State.leaveMemory_loader : (s.leaveMemory).loader = s.loader := rfl
@[simp] theorem State.leaveMemory_tables : (s.leaveMemory).tables = s.tables := rfl
@[simp] theorem State.leaveMemory_memory : (s.leaveMemory).memory = s.memory := rfl
@[simp] theorem State.leaveMemory_seg : (s.leaveMemory).seg = s.seg := rfl
@[simp] theorem State.leaveMemory_points : (s.leaveMemory).points = s.points := rfl
@[simp] theorem State.leaveMemory_image : (s.leaveMemory).image = s.image := rfl
@[simp] theorem State.leaveMemory_watch : (s.leaveMemory).watch = s.watch := rfl
@[simp] theorem State.leaveMemory_fog : (s.leaveMemory).fog = s.fog := rfl
@[simp] theorem State.leaveMemory_heat : (s.leaveMemory).heat = s.heat := rfl
@[simp] theorem State.leaveMemory_zones : (s.leaveMemory).zones = s.zones := rfl
@[simp] theorem State.leaveMemory_engines : (s.leaveMemory).engines = s.engines := rfl
@[simp] theorem State.leaveMemory_bracket : (s.leaveMemory).bracket = s.bracket := rfl
@[simp] theorem State.leaveMemory_trunk : (s.leaveMemory).trunk = s.trunk := rfl
end leaveMemory

section countOrdinal
variable (s : State)
@[simp] theorem State.countOrdinal_pending : (s.countOrdinal).pending = s.pending := rfl
@[simp] theorem State.countOrdinal_power : (s.countOrdinal).power = s.power := rfl
@[simp] theorem State.countOrdinal_loader : (s.countOrdinal).loader = s.loader := rfl
@[simp] theorem State.countOrdinal_tables : (s.countOrdinal).tables = s.tables := rfl
@[simp] theorem State.countOrdinal_memory : (s.countOrdinal).memory = s.memory := rfl
@[simp] theorem State.countOrdinal_seg : (s.countOrdinal).seg = s.seg := rfl
@[simp] theorem State.countOrdinal_points : (s.countOrdinal).points = s.points := rfl
@[simp] theorem State.countOrdinal_image : (s.countOrdinal).image = s.image := rfl
@[simp] theorem State.countOrdinal_watch : (s.countOrdinal).watch = s.watch := rfl
@[simp] theorem State.countOrdinal_fog : (s.countOrdinal).fog = s.fog := rfl
@[simp] theorem State.countOrdinal_heat : (s.countOrdinal).heat = s.heat := rfl
@[simp] theorem State.countOrdinal_zones : (s.countOrdinal).zones = s.zones := rfl
@[simp] theorem State.countOrdinal_store : (s.countOrdinal).store = s.store := rfl
@[simp] theorem State.countOrdinal_engines : (s.countOrdinal).engines = s.engines := rfl
@[simp] theorem State.countOrdinal_trunk : (s.countOrdinal).trunk = s.trunk := rfl
end countOrdinal

section bracketIdle
variable (s : State)
@[simp] theorem State.bracketIdle_pending : (s.bracketIdle).pending = s.pending := rfl
@[simp] theorem State.bracketIdle_power : (s.bracketIdle).power = s.power := rfl
@[simp] theorem State.bracketIdle_loader : (s.bracketIdle).loader = s.loader := rfl
@[simp] theorem State.bracketIdle_tables : (s.bracketIdle).tables = s.tables := rfl
@[simp] theorem State.bracketIdle_memory : (s.bracketIdle).memory = s.memory := rfl
@[simp] theorem State.bracketIdle_seg : (s.bracketIdle).seg = s.seg := rfl
@[simp] theorem State.bracketIdle_points : (s.bracketIdle).points = s.points := rfl
@[simp] theorem State.bracketIdle_image : (s.bracketIdle).image = s.image := rfl
@[simp] theorem State.bracketIdle_watch : (s.bracketIdle).watch = s.watch := rfl
@[simp] theorem State.bracketIdle_fog : (s.bracketIdle).fog = s.fog := rfl
@[simp] theorem State.bracketIdle_heat : (s.bracketIdle).heat = s.heat := rfl
@[simp] theorem State.bracketIdle_zones : (s.bracketIdle).zones = s.zones := rfl
@[simp] theorem State.bracketIdle_store : (s.bracketIdle).store = s.store := rfl
@[simp] theorem State.bracketIdle_engines : (s.bracketIdle).engines = s.engines := rfl
@[simp] theorem State.bracketIdle_trunk : (s.bracketIdle).trunk = s.trunk := rfl
end bracketIdle

section bracketEnterRun
variable (s : State)
@[simp] theorem State.bracketEnterRun_pending : (s.bracketEnterRun).pending = s.pending := rfl
@[simp] theorem State.bracketEnterRun_power : (s.bracketEnterRun).power = s.power := rfl
@[simp] theorem State.bracketEnterRun_loader : (s.bracketEnterRun).loader = s.loader := rfl
@[simp] theorem State.bracketEnterRun_tables : (s.bracketEnterRun).tables = s.tables := rfl
@[simp] theorem State.bracketEnterRun_memory : (s.bracketEnterRun).memory = s.memory := rfl
@[simp] theorem State.bracketEnterRun_seg : (s.bracketEnterRun).seg = s.seg := rfl
@[simp] theorem State.bracketEnterRun_points : (s.bracketEnterRun).points = s.points := rfl
@[simp] theorem State.bracketEnterRun_image : (s.bracketEnterRun).image = s.image := rfl
@[simp] theorem State.bracketEnterRun_watch : (s.bracketEnterRun).watch = s.watch := rfl
@[simp] theorem State.bracketEnterRun_fog : (s.bracketEnterRun).fog = s.fog := rfl
@[simp] theorem State.bracketEnterRun_heat : (s.bracketEnterRun).heat = s.heat := rfl
@[simp] theorem State.bracketEnterRun_zones : (s.bracketEnterRun).zones = s.zones := rfl
@[simp] theorem State.bracketEnterRun_store : (s.bracketEnterRun).store = s.store := rfl
@[simp] theorem State.bracketEnterRun_engines : (s.bracketEnterRun).engines = s.engines := rfl
@[simp] theorem State.bracketEnterRun_trunk : (s.bracketEnterRun).trunk = s.trunk := rfl
end bracketEnterRun

section storeRun
variable (s : State) (id : TableId) (i n : Nat) (c : List Byte)
@[simp] theorem State.storeRun_pending : (s.storeRun id i n c).pending = s.pending := rfl
@[simp] theorem State.storeRun_power : (s.storeRun id i n c).power = s.power := rfl
@[simp] theorem State.storeRun_loader : (s.storeRun id i n c).loader = s.loader := rfl
@[simp] theorem State.storeRun_memory : (s.storeRun id i n c).memory = s.memory := rfl
@[simp] theorem State.storeRun_seg : (s.storeRun id i n c).seg = s.seg := rfl
@[simp] theorem State.storeRun_points : (s.storeRun id i n c).points = s.points := rfl
@[simp] theorem State.storeRun_image : (s.storeRun id i n c).image = s.image := rfl
@[simp] theorem State.storeRun_watch : (s.storeRun id i n c).watch = s.watch := rfl
@[simp] theorem State.storeRun_fog : (s.storeRun id i n c).fog = s.fog := rfl
@[simp] theorem State.storeRun_heat : (s.storeRun id i n c).heat = s.heat := rfl
@[simp] theorem State.storeRun_zones : (s.storeRun id i n c).zones = s.zones := rfl
@[simp] theorem State.storeRun_store : (s.storeRun id i n c).store = s.store := rfl
@[simp] theorem State.storeRun_engines : (s.storeRun id i n c).engines = s.engines := rfl
@[simp] theorem State.storeRun_bracket : (s.storeRun id i n c).bracket = s.bracket := rfl
@[simp] theorem State.storeRun_trunk : (s.storeRun id i n c).trunk = s.trunk := rfl
end storeRun

section storeZone
variable (s : State) (z : Nat) (o : Option Bool) (a b : Option Int)
@[simp] theorem State.storeZone_pending : (s.storeZone z o a b).pending = s.pending := rfl
@[simp] theorem State.storeZone_power : (s.storeZone z o a b).power = s.power := rfl
@[simp] theorem State.storeZone_loader : (s.storeZone z o a b).loader = s.loader := rfl
@[simp] theorem State.storeZone_memory : (s.storeZone z o a b).memory = s.memory := rfl
@[simp] theorem State.storeZone_seg : (s.storeZone z o a b).seg = s.seg := rfl
@[simp] theorem State.storeZone_points : (s.storeZone z o a b).points = s.points := rfl
@[simp] theorem State.storeZone_image : (s.storeZone z o a b).image = s.image := rfl
@[simp] theorem State.storeZone_watch : (s.storeZone z o a b).watch = s.watch := rfl
@[simp] theorem State.storeZone_fog : (s.storeZone z o a b).fog = s.fog := rfl
@[simp] theorem State.storeZone_heat : (s.storeZone z o a b).heat = s.heat := rfl
@[simp] theorem State.storeZone_zones : (s.storeZone z o a b).zones = s.zones := rfl
@[simp] theorem State.storeZone_store : (s.storeZone z o a b).store = s.store := rfl
@[simp] theorem State.storeZone_engines : (s.storeZone z o a b).engines = s.engines := rfl
@[simp] theorem State.storeZone_bracket : (s.storeZone z o a b).bracket = s.bracket := rfl
@[simp] theorem State.storeZone_trunk : (s.storeZone z o a b).trunk = s.trunk := rfl
end storeZone

section setImage
variable (s : State) (m : List Host.Cell)
@[simp] theorem State.setImage_pending : (s.setImage m).pending = s.pending := rfl
@[simp] theorem State.setImage_power : (s.setImage m).power = s.power := rfl
@[simp] theorem State.setImage_loader : (s.setImage m).loader = s.loader := rfl
@[simp] theorem State.setImage_tables : (s.setImage m).tables = s.tables := rfl
@[simp] theorem State.setImage_seg : (s.setImage m).seg = s.seg := rfl
@[simp] theorem State.setImage_points : (s.setImage m).points = s.points := rfl
@[simp] theorem State.setImage_image : (s.setImage m).image = s.image := rfl
@[simp] theorem State.setImage_watch : (s.setImage m).watch = s.watch := rfl
@[simp] theorem State.setImage_fog : (s.setImage m).fog = s.fog := rfl
@[simp] theorem State.setImage_heat : (s.setImage m).heat = s.heat := rfl
@[simp] theorem State.setImage_zones : (s.setImage m).zones = s.zones := rfl
@[simp] theorem State.setImage_store : (s.setImage m).store = s.store := rfl
@[simp] theorem State.setImage_engines : (s.setImage m).engines = s.engines := rfl
@[simp] theorem State.setImage_bracket : (s.setImage m).bracket = s.bracket := rfl
@[simp] theorem State.setImage_trunk : (s.setImage m).trunk = s.trunk := rfl
end setImage

section setImageStatus
variable (s : State) (i : ImageStatus)
@[simp] theorem State.setImageStatus_pending : (s.setImageStatus i).pending = s.pending := rfl
@[simp] theorem State.setImageStatus_power : (s.setImageStatus i).power = s.power := rfl
@[simp] theorem State.setImageStatus_tables : (s.setImageStatus i).tables = s.tables := rfl
@[simp] theorem State.setImageStatus_memory : (s.setImageStatus i).memory = s.memory := rfl
@[simp] theorem State.setImageStatus_seg : (s.setImageStatus i).seg = s.seg := rfl
@[simp] theorem State.setImageStatus_points : (s.setImageStatus i).points = s.points := rfl
@[simp] theorem State.setImageStatus_image : (s.setImageStatus i).image = s.image := rfl
@[simp] theorem State.setImageStatus_watch : (s.setImageStatus i).watch = s.watch := rfl
@[simp] theorem State.setImageStatus_fog : (s.setImageStatus i).fog = s.fog := rfl
@[simp] theorem State.setImageStatus_heat : (s.setImageStatus i).heat = s.heat := rfl
@[simp] theorem State.setImageStatus_zones : (s.setImageStatus i).zones = s.zones := rfl
@[simp] theorem State.setImageStatus_store : (s.setImageStatus i).store = s.store := rfl
@[simp] theorem State.setImageStatus_engines : (s.setImageStatus i).engines = s.engines := rfl
@[simp] theorem State.setImageStatus_bracket : (s.setImageStatus i).bracket = s.bracket := rfl
@[simp] theorem State.setImageStatus_trunk : (s.setImageStatus i).trunk = s.trunk := rfl
end setImageStatus

section setPlace
variable (s : State) (b r : Nat) (p : List Byte)
@[simp] theorem State.setPlace_pending : (s.setPlace b r p).pending = s.pending := rfl
@[simp] theorem State.setPlace_power : (s.setPlace b r p).power = s.power := rfl
@[simp] theorem State.setPlace_loader : (s.setPlace b r p).loader = s.loader := rfl
@[simp] theorem State.setPlace_tables : (s.setPlace b r p).tables = s.tables := rfl
@[simp] theorem State.setPlace_seg : (s.setPlace b r p).seg = s.seg := rfl
@[simp] theorem State.setPlace_points : (s.setPlace b r p).points = s.points := rfl
@[simp] theorem State.setPlace_image : (s.setPlace b r p).image = s.image := rfl
@[simp] theorem State.setPlace_watch : (s.setPlace b r p).watch = s.watch := rfl
@[simp] theorem State.setPlace_fog : (s.setPlace b r p).fog = s.fog := rfl
@[simp] theorem State.setPlace_heat : (s.setPlace b r p).heat = s.heat := rfl
@[simp] theorem State.setPlace_zones : (s.setPlace b r p).zones = s.zones := rfl
@[simp] theorem State.setPlace_store : (s.setPlace b r p).store = s.store := rfl
@[simp] theorem State.setPlace_engines : (s.setPlace b r p).engines = s.engines := rfl
@[simp] theorem State.setPlace_bracket : (s.setPlace b r p).bracket = s.bracket := rfl
@[simp] theorem State.setPlace_trunk : (s.setPlace b r p).trunk = s.trunk := rfl
end setPlace

section restLighting
variable (s : State)
@[simp] theorem State.restLighting_pending : (s.restLighting).pending = s.pending := rfl
@[simp] theorem State.restLighting_power : (s.restLighting).power = s.power := rfl
@[simp] theorem State.restLighting_loader : (s.restLighting).loader = s.loader := rfl
@[simp] theorem State.restLighting_tables : (s.restLighting).tables = s.tables := rfl
@[simp] theorem State.restLighting_memory : (s.restLighting).memory = s.memory := rfl
@[simp] theorem State.restLighting_seg : (s.restLighting).seg = s.seg := rfl
@[simp] theorem State.restLighting_points : (s.restLighting).points = s.points := rfl
@[simp] theorem State.restLighting_image : (s.restLighting).image = s.image := rfl
@[simp] theorem State.restLighting_watch : (s.restLighting).watch = s.watch := rfl
@[simp] theorem State.restLighting_fog : (s.restLighting).fog = s.fog := rfl
@[simp] theorem State.restLighting_heat : (s.restLighting).heat = s.heat := rfl
@[simp] theorem State.restLighting_zones : (s.restLighting).zones = s.zones := rfl
@[simp] theorem State.restLighting_bracket : (s.restLighting).bracket = s.bracket := rfl
@[simp] theorem State.restLighting_trunk : (s.restLighting).trunk = s.trunk := rfl
end restLighting

section reclamp
variable (s : State) (g : GuardLevel)
@[simp] theorem State.reclamp_pending : (s.reclamp g).pending = s.pending := rfl
@[simp] theorem State.reclamp_power : (s.reclamp g).power = s.power := rfl
@[simp] theorem State.reclamp_loader : (s.reclamp g).loader = s.loader := rfl
@[simp] theorem State.reclamp_tables : (s.reclamp g).tables = s.tables := rfl
@[simp] theorem State.reclamp_memory : (s.reclamp g).memory = s.memory := rfl
@[simp] theorem State.reclamp_points : (s.reclamp g).points = s.points := rfl
@[simp] theorem State.reclamp_watch : (s.reclamp g).watch = s.watch := rfl
@[simp] theorem State.reclamp_fog : (s.reclamp g).fog = s.fog := rfl
@[simp] theorem State.reclamp_heat : (s.reclamp g).heat = s.heat := rfl
@[simp] theorem State.reclamp_zones : (s.reclamp g).zones = s.zones := rfl
@[simp] theorem State.reclamp_store : (s.reclamp g).store = s.store := rfl
@[simp] theorem State.reclamp_engines : (s.reclamp g).engines = s.engines := rfl
@[simp] theorem State.reclamp_bracket : (s.reclamp g).bracket = s.bracket := rfl
@[simp] theorem State.reclamp_trunk : (s.reclamp g).trunk = s.trunk := rfl
end reclamp

section watchEnterRun
variable (s : State)
@[simp] theorem State.watchEnterRun_pending : (s.watchEnterRun).pending = s.pending := rfl
@[simp] theorem State.watchEnterRun_power : (s.watchEnterRun).power = s.power := rfl
@[simp] theorem State.watchEnterRun_loader : (s.watchEnterRun).loader = s.loader := rfl
@[simp] theorem State.watchEnterRun_tables : (s.watchEnterRun).tables = s.tables := rfl
@[simp] theorem State.watchEnterRun_memory : (s.watchEnterRun).memory = s.memory := rfl
@[simp] theorem State.watchEnterRun_seg : (s.watchEnterRun).seg = s.seg := rfl
@[simp] theorem State.watchEnterRun_points : (s.watchEnterRun).points = s.points := rfl
@[simp] theorem State.watchEnterRun_image : (s.watchEnterRun).image = s.image := rfl
@[simp] theorem State.watchEnterRun_fog : (s.watchEnterRun).fog = s.fog := rfl
@[simp] theorem State.watchEnterRun_heat : (s.watchEnterRun).heat = s.heat := rfl
@[simp] theorem State.watchEnterRun_zones : (s.watchEnterRun).zones = s.zones := rfl
@[simp] theorem State.watchEnterRun_store : (s.watchEnterRun).store = s.store := rfl
@[simp] theorem State.watchEnterRun_engines : (s.watchEnterRun).engines = s.engines := rfl
@[simp] theorem State.watchEnterRun_bracket : (s.watchEnterRun).bracket = s.bracket := rfl
@[simp] theorem State.watchEnterRun_trunk : (s.watchEnterRun).trunk = s.trunk := rfl
end watchEnterRun

section segEnterRun
variable (s : State)
@[simp] theorem State.segEnterRun_pending : (s.segEnterRun).pending = s.pending := rfl
@[simp] theorem State.segEnterRun_power : (s.segEnterRun).power = s.power := rfl
@[simp] theorem State.segEnterRun_loader : (s.segEnterRun).loader = s.loader := rfl
@[simp] theorem State.segEnterRun_tables : (s.segEnterRun).tables = s.tables := rfl
@[simp] theorem State.segEnterRun_memory : (s.segEnterRun).memory = s.memory := rfl
@[simp] theorem State.segEnterRun_points : (s.segEnterRun).points = s.points := rfl
@[simp] theorem State.segEnterRun_image : (s.segEnterRun).image = s.image := rfl
@[simp] theorem State.segEnterRun_watch : (s.segEnterRun).watch = s.watch := rfl
@[simp] theorem State.segEnterRun_fog : (s.segEnterRun).fog = s.fog := rfl
@[simp] theorem State.segEnterRun_heat : (s.segEnterRun).heat = s.heat := rfl
@[simp] theorem State.segEnterRun_zones : (s.segEnterRun).zones = s.zones := rfl
@[simp] theorem State.segEnterRun_store : (s.segEnterRun).store = s.store := rfl
@[simp] theorem State.segEnterRun_engines : (s.segEnterRun).engines = s.engines := rfl
@[simp] theorem State.segEnterRun_bracket : (s.segEnterRun).bracket = s.bracket := rfl
@[simp] theorem State.segEnterRun_trunk : (s.segEnterRun).trunk = s.trunk := rfl
end segEnterRun

section applyStart
variable (s : State)
@[simp] theorem State.applyStart_pending : (s.applyStart).pending = s.pending := rfl
@[simp] theorem State.applyStart_power : (s.applyStart).power = s.power := rfl
@[simp] theorem State.applyStart_loader : (s.applyStart).loader = s.loader := rfl
@[simp] theorem State.applyStart_tables : (s.applyStart).tables = s.tables := rfl
@[simp] theorem State.applyStart_memory : (s.applyStart).memory = s.memory := rfl
@[simp] theorem State.applyStart_points : (s.applyStart).points = s.points := rfl
@[simp] theorem State.applyStart_watch : (s.applyStart).watch = s.watch := rfl
@[simp] theorem State.applyStart_fog : (s.applyStart).fog = s.fog := rfl
@[simp] theorem State.applyStart_heat : (s.applyStart).heat = s.heat := rfl
@[simp] theorem State.applyStart_zones : (s.applyStart).zones = s.zones := rfl
@[simp] theorem State.applyStart_store : (s.applyStart).store = s.store := rfl
@[simp] theorem State.applyStart_engines : (s.applyStart).engines = s.engines := rfl
@[simp] theorem State.applyStart_bracket : (s.applyStart).bracket = s.bracket := rfl
@[simp] theorem State.applyStart_trunk : (s.applyStart).trunk = s.trunk := rfl
end applyStart

section segEnterConfig
variable (s : State)
@[simp] theorem State.segEnterConfig_pending : (s.segEnterConfig).pending = s.pending := rfl
@[simp] theorem State.segEnterConfig_power : (s.segEnterConfig).power = s.power := rfl
@[simp] theorem State.segEnterConfig_loader : (s.segEnterConfig).loader = s.loader := rfl
@[simp] theorem State.segEnterConfig_tables : (s.segEnterConfig).tables = s.tables := rfl
@[simp] theorem State.segEnterConfig_memory : (s.segEnterConfig).memory = s.memory := rfl
@[simp] theorem State.segEnterConfig_points : (s.segEnterConfig).points = s.points := rfl
@[simp] theorem State.segEnterConfig_image : (s.segEnterConfig).image = s.image := rfl
@[simp] theorem State.segEnterConfig_watch : (s.segEnterConfig).watch = s.watch := rfl
@[simp] theorem State.segEnterConfig_fog : (s.segEnterConfig).fog = s.fog := rfl
@[simp] theorem State.segEnterConfig_heat : (s.segEnterConfig).heat = s.heat := rfl
@[simp] theorem State.segEnterConfig_zones : (s.segEnterConfig).zones = s.zones := rfl
@[simp] theorem State.segEnterConfig_store : (s.segEnterConfig).store = s.store := rfl
@[simp] theorem State.segEnterConfig_engines : (s.segEnterConfig).engines = s.engines := rfl
@[simp] theorem State.segEnterConfig_bracket : (s.segEnterConfig).bracket = s.bracket := rfl
@[simp] theorem State.segEnterConfig_trunk : (s.segEnterConfig).trunk = s.trunk := rfl
end segEnterConfig

section heatEnterRun
variable (s : State)
@[simp] theorem State.heatEnterRun_pending : (s.heatEnterRun).pending = s.pending := rfl
@[simp] theorem State.heatEnterRun_power : (s.heatEnterRun).power = s.power := rfl
@[simp] theorem State.heatEnterRun_loader : (s.heatEnterRun).loader = s.loader := rfl
@[simp] theorem State.heatEnterRun_tables : (s.heatEnterRun).tables = s.tables := rfl
@[simp] theorem State.heatEnterRun_memory : (s.heatEnterRun).memory = s.memory := rfl
@[simp] theorem State.heatEnterRun_seg : (s.heatEnterRun).seg = s.seg := rfl
@[simp] theorem State.heatEnterRun_points : (s.heatEnterRun).points = s.points := rfl
@[simp] theorem State.heatEnterRun_image : (s.heatEnterRun).image = s.image := rfl
@[simp] theorem State.heatEnterRun_watch : (s.heatEnterRun).watch = s.watch := rfl
@[simp] theorem State.heatEnterRun_fog : (s.heatEnterRun).fog = s.fog := rfl
@[simp] theorem State.heatEnterRun_zones : (s.heatEnterRun).zones = s.zones := rfl
@[simp] theorem State.heatEnterRun_store : (s.heatEnterRun).store = s.store := rfl
@[simp] theorem State.heatEnterRun_engines : (s.heatEnterRun).engines = s.engines := rfl
@[simp] theorem State.heatEnterRun_bracket : (s.heatEnterRun).bracket = s.bracket := rfl
@[simp] theorem State.heatEnterRun_trunk : (s.heatEnterRun).trunk = s.trunk := rfl
end heatEnterRun

section heatEnterConfig
variable (s : State)
@[simp] theorem State.heatEnterConfig_pending : (s.heatEnterConfig).pending = s.pending := rfl
@[simp] theorem State.heatEnterConfig_power : (s.heatEnterConfig).power = s.power := rfl
@[simp] theorem State.heatEnterConfig_loader : (s.heatEnterConfig).loader = s.loader := rfl
@[simp] theorem State.heatEnterConfig_tables : (s.heatEnterConfig).tables = s.tables := rfl
@[simp] theorem State.heatEnterConfig_memory : (s.heatEnterConfig).memory = s.memory := rfl
@[simp] theorem State.heatEnterConfig_seg : (s.heatEnterConfig).seg = s.seg := rfl
@[simp] theorem State.heatEnterConfig_points : (s.heatEnterConfig).points = s.points := rfl
@[simp] theorem State.heatEnterConfig_image : (s.heatEnterConfig).image = s.image := rfl
@[simp] theorem State.heatEnterConfig_watch : (s.heatEnterConfig).watch = s.watch := rfl
@[simp] theorem State.heatEnterConfig_fog : (s.heatEnterConfig).fog = s.fog := rfl
@[simp] theorem State.heatEnterConfig_zones : (s.heatEnterConfig).zones = s.zones := rfl
@[simp] theorem State.heatEnterConfig_store : (s.heatEnterConfig).store = s.store := rfl
@[simp] theorem State.heatEnterConfig_engines : (s.heatEnterConfig).engines = s.engines := rfl
@[simp] theorem State.heatEnterConfig_bracket : (s.heatEnterConfig).bracket = s.bracket := rfl
@[simp] theorem State.heatEnterConfig_trunk : (s.heatEnterConfig).trunk = s.trunk := rfl
end heatEnterConfig

section zonesEnterConfig
variable (s : State)
@[simp] theorem State.zonesEnterConfig_pending : (s.zonesEnterConfig).pending = s.pending := rfl
@[simp] theorem State.zonesEnterConfig_power : (s.zonesEnterConfig).power = s.power := rfl
@[simp] theorem State.zonesEnterConfig_loader : (s.zonesEnterConfig).loader = s.loader := rfl
@[simp] theorem State.zonesEnterConfig_tables : (s.zonesEnterConfig).tables = s.tables := rfl
@[simp] theorem State.zonesEnterConfig_memory : (s.zonesEnterConfig).memory = s.memory := rfl
@[simp] theorem State.zonesEnterConfig_seg : (s.zonesEnterConfig).seg = s.seg := rfl
@[simp] theorem State.zonesEnterConfig_points : (s.zonesEnterConfig).points = s.points := rfl
@[simp] theorem State.zonesEnterConfig_image : (s.zonesEnterConfig).image = s.image := rfl
@[simp] theorem State.zonesEnterConfig_watch : (s.zonesEnterConfig).watch = s.watch := rfl
@[simp] theorem State.zonesEnterConfig_fog : (s.zonesEnterConfig).fog = s.fog := rfl
@[simp] theorem State.zonesEnterConfig_heat : (s.zonesEnterConfig).heat = s.heat := rfl
@[simp] theorem State.zonesEnterConfig_store : (s.zonesEnterConfig).store = s.store := rfl
@[simp] theorem State.zonesEnterConfig_engines : (s.zonesEnterConfig).engines = s.engines := rfl
@[simp] theorem State.zonesEnterConfig_bracket : (s.zonesEnterConfig).bracket = s.bracket := rfl
@[simp] theorem State.zonesEnterConfig_trunk : (s.zonesEnterConfig).trunk = s.trunk := rfl
end zonesEnterConfig

section dropRequest
variable (s : State)
@[simp] theorem State.dropRequest_pending : (s.dropRequest).pending = s.pending := rfl
@[simp] theorem State.dropRequest_power : (s.dropRequest).power = s.power := rfl
@[simp] theorem State.dropRequest_loader : (s.dropRequest).loader = s.loader := rfl
@[simp] theorem State.dropRequest_tables : (s.dropRequest).tables = s.tables := rfl
@[simp] theorem State.dropRequest_memory : (s.dropRequest).memory = s.memory := rfl
@[simp] theorem State.dropRequest_seg : (s.dropRequest).seg = s.seg := rfl
@[simp] theorem State.dropRequest_points : (s.dropRequest).points = s.points := rfl
@[simp] theorem State.dropRequest_image : (s.dropRequest).image = s.image := rfl
@[simp] theorem State.dropRequest_watch : (s.dropRequest).watch = s.watch := rfl
@[simp] theorem State.dropRequest_fog : (s.dropRequest).fog = s.fog := rfl
@[simp] theorem State.dropRequest_heat : (s.dropRequest).heat = s.heat := rfl
@[simp] theorem State.dropRequest_zones : (s.dropRequest).zones = s.zones := rfl
@[simp] theorem State.dropRequest_store : (s.dropRequest).store = s.store := rfl
@[simp] theorem State.dropRequest_engines : (s.dropRequest).engines = s.engines := rfl
@[simp] theorem State.dropRequest_bracket : (s.dropRequest).bracket = s.bracket := rfl
end dropRequest

section discardFieldFrame
variable (s : State)
@[simp] theorem State.discardFieldFrame_pending : (s.discardFieldFrame).pending = s.pending := rfl
@[simp] theorem State.discardFieldFrame_power : (s.discardFieldFrame).power = s.power := rfl
@[simp] theorem State.discardFieldFrame_loader : (s.discardFieldFrame).loader = s.loader := rfl
@[simp] theorem State.discardFieldFrame_tables : (s.discardFieldFrame).tables = s.tables := rfl
@[simp] theorem State.discardFieldFrame_memory : (s.discardFieldFrame).memory = s.memory := rfl
@[simp] theorem State.discardFieldFrame_points : (s.discardFieldFrame).points = s.points := rfl
@[simp] theorem State.discardFieldFrame_image : (s.discardFieldFrame).image = s.image := rfl
@[simp] theorem State.discardFieldFrame_watch : (s.discardFieldFrame).watch = s.watch := rfl
@[simp] theorem State.discardFieldFrame_fog : (s.discardFieldFrame).fog = s.fog := rfl
@[simp] theorem State.discardFieldFrame_heat : (s.discardFieldFrame).heat = s.heat := rfl
@[simp] theorem State.discardFieldFrame_zones : (s.discardFieldFrame).zones = s.zones := rfl
@[simp] theorem State.discardFieldFrame_store : (s.discardFieldFrame).store = s.store := rfl
@[simp] theorem State.discardFieldFrame_engines : (s.discardFieldFrame).engines = s.engines := rfl
@[simp] theorem State.discardFieldFrame_bracket : (s.discardFieldFrame).bracket = s.bracket := rfl
end discardFieldFrame

section markSent
variable (s : State) (p : Nat)
@[simp] theorem State.markSent_pending : (s.markSent p).pending = s.pending := rfl
@[simp] theorem State.markSent_power : (s.markSent p).power = s.power := rfl
@[simp] theorem State.markSent_loader : (s.markSent p).loader = s.loader := rfl
@[simp] theorem State.markSent_tables : (s.markSent p).tables = s.tables := rfl
@[simp] theorem State.markSent_memory : (s.markSent p).memory = s.memory := rfl
@[simp] theorem State.markSent_seg : (s.markSent p).seg = s.seg := rfl
@[simp] theorem State.markSent_image : (s.markSent p).image = s.image := rfl
@[simp] theorem State.markSent_watch : (s.markSent p).watch = s.watch := rfl
@[simp] theorem State.markSent_fog : (s.markSent p).fog = s.fog := rfl
@[simp] theorem State.markSent_heat : (s.markSent p).heat = s.heat := rfl
@[simp] theorem State.markSent_zones : (s.markSent p).zones = s.zones := rfl
@[simp] theorem State.markSent_store : (s.markSent p).store = s.store := rfl
@[simp] theorem State.markSent_engines : (s.markSent p).engines = s.engines := rfl
@[simp] theorem State.markSent_bracket : (s.markSent p).bracket = s.bracket := rfl
@[simp] theorem State.markSent_trunk : (s.markSent p).trunk = s.trunk := rfl
end markSent

section startActivation
variable (s : State) (b r : Nat)
@[simp] theorem State.startActivation_pending : (s.startActivation b r).pending = s.pending := rfl
@[simp] theorem State.startActivation_power : (s.startActivation b r).power = s.power := rfl
@[simp] theorem State.startActivation_loader : (s.startActivation b r).loader = s.loader := rfl
@[simp] theorem State.startActivation_tables : (s.startActivation b r).tables = s.tables := rfl
@[simp] theorem State.startActivation_memory : (s.startActivation b r).memory = s.memory := rfl
@[simp] theorem State.startActivation_seg : (s.startActivation b r).seg = s.seg := rfl
@[simp] theorem State.startActivation_points : (s.startActivation b r).points = s.points := rfl
@[simp] theorem State.startActivation_image : (s.startActivation b r).image = s.image := rfl
@[simp] theorem State.startActivation_watch : (s.startActivation b r).watch = s.watch := rfl
@[simp] theorem State.startActivation_fog : (s.startActivation b r).fog = s.fog := rfl
@[simp] theorem State.startActivation_heat : (s.startActivation b r).heat = s.heat := rfl
@[simp] theorem State.startActivation_zones : (s.startActivation b r).zones = s.zones := rfl
@[simp] theorem State.startActivation_engines : (s.startActivation b r).engines = s.engines := rfl
@[simp] theorem State.startActivation_bracket : (s.startActivation b r).bracket = s.bracket := rfl
@[simp] theorem State.startActivation_trunk : (s.startActivation b r).trunk = s.trunk := rfl
end startActivation

section pend
variable (s : State) (b r : Nat) (f : Option Nat) (rel : Bool)
@[simp] theorem State.pend_pending : (s.pend b r f rel).pending = s.pending := rfl
@[simp] theorem State.pend_power : (s.pend b r f rel).power = s.power := rfl
@[simp] theorem State.pend_loader : (s.pend b r f rel).loader = s.loader := rfl
@[simp] theorem State.pend_tables : (s.pend b r f rel).tables = s.tables := rfl
@[simp] theorem State.pend_memory : (s.pend b r f rel).memory = s.memory := rfl
@[simp] theorem State.pend_seg : (s.pend b r f rel).seg = s.seg := rfl
@[simp] theorem State.pend_points : (s.pend b r f rel).points = s.points := rfl
@[simp] theorem State.pend_image : (s.pend b r f rel).image = s.image := rfl
@[simp] theorem State.pend_watch : (s.pend b r f rel).watch = s.watch := rfl
@[simp] theorem State.pend_fog : (s.pend b r f rel).fog = s.fog := rfl
@[simp] theorem State.pend_heat : (s.pend b r f rel).heat = s.heat := rfl
@[simp] theorem State.pend_zones : (s.pend b r f rel).zones = s.zones := rfl
@[simp] theorem State.pend_store : (s.pend b r f rel).store = s.store := rfl
@[simp] theorem State.pend_bracket : (s.pend b r f rel).bracket = s.bracket := rfl
@[simp] theorem State.pend_trunk : (s.pend b r f rel).trunk = s.trunk := rfl
end pend

/-! ### The field each update changes -/

section changed
variable (s : State)

@[simp] theorem State.raise_trunk (f : EventFlag) :
    (s.raise f).trunk = s.trunk.raise f s.tables.enables s.bracket.record := rfl
@[simp] theorem State.place_trunk (tag code : Byte) (r : ResultCode) (d : List Byte) :
    (s.place tag code r d).trunk = s.trunk.place ⟨tag, code, r, d⟩ := rfl
@[simp] theorem State.goodFrame_trunk :
    s.goodFrame.trunk = s.trunk.countGoodFrame.restartSilence s.tables.timers.silenceLimit := rfl
@[simp] theorem State.countOrdinal_bracket :
    s.countOrdinal.bracket = { s.bracket with ordinal := satSucc s.bracket.ordinal } := rfl
@[simp] theorem State.bracketIdle_bracket :
    s.bracketIdle.bracket = { s.bracket with state := .idle, stage := [], timer := none } := rfl
@[simp] theorem State.bracketEnterRun_bracket :
    s.bracketEnterRun.bracket = { s.bracket with state := .idle, stage := [], timer := none, ordinal := 0 } := rfl
@[simp] theorem State.offerUrgent_seg (a : Nat) (r : JoinReason) :
    (s.offerUrgent a r).seg = { s.seg with urgent := offerNode s.seg.urgent a r } := rfl
@[simp] theorem State.setPhase_seg (p : SlotPhase) : (s.setPhase p).seg = { s.seg with phase := p } := rfl
@[simp] theorem State.setReplyTimer_seg (t : Option Nat) :
    (s.setReplyTimer t).seg = { s.seg with replyTimer := t } := rfl
@[simp] theorem State.advanceSlot_seg :
    s.advanceSlot.seg = { s.seg with slotPos := nextPos s.tables.scheduleHead.slotCount s.seg.slotPos } := rfl
@[simp] theorem Outgoing.start_none (o : Outgoing) : o.start none = o.phase := rfl
@[simp] theorem Outgoing.start_some (o : Outgoing) (b : Bool) : o.start (some b) = .held b o := rfl
@[simp] theorem State.transmit_seg (h : Option Bool) (o : Outgoing) :
    (s.transmit h o).seg = { s.seg with phase := o.start h } := rfl
@[simp] theorem State.composeSet_seg (h : Option Bool) (n : Nat) :
    (s.composeSet h n).seg =
      { s.seg with urgent := removeNode s.seg.urgent n, phase := Outgoing.start (.set n (s.setPairs n)) h } := rfl
@[simp] theorem State.segEnterConfig_seg :
    s.segEnterConfig.seg = { s.seg with phase := .silent, replyTimer := none, urgent := [], log := [] } := rfl
@[simp] theorem State.note_seg (before : List (Nat × ChannelRun)) (offers : List Nat) :
    (s.note before offers).seg =
      { s.seg with log := s.seg.log ++ [⟨before, s.seg.urgent.length, offers, .first⟩] } := rfl
@[simp] theorem State.settle_seg : s.settle.seg = { s.seg with log := [] } := rfl
@[simp] theorem State.countDraw_seg : s.countDraw.seg = { s.seg with draws := s.seg.draws + 1 } := rfl
@[simp] theorem State.asSeries_seg (t : State) : (s.asSeries t).seg = { t.seg with
    log := s.seg.log ++ relink (fun _ => .sameSeries) (t.seg.log.drop s.seg.log.length) } := rfl
@[simp] theorem State.asCommit_seg (t : State) : (s.asCommit t).seg = { t.seg with
    log := s.seg.log ++ relink (fun _ => .sameStep) (t.seg.log.drop s.seg.log.length) } := rfl
@[simp] theorem State.asStep_seg (t : State) : (s.asStep t).seg = { t.seg with
    log := s.seg.log ++
      relink (fun l => if l = .first then .sameStep else l) (t.seg.log.drop s.seg.log.length) } := rfl
@[simp] theorem State.takeLater_image (image : Tab ChannelRun 512) (later : List ImageEvent) :
    (s.takeLater image later).image = image := rfl
@[simp] theorem State.setPoint_points (p : Nat) (r : PointRun) :
    (s.setPoint p r).points = { s.points with runs := s.points.runs.set p r } := rfl
@[simp] theorem State.reclamp_image (g : GuardLevel) :
    (s.reclamp g).image = (s.tables.channels.zip s.image).map (reclampChannel g) := rfl
@[simp] theorem State.applyStart_image : s.applyStart.image = s.tables.channels.map ChannelRec.startRun := rfl
@[simp] theorem State.setStation_fog (i : Nat) (r : StationRun) :
    (s.setStation i r).fog = { s.fog with stations := s.fog.stations.set i r } := rfl
@[simp] theorem State.setZoneRun_zones (z : Nat) (r : ZoneRun) :
    (s.setZoneRun z r).zones = { s.zones with runs := s.zones.runs.set z r } := rfl
@[simp] theorem State.zonesEnterConfig_zones : s.zonesEnterConfig.zones = { s.zones with deliveries := [] } := rfl
@[simp] theorem State.heatEnterConfig_heat :
    s.heatEnterConfig.heat = { s.heat with timer := none, arrivals := 0 } := rfl
@[simp] theorem State.watchEnterRun_watch : s.watchEnterRun.watch = ⟨s.tables.watchRests true, .normal⟩ := rfl
@[simp] theorem State.setBank_store (b : Nat) (k : Bank) :
    (s.setBank b k).store = { s.store with banks := s.store.banks.set b k } := rfl
@[simp] theorem State.setEngine_engines (b : Nat) (e : Engine) : (s.setEngine b e).engines = s.engines.set b e := rfl
@[simp] theorem State.pend_engines (b r : Nat) (f : Option Nat) (rel : Bool) :
    (s.pend b r f rel).engines =
      s.engines.set b { Engine.initial with state := .pending, row := some r, fade := f, releaseAfter := rel } := rfl
@[simp] theorem State.joinMemory_store (op : MemOp) :
    (s.joinMemory op).store = { s.store with queue := s.store.queue ++ [op] } := rfl
@[simp] theorem State.leaveMemory_store : s.leaveMemory.store = { s.store with queue := s.store.queue.tail } := rfl
@[simp] theorem State.restLighting_store :
    s.restLighting.store = { s.store with banks := s.store.banks.map Bank.rest, completions := [] } := rfl
@[simp] theorem State.restLighting_engines : s.restLighting.engines = .replicate 4 .initial := rfl
@[simp] theorem State.storeRun_tables (id : TableId) (first n : Nat) (content : List Byte) :
    (s.storeRun id first n content).tables = s.tables.storeRun id first n content := rfl
@[simp] theorem State.setPlace_memory (b r : Nat) (place : List Byte) :
    (s.setPlace b r place).memory = { s.memory with rows := s.memory.rows.set (placeIndex b r) place } := rfl
@[simp] theorem State.setImage_memory (m : List Host.Cell) :
    (s.setImage m).memory = { s.memory with image := m } := rfl
@[simp] theorem State.setImageStatus_loader (i : ImageStatus) :
    (s.setImageStatus i).loader = { s.loader with image := i } := rfl

/-! What the readings of the whole part see of a good frame: nothing. -/

@[simp] theorem State.goodFrame_live : s.goodFrame.live = s.live := rfl
@[simp] theorem State.goodFrame_inRun : s.goodFrame.inRun = s.inRun := rfl
@[simp] theorem State.goodFrame_replyRoomFull : s.goodFrame.replyRoomFull = s.replyRoomFull := rfl
@[simp] theorem State.goodFrame_longBarred : s.goodFrame.longBarred = s.longBarred := rfl
@[simp] theorem State.goodFrame_saving : s.goodFrame.saving = s.saving := rfl
@[simp] theorem State.goodFrame_memoryFull : s.goodFrame.memoryFull = s.memoryFull := rfl
@[simp] theorem State.goodFrame_bank (b : Nat) : s.goodFrame.bank b = s.bank b := rfl
@[simp] theorem State.goodFrame_engine (b : Nat) : s.goodFrame.engine b = s.engine b := rfl
@[simp] theorem State.goodFrame_rowActive (b r : Nat) : s.goodFrame.rowActive b r = s.rowActive b r := rfl
@[simp] theorem State.goodFrame_workingCopy : s.goodFrame.workingCopy = s.workingCopy := rfl

end changed

end Sys2Proof.Machine
end

