-- ==== Sys2Proof/Laws/Frames.lean ====
section
/-! SUPPORT. For each composed operation, the parts of the state it leaves as they were. -/

namespace Sys2Proof.Machine

open Sys2Proof

/-- A fold of steps that keep a reading keeps it. -/
theorem foldl_keep {α β γ : Type} (g : α → γ) {f : α → β → α} (h : ∀ a b, g (f a b) = g a) (l : List β) (a : α) :
    g (l.foldl f a) = g a := by
  induction l generalizing a with
  | nil => rfl
  | cons b l ih => simp [ih, h]

/-! ### Folds over the whole part, for simp -/

@[simp] theorem foldl_pending {β : Type} {f : State → β → State} (h : ∀ a b, (f a b).pending = a.pending) (l : List β) (a : State) :
    (l.foldl f a).pending = a.pending := foldl_keep State.pending h l a

@[simp] theorem foldl_power {β : Type} {f : State → β → State} (h : ∀ a b, (f a b).power = a.power) (l : List β) (a : State) :
    (l.foldl f a).power = a.power := foldl_keep State.power h l a

@[simp] theorem foldl_loader {β : Type} {f : State → β → State} (h : ∀ a b, (f a b).loader = a.loader) (l : List β) (a : State) :
    (l.foldl f a).loader = a.loader := foldl_keep State.loader h l a

@[simp] theorem foldl_tables {β : Type} {f : State → β → State} (h : ∀ a b, (f a b).tables = a.tables) (l : List β) (a : State) :
    (l.foldl f a).tables = a.tables := foldl_keep State.tables h l a

@[simp] theorem foldl_memory {β : Type} {f : State → β → State} (h : ∀ a b, (f a b).memory = a.memory) (l : List β) (a : State) :
    (l.foldl f a).memory = a.memory := foldl_keep State.memory h l a

@[simp] theorem foldl_seg {β : Type} {f : State → β → State} (h : ∀ a b, (f a b).seg = a.seg) (l : List β) (a : State) :
    (l.foldl f a).seg = a.seg := foldl_keep State.seg h l a

@[simp] theorem foldl_points {β : Type} {f : State → β → State} (h : ∀ a b, (f a b).points = a.points) (l : List β) (a : State) :
    (l.foldl f a).points = a.points := foldl_keep State.points h l a

@[simp] theorem foldl_image {β : Type} {f : State → β → State} (h : ∀ a b, (f a b).image = a.image) (l : List β) (a : State) :
    (l.foldl f a).image = a.image := foldl_keep State.image h l a

@[simp] theorem foldl_watch {β : Type} {f : State → β → State} (h : ∀ a b, (f a b).watch = a.watch) (l : List β) (a : State) :
    (l.foldl f a).watch = a.watch := foldl_keep State.watch h l a

@[simp] theorem foldl_fog {β : Type} {f : State → β → State} (h : ∀ a b, (f a b).fog = a.fog) (l : List β) (a : State) :
    (l.foldl f a).fog = a.fog := foldl_keep State.fog h l a

@[simp] theorem foldl_heat {β : Type} {f : State → β → State} (h : ∀ a b, (f a b).heat = a.heat) (l : List β) (a : State) :
    (l.foldl f a).heat = a.heat := foldl_keep State.heat h l a

@[simp] theorem foldl_zones {β : Type} {f : State → β → State} (h : ∀ a b, (f a b).zones = a.zones) (l : List β) (a : State) :
    (l.foldl f a).zones = a.zones := foldl_keep State.zones h l a

@[simp] theorem foldl_store {β : Type} {f : State → β → State} (h : ∀ a b, (f a b).store = a.store) (l : List β) (a : State) :
    (l.foldl f a).store = a.store := foldl_keep State.store h l a

@[simp] theorem foldl_engines {β : Type} {f : State → β → State} (h : ∀ a b, (f a b).engines = a.engines) (l : List β) (a : State) :
    (l.foldl f a).engines = a.engines := foldl_keep State.engines h l a

@[simp] theorem foldl_bracket {β : Type} {f : State → β → State} (h : ∀ a b, (f a b).bracket = a.bracket) (l : List β) (a : State) :
    (l.foldl f a).bracket = a.bracket := foldl_keep State.bracket h l a

@[simp] theorem foldl_trunk {β : Type} {f : State → β → State} (h : ∀ a b, (f a b).trunk = a.trunk) (l : List β) (a : State) :
    (l.foldl f a).trunk = a.trunk := foldl_keep State.trunk h l a

/-! ### The operations -/

@[simp] theorem State.offerUplink_frame (s : State) (e : List UplinkEntry) :
    (s.offerUplink e).1.pending = s.pending ∧ (s.offerUplink e).1.power = s.power ∧
    (s.offerUplink e).1.loader = s.loader ∧ (s.offerUplink e).1.tables = s.tables ∧
    (s.offerUplink e).1.memory = s.memory ∧ (s.offerUplink e).1.seg = s.seg ∧
    (s.offerUplink e).1.points = s.points ∧ (s.offerUplink e).1.image = s.image ∧
    (s.offerUplink e).1.watch = s.watch ∧ (s.offerUplink e).1.fog = s.fog ∧
    (s.offerUplink e).1.heat = s.heat ∧ (s.offerUplink e).1.zones = s.zones ∧
    (s.offerUplink e).1.store = s.store ∧ (s.offerUplink e).1.engines = s.engines ∧
    (s.offerUplink e).1.bracket = s.bracket := by
  simp [State.offerUplink]

theorem slotStart_frame (n : Nat) (h : Option Bool) (s : State) :
    (startSlot n h s).pending = s.pending ∧ (startSlot n h s).power = s.power ∧
    (startSlot n h s).loader = s.loader ∧ (startSlot n h s).tables = s.tables ∧
    (startSlot n h s).memory = s.memory ∧ (startSlot n h s).points = s.points ∧
    (startSlot n h s).image = s.image ∧ (startSlot n h s).watch = s.watch ∧ (startSlot n h s).fog = s.fog ∧
    (startSlot n h s).heat = s.heat ∧ (startSlot n h s).zones = s.zones ∧ (startSlot n h s).store = s.store ∧
    (startSlot n h s).engines = s.engines ∧ (startSlot n h s).bracket = s.bracket ∧
    (startSlot n h s).trunk = s.trunk := by
  induction n generalizing s with
  | zero => simp [startSlot]
  | succ n ih => unfold startSlot; dsimp only; (repeat' split) <;> simp [ih]

@[simp] theorem State.raiseIf_frame (s : State) (c : Bool) (f : EventFlag) :
    (s.raiseIf c f).pending = s.pending ∧ (s.raiseIf c f).power = s.power ∧
    (s.raiseIf c f).loader = s.loader ∧ (s.raiseIf c f).tables = s.tables ∧
    (s.raiseIf c f).memory = s.memory ∧ (s.raiseIf c f).seg = s.seg ∧ (s.raiseIf c f).points = s.points ∧
    (s.raiseIf c f).image = s.image ∧ (s.raiseIf c f).watch = s.watch ∧ (s.raiseIf c f).fog = s.fog ∧
    (s.raiseIf c f).heat = s.heat ∧ (s.raiseIf c f).zones = s.zones ∧ (s.raiseIf c f).store = s.store ∧
    (s.raiseIf c f).engines = s.engines ∧ (s.raiseIf c f).bracket = s.bracket := by
  unfold State.raiseIf; try dsimp only
  (repeat' split) <;> simp

@[simp] theorem State.writeDemand_frame (s : State) (ch level : Nat) :
    (s.writeDemand ch level).pending = s.pending ∧ (s.writeDemand ch level).power = s.power ∧
    (s.writeDemand ch level).loader = s.loader ∧ (s.writeDemand ch level).tables = s.tables ∧
    (s.writeDemand ch level).memory = s.memory ∧ (s.writeDemand ch level).points = s.points ∧
    (s.writeDemand ch level).watch = s.watch ∧ (s.writeDemand ch level).fog = s.fog ∧
    (s.writeDemand ch level).heat = s.heat ∧ (s.writeDemand ch level).zones = s.zones ∧
    (s.writeDemand ch level).store = s.store ∧ (s.writeDemand ch level).engines = s.engines ∧
    (s.writeDemand ch level).bracket = s.bracket ∧ (s.writeDemand ch level).trunk = s.trunk := by
  unfold State.writeDemand; try dsimp only
  (repeat' split) <;> simp

@[simp] theorem State.writeDemandTo_frame (s : State) (ch : Option Nat) (level : Nat) :
    (s.writeDemandTo ch level).pending = s.pending ∧ (s.writeDemandTo ch level).power = s.power ∧
    (s.writeDemandTo ch level).loader = s.loader ∧ (s.writeDemandTo ch level).tables = s.tables ∧
    (s.writeDemandTo ch level).memory = s.memory ∧ (s.writeDemandTo ch level).points = s.points ∧
    (s.writeDemandTo ch level).watch = s.watch ∧ (s.writeDemandTo ch level).fog = s.fog ∧
    (s.writeDemandTo ch level).heat = s.heat ∧ (s.writeDemandTo ch level).zones = s.zones ∧
    (s.writeDemandTo ch level).store = s.store ∧ (s.writeDemandTo ch level).engines = s.engines ∧
    (s.writeDemandTo ch level).bracket = s.bracket ∧ (s.writeDemandTo ch level).trunk = s.trunk := by
  unfold State.writeDemandTo; try dsimp only
  (repeat' split) <;> simp

@[simp] theorem State.writeSeries_frame (s : State) (w : List (Nat × Nat)) :
    (s.writeSeries w).pending = s.pending ∧ (s.writeSeries w).power = s.power ∧
    (s.writeSeries w).loader = s.loader ∧ (s.writeSeries w).tables = s.tables ∧
    (s.writeSeries w).memory = s.memory ∧ (s.writeSeries w).points = s.points ∧
    (s.writeSeries w).watch = s.watch ∧ (s.writeSeries w).fog = s.fog ∧ (s.writeSeries w).heat = s.heat ∧
    (s.writeSeries w).zones = s.zones ∧ (s.writeSeries w).store = s.store ∧
    (s.writeSeries w).engines = s.engines ∧ (s.writeSeries w).bracket = s.bracket ∧
    (s.writeSeries w).trunk = s.trunk := by
  unfold State.writeSeries; simp

@[simp] theorem State.abortBracket_frame (s : State) (c : AbortCode) (o : Option Nat) (r : Option ResultCode) :
    (s.abortBracket c o r).pending = s.pending ∧ (s.abortBracket c o r).power = s.power ∧
    (s.abortBracket c o r).loader = s.loader ∧ (s.abortBracket c o r).tables = s.tables ∧
    (s.abortBracket c o r).memory = s.memory ∧ (s.abortBracket c o r).seg = s.seg ∧
    (s.abortBracket c o r).points = s.points ∧ (s.abortBracket c o r).image = s.image ∧
    (s.abortBracket c o r).watch = s.watch ∧ (s.abortBracket c o r).fog = s.fog ∧
    (s.abortBracket c o r).heat = s.heat ∧ (s.abortBracket c o r).zones = s.zones ∧
    (s.abortBracket c o r).store = s.store ∧ (s.abortBracket c o r).engines = s.engines := by
  unfold State.abortBracket; try dsimp only
  (repeat' split) <;> simp

@[simp] theorem State.answer_frame (s : State) (tag code : Byte) (a : Option Answer) :
    (s.answer tag code a).pending = s.pending ∧ (s.answer tag code a).power = s.power ∧
    (s.answer tag code a).loader = s.loader ∧ (s.answer tag code a).tables = s.tables ∧
    (s.answer tag code a).memory = s.memory ∧ (s.answer tag code a).seg = s.seg ∧
    (s.answer tag code a).points = s.points ∧ (s.answer tag code a).image = s.image ∧
    (s.answer tag code a).watch = s.watch ∧ (s.answer tag code a).fog = s.fog ∧
    (s.answer tag code a).heat = s.heat ∧ (s.answer tag code a).zones = s.zones ∧
    (s.answer tag code a).store = s.store ∧ (s.answer tag code a).engines = s.engines ∧
    (s.answer tag code a).bracket = s.bracket := by
  unfold State.answer; try dsimp only
  (repeat' split) <;> simp

@[simp] theorem State.startSlot_frame (s : State) (h : Option Bool) :
    (s.startSlot h).pending = s.pending ∧ (s.startSlot h).power = s.power ∧
    (s.startSlot h).loader = s.loader ∧ (s.startSlot h).tables = s.tables ∧
    (s.startSlot h).memory = s.memory ∧ (s.startSlot h).points = s.points ∧ (s.startSlot h).image = s.image ∧
    (s.startSlot h).watch = s.watch ∧ (s.startSlot h).fog = s.fog ∧ (s.startSlot h).heat = s.heat ∧
    (s.startSlot h).zones = s.zones ∧ (s.startSlot h).store = s.store ∧ (s.startSlot h).engines = s.engines ∧
    (s.startSlot h).bracket = s.bracket ∧ (s.startSlot h).trunk = s.trunk := by
  simp [State.startSlot, slotStart_frame]

@[simp] theorem State.endSlot_frame (s : State) (r : Bool) :
    (s.endSlot r).pending = s.pending ∧ (s.endSlot r).power = s.power ∧ (s.endSlot r).loader = s.loader ∧
    (s.endSlot r).tables = s.tables ∧ (s.endSlot r).memory = s.memory ∧ (s.endSlot r).points = s.points ∧
    (s.endSlot r).image = s.image ∧ (s.endSlot r).watch = s.watch ∧ (s.endSlot r).fog = s.fog ∧
    (s.endSlot r).heat = s.heat ∧ (s.endSlot r).zones = s.zones ∧ (s.endSlot r).store = s.store ∧
    (s.endSlot r).engines = s.engines ∧ (s.endSlot r).bracket = s.bracket ∧ (s.endSlot r).trunk = s.trunk := by
  simp [State.endSlot]

@[simp] theorem State.endSlotBefore_frame (s : State) (r : Bool) (late : Nat) :
    (s.endSlotBefore r late).pending = s.pending ∧ (s.endSlotBefore r late).power = s.power ∧
    (s.endSlotBefore r late).loader = s.loader ∧ (s.endSlotBefore r late).tables = s.tables ∧
    (s.endSlotBefore r late).memory = s.memory ∧ (s.endSlotBefore r late).points = s.points ∧
    (s.endSlotBefore r late).image = s.image ∧ (s.endSlotBefore r late).watch = s.watch ∧
    (s.endSlotBefore r late).fog = s.fog ∧ (s.endSlotBefore r late).heat = s.heat ∧
    (s.endSlotBefore r late).zones = s.zones ∧ (s.endSlotBefore r late).store = s.store ∧
    (s.endSlotBefore r late).engines = s.engines ∧ (s.endSlotBefore r late).bracket = s.bracket ∧
    (s.endSlotBefore r late).trunk = s.trunk := by
  unfold State.endSlotBefore; try dsimp only
  split <;> simp

@[simp] theorem State.endSlotAmid_frame (s : State) (r : Bool) :
    (s.endSlotAmid r).pending = s.pending ∧ (s.endSlotAmid r).power = s.power ∧
    (s.endSlotAmid r).loader = s.loader ∧ (s.endSlotAmid r).tables = s.tables ∧
    (s.endSlotAmid r).memory = s.memory ∧ (s.endSlotAmid r).points = s.points ∧
    (s.endSlotAmid r).image = s.image ∧ (s.endSlotAmid r).watch = s.watch ∧ (s.endSlotAmid r).fog = s.fog ∧
    (s.endSlotAmid r).heat = s.heat ∧ (s.endSlotAmid r).zones = s.zones ∧ (s.endSlotAmid r).store = s.store ∧
    (s.endSlotAmid r).engines = s.engines ∧ (s.endSlotAmid r).bracket = s.bracket ∧
    (s.endSlotAmid r).trunk = s.trunk := by
  unfold State.endSlotAmid; split <;> simp

@[simp] theorem State.releaseHold_frame (s : State) (b : Bool) :
    (s.releaseHold b).pending = s.pending ∧ (s.releaseHold b).power = s.power ∧
    (s.releaseHold b).loader = s.loader ∧ (s.releaseHold b).tables = s.tables ∧
    (s.releaseHold b).memory = s.memory ∧ (s.releaseHold b).points = s.points ∧
    (s.releaseHold b).image = s.image ∧ (s.releaseHold b).watch = s.watch ∧ (s.releaseHold b).fog = s.fog ∧
    (s.releaseHold b).heat = s.heat ∧ (s.releaseHold b).zones = s.zones ∧ (s.releaseHold b).store = s.store ∧
    (s.releaseHold b).engines = s.engines ∧ (s.releaseHold b).bracket = s.bracket ∧
    (s.releaseHold b).trunk = s.trunk := by
  unfold State.releaseHold; try dsimp only
  (repeat' split) <;> simp

@[simp] theorem State.setGuard_frame (s : State) (g : GuardLevel) :
    (s.setGuard g).pending = s.pending ∧ (s.setGuard g).power = s.power ∧ (s.setGuard g).loader = s.loader ∧
    (s.setGuard g).tables = s.tables ∧ (s.setGuard g).memory = s.memory ∧ (s.setGuard g).points = s.points ∧
    (s.setGuard g).fog = s.fog ∧ (s.setGuard g).heat = s.heat ∧ (s.setGuard g).zones = s.zones ∧
    (s.setGuard g).store = s.store ∧ (s.setGuard g).engines = s.engines := by
  unfold State.setGuard; try dsimp only
  (repeat' split) <;> simp

@[simp] theorem State.watchEvent_frame (s : State) (act : Nat → WatchRec → WatchRun → EntryOutcome) :
    (s.watchEvent act).pending = s.pending ∧ (s.watchEvent act).power = s.power ∧
    (s.watchEvent act).loader = s.loader ∧ (s.watchEvent act).tables = s.tables ∧
    (s.watchEvent act).memory = s.memory ∧ (s.watchEvent act).points = s.points ∧
    (s.watchEvent act).fog = s.fog ∧ (s.watchEvent act).heat = s.heat ∧ (s.watchEvent act).zones = s.zones ∧
    (s.watchEvent act).store = s.store ∧ (s.watchEvent act).engines = s.engines := by
  simp [State.watchEvent]

@[simp] theorem State.watchValue_frame (s : State) (p : Nat) (v : Int) :
    (s.watchValue p v).pending = s.pending ∧ (s.watchValue p v).power = s.power ∧
    (s.watchValue p v).loader = s.loader ∧ (s.watchValue p v).tables = s.tables ∧
    (s.watchValue p v).memory = s.memory ∧ (s.watchValue p v).points = s.points ∧
    (s.watchValue p v).fog = s.fog ∧ (s.watchValue p v).heat = s.heat ∧ (s.watchValue p v).zones = s.zones ∧
    (s.watchValue p v).store = s.store ∧ (s.watchValue p v).engines = s.engines := by
  simp [State.watchValue]

@[simp] theorem State.watchLoss_frame (s : State) (p : Nat) :
    (s.watchLoss p).pending = s.pending ∧ (s.watchLoss p).power = s.power ∧
    (s.watchLoss p).loader = s.loader ∧ (s.watchLoss p).tables = s.tables ∧
    (s.watchLoss p).memory = s.memory ∧ (s.watchLoss p).points = s.points ∧ (s.watchLoss p).fog = s.fog ∧
    (s.watchLoss p).heat = s.heat ∧ (s.watchLoss p).zones = s.zones ∧ (s.watchLoss p).store = s.store ∧
    (s.watchLoss p).engines = s.engines := by
  simp [State.watchLoss]

@[simp] theorem State.watchThresholds_frame (s : State) (b : Tab Int 32) :
    (s.watchThresholds b).pending = s.pending ∧ (s.watchThresholds b).power = s.power ∧
    (s.watchThresholds b).loader = s.loader ∧ (s.watchThresholds b).tables = s.tables ∧
    (s.watchThresholds b).memory = s.memory ∧ (s.watchThresholds b).points = s.points ∧
    (s.watchThresholds b).fog = s.fog ∧ (s.watchThresholds b).heat = s.heat ∧
    (s.watchThresholds b).zones = s.zones ∧ (s.watchThresholds b).store = s.store ∧
    (s.watchThresholds b).engines = s.engines := by
  simp [State.watchThresholds]

@[simp] theorem State.watchRelease_frame (s : State) (m : BitVec 32) :
    (s.watchRelease m).pending = s.pending ∧ (s.watchRelease m).power = s.power ∧
    (s.watchRelease m).loader = s.loader ∧ (s.watchRelease m).tables = s.tables ∧
    (s.watchRelease m).memory = s.memory ∧ (s.watchRelease m).points = s.points ∧
    (s.watchRelease m).fog = s.fog ∧ (s.watchRelease m).heat = s.heat ∧ (s.watchRelease m).zones = s.zones ∧
    (s.watchRelease m).store = s.store ∧ (s.watchRelease m).engines = s.engines := by
  simp [State.watchRelease]

@[simp] theorem State.watchEnterConfig_frame (s : State) :
    (s.watchEnterConfig).pending = s.pending ∧ (s.watchEnterConfig).power = s.power ∧
    (s.watchEnterConfig).loader = s.loader ∧ (s.watchEnterConfig).tables = s.tables ∧
    (s.watchEnterConfig).memory = s.memory ∧ (s.watchEnterConfig).seg = s.seg ∧
    (s.watchEnterConfig).points = s.points ∧ (s.watchEnterConfig).image = s.image ∧
    (s.watchEnterConfig).fog = s.fog ∧ (s.watchEnterConfig).heat = s.heat ∧
    (s.watchEnterConfig).zones = s.zones ∧ (s.watchEnterConfig).store = s.store ∧
    (s.watchEnterConfig).engines = s.engines ∧ (s.watchEnterConfig).bracket = s.bracket := by
  simp [State.watchEnterConfig]

@[simp] theorem State.putStep_frame (s : State) (i k : Nat) :
    (s.putStep i k).pending = s.pending ∧ (s.putStep i k).power = s.power ∧
    (s.putStep i k).loader = s.loader ∧ (s.putStep i k).tables = s.tables ∧
    (s.putStep i k).memory = s.memory ∧ (s.putStep i k).points = s.points ∧ (s.putStep i k).watch = s.watch ∧
    (s.putStep i k).heat = s.heat ∧ (s.putStep i k).zones = s.zones ∧ (s.putStep i k).store = s.store ∧
    (s.putStep i k).engines = s.engines ∧ (s.putStep i k).bracket = s.bracket ∧
    (s.putStep i k).trunk = s.trunk := by
  simp [State.putStep]

@[simp] theorem State.putFogState_frame (s : State) (i : Nat) (n : FogState) :
    (s.putFogState i n).pending = s.pending ∧ (s.putFogState i n).power = s.power ∧
    (s.putFogState i n).loader = s.loader ∧ (s.putFogState i n).tables = s.tables ∧
    (s.putFogState i n).memory = s.memory ∧ (s.putFogState i n).points = s.points ∧
    (s.putFogState i n).watch = s.watch ∧ (s.putFogState i n).heat = s.heat ∧
    (s.putFogState i n).zones = s.zones ∧ (s.putFogState i n).store = s.store ∧
    (s.putFogState i n).engines = s.engines ∧ (s.putFogState i n).bracket = s.bracket := by
  unfold State.putFogState; try dsimp only
  (repeat' split) <;> simp

@[simp] theorem State.evaluateStation_frame (s : State) (i : Nat) :
    (s.evaluateStation i).pending = s.pending ∧ (s.evaluateStation i).power = s.power ∧
    (s.evaluateStation i).loader = s.loader ∧ (s.evaluateStation i).tables = s.tables ∧
    (s.evaluateStation i).memory = s.memory ∧ (s.evaluateStation i).points = s.points ∧
    (s.evaluateStation i).watch = s.watch ∧ (s.evaluateStation i).heat = s.heat ∧
    (s.evaluateStation i).zones = s.zones ∧ (s.evaluateStation i).store = s.store ∧
    (s.evaluateStation i).engines = s.engines ∧ (s.evaluateStation i).bracket = s.bracket := by
  unfold State.evaluateStation; try dsimp only
  (repeat' split) <;> simp

@[simp] theorem State.dehumidRun_frame (s : State) :
    (s.dehumidRun).pending = s.pending ∧ (s.dehumidRun).power = s.power ∧ (s.dehumidRun).loader = s.loader ∧
    (s.dehumidRun).tables = s.tables ∧ (s.dehumidRun).memory = s.memory ∧ (s.dehumidRun).points = s.points ∧
    (s.dehumidRun).watch = s.watch ∧ (s.dehumidRun).heat = s.heat ∧ (s.dehumidRun).zones = s.zones ∧
    (s.dehumidRun).store = s.store ∧ (s.dehumidRun).engines = s.engines ∧
    (s.dehumidRun).bracket = s.bracket ∧ (s.dehumidRun).trunk = s.trunk := by
  simp [State.dehumidRun]

@[simp] theorem State.dehumidRest_frame (s : State) :
    (s.dehumidRest).pending = s.pending ∧ (s.dehumidRest).power = s.power ∧
    (s.dehumidRest).loader = s.loader ∧ (s.dehumidRest).tables = s.tables ∧
    (s.dehumidRest).memory = s.memory ∧ (s.dehumidRest).points = s.points ∧ (s.dehumidRest).watch = s.watch ∧
    (s.dehumidRest).heat = s.heat ∧ (s.dehumidRest).zones = s.zones ∧ (s.dehumidRest).store = s.store ∧
    (s.dehumidRest).engines = s.engines ∧ (s.dehumidRest).bracket = s.bracket ∧
    (s.dehumidRest).trunk = s.trunk := by
  simp [State.dehumidRest]

@[simp] theorem State.dehumidDemand_frame (s : State) (b : Nat) :
    (s.dehumidDemand b).pending = s.pending ∧ (s.dehumidDemand b).power = s.power ∧
    (s.dehumidDemand b).loader = s.loader ∧ (s.dehumidDemand b).tables = s.tables ∧
    (s.dehumidDemand b).memory = s.memory ∧ (s.dehumidDemand b).points = s.points ∧
    (s.dehumidDemand b).watch = s.watch ∧ (s.dehumidDemand b).heat = s.heat ∧
    (s.dehumidDemand b).zones = s.zones ∧ (s.dehumidDemand b).store = s.store ∧
    (s.dehumidDemand b).engines = s.engines ∧ (s.dehumidDemand b).bracket = s.bracket ∧
    (s.dehumidDemand b).trunk = s.trunk := by
  unfold State.dehumidDemand; try dsimp only
  (repeat' split) <;> simp

@[simp] theorem State.publishFog_frame (s : State) :
    (s.publishFog).pending = s.pending ∧ (s.publishFog).power = s.power ∧ (s.publishFog).loader = s.loader ∧
    (s.publishFog).tables = s.tables ∧ (s.publishFog).memory = s.memory ∧ (s.publishFog).points = s.points ∧
    (s.publishFog).watch = s.watch ∧ (s.publishFog).heat = s.heat ∧ (s.publishFog).zones = s.zones ∧
    (s.publishFog).store = s.store ∧ (s.publishFog).engines = s.engines ∧
    (s.publishFog).bracket = s.bracket ∧ (s.publishFog).trunk = s.trunk := by
  unfold State.publishFog; try dsimp only
  (repeat' split) <;> simp

@[simp] theorem State.fogPoint_frame (s : State) (p : Nat) :
    (s.fogPoint p).pending = s.pending ∧ (s.fogPoint p).power = s.power ∧ (s.fogPoint p).loader = s.loader ∧
    (s.fogPoint p).tables = s.tables ∧ (s.fogPoint p).memory = s.memory ∧ (s.fogPoint p).points = s.points ∧
    (s.fogPoint p).watch = s.watch ∧ (s.fogPoint p).heat = s.heat ∧ (s.fogPoint p).zones = s.zones ∧
    (s.fogPoint p).store = s.store ∧ (s.fogPoint p).engines = s.engines ∧ (s.fogPoint p).bracket = s.bracket := by
  unfold State.fogPoint; try dsimp only
  (repeat' split) <;> simp

@[simp] theorem State.fogStep_frame (s : State) (i : Nat) :
    (s.fogStep i).pending = s.pending ∧ (s.fogStep i).power = s.power ∧ (s.fogStep i).loader = s.loader ∧
    (s.fogStep i).tables = s.tables ∧ (s.fogStep i).memory = s.memory ∧ (s.fogStep i).points = s.points ∧
    (s.fogStep i).watch = s.watch ∧ (s.fogStep i).heat = s.heat ∧ (s.fogStep i).zones = s.zones ∧
    (s.fogStep i).store = s.store ∧ (s.fogStep i).engines = s.engines ∧ (s.fogStep i).bracket = s.bracket ∧
    (s.fogStep i).trunk = s.trunk := by
  simp [State.fogStep]

@[simp] theorem State.runTimerEnds_frame (s : State) :
    (s.runTimerEnds).pending = s.pending ∧ (s.runTimerEnds).power = s.power ∧
    (s.runTimerEnds).loader = s.loader ∧ (s.runTimerEnds).tables = s.tables ∧
    (s.runTimerEnds).memory = s.memory ∧ (s.runTimerEnds).points = s.points ∧
    (s.runTimerEnds).watch = s.watch ∧ (s.runTimerEnds).heat = s.heat ∧ (s.runTimerEnds).zones = s.zones ∧
    (s.runTimerEnds).store = s.store ∧ (s.runTimerEnds).engines = s.engines ∧
    (s.runTimerEnds).bracket = s.bracket ∧ (s.runTimerEnds).trunk = s.trunk := by
  unfold State.runTimerEnds; try dsimp only
  (repeat' split) <;> simp

@[simp] theorem State.restTimerEnds_frame (s : State) :
    (s.restTimerEnds).pending = s.pending ∧ (s.restTimerEnds).power = s.power ∧
    (s.restTimerEnds).loader = s.loader ∧ (s.restTimerEnds).tables = s.tables ∧
    (s.restTimerEnds).memory = s.memory ∧ (s.restTimerEnds).points = s.points ∧
    (s.restTimerEnds).watch = s.watch ∧ (s.restTimerEnds).heat = s.heat ∧ (s.restTimerEnds).zones = s.zones ∧
    (s.restTimerEnds).store = s.store ∧ (s.restTimerEnds).engines = s.engines ∧
    (s.restTimerEnds).bracket = s.bracket ∧ (s.restTimerEnds).trunk = s.trunk := by
  unfold State.restTimerEnds; try dsimp only
  (repeat' split) <;> simp

@[simp] theorem State.retuneStation_frame (s : State) (i : Nat) (b : FogTuneRec) :
    (s.retuneStation i b).pending = s.pending ∧ (s.retuneStation i b).power = s.power ∧
    (s.retuneStation i b).loader = s.loader ∧ (s.retuneStation i b).tables = s.tables ∧
    (s.retuneStation i b).memory = s.memory ∧ (s.retuneStation i b).points = s.points ∧
    (s.retuneStation i b).watch = s.watch ∧ (s.retuneStation i b).heat = s.heat ∧
    (s.retuneStation i b).zones = s.zones ∧ (s.retuneStation i b).store = s.store ∧
    (s.retuneStation i b).engines = s.engines ∧ (s.retuneStation i b).bracket = s.bracket := by
  unfold State.retuneStation; try dsimp only
  (repeat' split) <;> simp

@[simp] theorem State.fogRetune_frame (s : State) (b : Tab FogTuneRec 8) (i n : Nat) :
    (s.fogRetune b i n).pending = s.pending ∧ (s.fogRetune b i n).power = s.power ∧
    (s.fogRetune b i n).loader = s.loader ∧ (s.fogRetune b i n).tables = s.tables ∧
    (s.fogRetune b i n).memory = s.memory ∧ (s.fogRetune b i n).points = s.points ∧
    (s.fogRetune b i n).watch = s.watch ∧ (s.fogRetune b i n).heat = s.heat ∧
    (s.fogRetune b i n).zones = s.zones ∧ (s.fogRetune b i n).store = s.store ∧
    (s.fogRetune b i n).engines = s.engines ∧ (s.fogRetune b i n).bracket = s.bracket := by
  simp [State.fogRetune]

@[simp] theorem State.fogEnterRun_frame (s : State) :
    (s.fogEnterRun).pending = s.pending ∧ (s.fogEnterRun).power = s.power ∧
    (s.fogEnterRun).loader = s.loader ∧ (s.fogEnterRun).tables = s.tables ∧
    (s.fogEnterRun).memory = s.memory ∧ (s.fogEnterRun).points = s.points ∧ (s.fogEnterRun).watch = s.watch ∧
    (s.fogEnterRun).heat = s.heat ∧ (s.fogEnterRun).zones = s.zones ∧ (s.fogEnterRun).store = s.store ∧
    (s.fogEnterRun).engines = s.engines ∧ (s.fogEnterRun).bracket = s.bracket ∧
    (s.fogEnterRun).trunk = s.trunk := by
  simp [State.fogEnterRun]

@[simp] theorem State.fogEnterConfig_frame (s : State) :
    (s.fogEnterConfig).pending = s.pending ∧ (s.fogEnterConfig).power = s.power ∧
    (s.fogEnterConfig).loader = s.loader ∧ (s.fogEnterConfig).tables = s.tables ∧
    (s.fogEnterConfig).memory = s.memory ∧ (s.fogEnterConfig).seg = s.seg ∧
    (s.fogEnterConfig).points = s.points ∧ (s.fogEnterConfig).image = s.image ∧
    (s.fogEnterConfig).watch = s.watch ∧ (s.fogEnterConfig).heat = s.heat ∧
    (s.fogEnterConfig).zones = s.zones ∧ (s.fogEnterConfig).store = s.store ∧
    (s.fogEnterConfig).engines = s.engines ∧ (s.fogEnterConfig).bracket = s.bracket := by
  simp [State.fogEnterConfig]

@[simp] theorem State.dispatchPass_frame (s : State) :
    (s.dispatchPass).pending = s.pending ∧ (s.dispatchPass).power = s.power ∧
    (s.dispatchPass).loader = s.loader ∧ (s.dispatchPass).tables = s.tables ∧
    (s.dispatchPass).memory = s.memory ∧ (s.dispatchPass).points = s.points ∧
    (s.dispatchPass).watch = s.watch ∧ (s.dispatchPass).fog = s.fog ∧ (s.dispatchPass).store = s.store ∧
    (s.dispatchPass).engines = s.engines ∧ (s.dispatchPass).bracket = s.bracket := by
  simp [State.dispatchPass]

@[simp] theorem State.heatArrival_frame (s : State) (p : Nat) :
    (s.heatArrival p).pending = s.pending ∧ (s.heatArrival p).power = s.power ∧
    (s.heatArrival p).loader = s.loader ∧ (s.heatArrival p).tables = s.tables ∧
    (s.heatArrival p).memory = s.memory ∧ (s.heatArrival p).points = s.points ∧
    (s.heatArrival p).watch = s.watch ∧ (s.heatArrival p).fog = s.fog ∧ (s.heatArrival p).store = s.store ∧
    (s.heatArrival p).engines = s.engines ∧ (s.heatArrival p).bracket = s.bracket := by
  unfold State.heatArrival; try dsimp only
  (repeat' split) <;> simp

@[simp] theorem State.recomputeZone_frame (s : State) (z : Nat) :
    (s.recomputeZone z).pending = s.pending ∧ (s.recomputeZone z).power = s.power ∧
    (s.recomputeZone z).loader = s.loader ∧ (s.recomputeZone z).tables = s.tables ∧
    (s.recomputeZone z).memory = s.memory ∧ (s.recomputeZone z).points = s.points ∧
    (s.recomputeZone z).watch = s.watch ∧ (s.recomputeZone z).fog = s.fog ∧
    (s.recomputeZone z).heat = s.heat ∧ (s.recomputeZone z).store = s.store ∧
    (s.recomputeZone z).engines = s.engines ∧ (s.recomputeZone z).bracket = s.bracket ∧
    (s.recomputeZone z).trunk = s.trunk := by
  simp [State.recomputeZone]

@[simp] theorem State.zonePoint_frame (s : State) (p : Nat) :
    (s.zonePoint p).pending = s.pending ∧ (s.zonePoint p).power = s.power ∧
    (s.zonePoint p).loader = s.loader ∧ (s.zonePoint p).tables = s.tables ∧
    (s.zonePoint p).memory = s.memory ∧ (s.zonePoint p).points = s.points ∧ (s.zonePoint p).watch = s.watch ∧
    (s.zonePoint p).fog = s.fog ∧ (s.zonePoint p).heat = s.heat ∧ (s.zonePoint p).store = s.store ∧
    (s.zonePoint p).engines = s.engines ∧ (s.zonePoint p).bracket = s.bracket ∧
    (s.zonePoint p).trunk = s.trunk := by
  unfold State.zonePoint; simp

@[simp] theorem State.zoneSplit_frame (s : State) (o : Tab Nat 16) (sh : List Nat) (z : Nat) :
    (s.zoneSplit o sh z).pending = s.pending ∧ (s.zoneSplit o sh z).power = s.power ∧
    (s.zoneSplit o sh z).loader = s.loader ∧ (s.zoneSplit o sh z).tables = s.tables ∧
    (s.zoneSplit o sh z).memory = s.memory ∧ (s.zoneSplit o sh z).points = s.points ∧
    (s.zoneSplit o sh z).watch = s.watch ∧ (s.zoneSplit o sh z).fog = s.fog ∧
    (s.zoneSplit o sh z).heat = s.heat ∧ (s.zoneSplit o sh z).store = s.store ∧
    (s.zoneSplit o sh z).engines = s.engines ∧ (s.zoneSplit o sh z).bracket = s.bracket ∧
    (s.zoneSplit o sh z).trunk = s.trunk := by
  simp [State.zoneSplit]

@[simp] theorem State.splitGrant_frame (s : State) (d : Delivery) :
    (s.splitGrant d).pending = s.pending ∧ (s.splitGrant d).power = s.power ∧
    (s.splitGrant d).loader = s.loader ∧ (s.splitGrant d).tables = s.tables ∧
    (s.splitGrant d).memory = s.memory ∧ (s.splitGrant d).points = s.points ∧
    (s.splitGrant d).watch = s.watch ∧ (s.splitGrant d).fog = s.fog ∧ (s.splitGrant d).heat = s.heat ∧
    (s.splitGrant d).store = s.store ∧ (s.splitGrant d).engines = s.engines ∧
    (s.splitGrant d).bracket = s.bracket ∧ (s.splitGrant d).trunk = s.trunk := by
  simp [State.splitGrant]

@[simp] theorem State.applyZone_frame (s : State) (z : Nat) (o : Option Bool) (a b : Option Int) :
    (s.applyZone z o a b).pending = s.pending ∧ (s.applyZone z o a b).power = s.power ∧
    (s.applyZone z o a b).loader = s.loader ∧ (s.applyZone z o a b).memory = s.memory ∧
    (s.applyZone z o a b).points = s.points ∧ (s.applyZone z o a b).watch = s.watch ∧
    (s.applyZone z o a b).fog = s.fog ∧ (s.applyZone z o a b).heat = s.heat ∧
    (s.applyZone z o a b).store = s.store ∧ (s.applyZone z o a b).engines = s.engines ∧
    (s.applyZone z o a b).bracket = s.bracket ∧ (s.applyZone z o a b).trunk = s.trunk := by
  unfold State.applyZone; try dsimp only
  (repeat' split) <;> simp

@[simp] theorem State.zoneReset_frame (s : State) (i n : Nat) :
    (s.zoneReset i n).pending = s.pending ∧ (s.zoneReset i n).power = s.power ∧
    (s.zoneReset i n).loader = s.loader ∧ (s.zoneReset i n).tables = s.tables ∧
    (s.zoneReset i n).memory = s.memory ∧ (s.zoneReset i n).points = s.points ∧
    (s.zoneReset i n).watch = s.watch ∧ (s.zoneReset i n).fog = s.fog ∧ (s.zoneReset i n).heat = s.heat ∧
    (s.zoneReset i n).store = s.store ∧ (s.zoneReset i n).engines = s.engines ∧
    (s.zoneReset i n).bracket = s.bracket ∧ (s.zoneReset i n).trunk = s.trunk := by
  unfold State.zoneReset; simp

@[simp] theorem State.zonesEnterRun_frame (s : State) :
    (s.zonesEnterRun).pending = s.pending ∧ (s.zonesEnterRun).power = s.power ∧
    (s.zonesEnterRun).loader = s.loader ∧ (s.zonesEnterRun).tables = s.tables ∧
    (s.zonesEnterRun).memory = s.memory ∧ (s.zonesEnterRun).points = s.points ∧
    (s.zonesEnterRun).watch = s.watch ∧ (s.zonesEnterRun).fog = s.fog ∧ (s.zonesEnterRun).heat = s.heat ∧
    (s.zonesEnterRun).store = s.store ∧ (s.zonesEnterRun).engines = s.engines ∧
    (s.zonesEnterRun).bracket = s.bracket ∧ (s.zonesEnterRun).trunk = s.trunk := by
  simp [State.zonesEnterRun]

@[simp] theorem State.valueUpdate_frame (s : State) (p : Nat) (v : Int) :
    (s.valueUpdate p v).pending = s.pending ∧ (s.valueUpdate p v).power = s.power ∧
    (s.valueUpdate p v).loader = s.loader ∧ (s.valueUpdate p v).tables = s.tables ∧
    (s.valueUpdate p v).memory = s.memory ∧ (s.valueUpdate p v).points = s.points ∧
    (s.valueUpdate p v).store = s.store ∧ (s.valueUpdate p v).engines = s.engines := by
  simp [State.valueUpdate]

@[simp] theorem State.lossOfUse_frame (s : State) (p : Nat) :
    (s.lossOfUse p).pending = s.pending ∧ (s.lossOfUse p).power = s.power ∧
    (s.lossOfUse p).loader = s.loader ∧ (s.lossOfUse p).tables = s.tables ∧
    (s.lossOfUse p).memory = s.memory ∧ (s.lossOfUse p).points = s.points ∧ (s.lossOfUse p).store = s.store ∧
    (s.lossOfUse p).engines = s.engines := by
  simp [State.lossOfUse]

@[simp] theorem State.okItem_frame (s : State) (p : Nat) (v : Int) :
    (s.okItem p v).pending = s.pending ∧ (s.okItem p v).power = s.power ∧ (s.okItem p v).loader = s.loader ∧
    (s.okItem p v).tables = s.tables ∧ (s.okItem p v).memory = s.memory ∧ (s.okItem p v).store = s.store ∧
    (s.okItem p v).engines = s.engines := by
  simp [State.okItem]

@[simp] theorem State.faultItem_frame (s : State) (p : Nat) :
    (s.faultItem p).pending = s.pending ∧ (s.faultItem p).power = s.power ∧
    (s.faultItem p).loader = s.loader ∧ (s.faultItem p).tables = s.tables ∧
    (s.faultItem p).memory = s.memory ∧ (s.faultItem p).store = s.store ∧ (s.faultItem p).engines = s.engines := by
  unfold State.faultItem; try dsimp only
  (repeat' split) <;> simp

@[simp] theorem State.applyItem_frame (s : State) (n : Nat) (i : Item) :
    (s.applyItem n i).pending = s.pending ∧ (s.applyItem n i).power = s.power ∧
    (s.applyItem n i).loader = s.loader ∧ (s.applyItem n i).tables = s.tables ∧
    (s.applyItem n i).memory = s.memory ∧ (s.applyItem n i).store = s.store ∧
    (s.applyItem n i).engines = s.engines := by
  unfold State.applyItem; try dsimp only
  (repeat' split) <;> simp

@[simp] theorem markSents_frame (s : State) (l : List Nat) :
    (l.foldl State.markSent s).pending = s.pending ∧ (l.foldl State.markSent s).power = s.power ∧
    (l.foldl State.markSent s).loader = s.loader ∧ (l.foldl State.markSent s).tables = s.tables ∧
    (l.foldl State.markSent s).memory = s.memory ∧ (l.foldl State.markSent s).seg = s.seg ∧
    (l.foldl State.markSent s).image = s.image ∧ (l.foldl State.markSent s).watch = s.watch ∧
    (l.foldl State.markSent s).fog = s.fog ∧ (l.foldl State.markSent s).heat = s.heat ∧
    (l.foldl State.markSent s).zones = s.zones ∧ (l.foldl State.markSent s).store = s.store ∧
    (l.foldl State.markSent s).engines = s.engines ∧ (l.foldl State.markSent s).bracket = s.bracket ∧
    (l.foldl State.markSent s).trunk = s.trunk :=
  ⟨foldl_keep State.pending (f := State.markSent) (fun _ _ => rfl) l s,
    foldl_keep State.power (f := State.markSent) (fun _ _ => rfl) l s,
    foldl_keep State.loader (f := State.markSent) (fun _ _ => rfl) l s,
    foldl_keep State.tables (f := State.markSent) (fun _ _ => rfl) l s,
    foldl_keep State.memory (f := State.markSent) (fun _ _ => rfl) l s,
    foldl_keep State.seg (f := State.markSent) (fun _ _ => rfl) l s,
    foldl_keep State.image (f := State.markSent) (fun _ _ => rfl) l s,
    foldl_keep State.watch (f := State.markSent) (fun _ _ => rfl) l s,
    foldl_keep State.fog (f := State.markSent) (fun _ _ => rfl) l s,
    foldl_keep State.heat (f := State.markSent) (fun _ _ => rfl) l s,
    foldl_keep State.zones (f := State.markSent) (fun _ _ => rfl) l s,
    foldl_keep State.store (f := State.markSent) (fun _ _ => rfl) l s,
    foldl_keep State.engines (f := State.markSent) (fun _ _ => rfl) l s,
    foldl_keep State.bracket (f := State.markSent) (fun _ _ => rfl) l s,
    foldl_keep State.trunk (f := State.markSent) (fun _ _ => rfl) l s⟩

@[simp] theorem State.sendUplink_frame (s : State) (l : List Nat) :
    (s.sendUplink l).pending = s.pending ∧ (s.sendUplink l).power = s.power ∧
    (s.sendUplink l).loader = s.loader ∧ (s.sendUplink l).tables = s.tables ∧
    (s.sendUplink l).memory = s.memory ∧ (s.sendUplink l).seg = s.seg ∧ (s.sendUplink l).image = s.image ∧
    (s.sendUplink l).watch = s.watch ∧ (s.sendUplink l).fog = s.fog ∧ (s.sendUplink l).heat = s.heat ∧
    (s.sendUplink l).zones = s.zones ∧ (s.sendUplink l).store = s.store ∧
    (s.sendUplink l).engines = s.engines ∧ (s.sendUplink l).bracket = s.bracket := by
  unfold State.sendUplink; dsimp only
  (repeat' split) <;> simp

@[simp] theorem State.takeItems_frame (s : State) (n : Nat) (l : List Item) :
    (s.takeItems n l).pending = s.pending ∧ (s.takeItems n l).power = s.power ∧
    (s.takeItems n l).loader = s.loader ∧ (s.takeItems n l).tables = s.tables ∧
    (s.takeItems n l).memory = s.memory ∧ (s.takeItems n l).store = s.store ∧
    (s.takeItems n l).engines = s.engines := by
  simp [State.takeItems]

@[simp] theorem State.goStale_frame (s : State) (p : Nat) :
    (s.goStale p).pending = s.pending ∧ (s.goStale p).power = s.power ∧ (s.goStale p).loader = s.loader ∧
    (s.goStale p).tables = s.tables ∧ (s.goStale p).memory = s.memory ∧ (s.goStale p).store = s.store ∧
    (s.goStale p).engines = s.engines := by
  unfold State.goStale; try dsimp only
  (repeat' split) <;> simp

@[simp] theorem State.closeBank_frame (s : State) (b : Nat) :
    (s.closeBank b).pending = s.pending ∧ (s.closeBank b).power = s.power ∧
    (s.closeBank b).loader = s.loader ∧ (s.closeBank b).tables = s.tables ∧
    (s.closeBank b).memory = s.memory ∧ (s.closeBank b).seg = s.seg ∧ (s.closeBank b).points = s.points ∧
    (s.closeBank b).image = s.image ∧ (s.closeBank b).watch = s.watch ∧ (s.closeBank b).fog = s.fog ∧
    (s.closeBank b).heat = s.heat ∧ (s.closeBank b).zones = s.zones ∧ (s.closeBank b).engines = s.engines ∧
    (s.closeBank b).bracket = s.bracket ∧ (s.closeBank b).trunk = s.trunk := by
  unfold State.closeBank; try dsimp only
  (repeat' split) <;> simp

@[simp] theorem State.settleEnds_frame (s : State) (b : Nat) :
    (s.settleEnds b).pending = s.pending ∧ (s.settleEnds b).power = s.power ∧
    (s.settleEnds b).loader = s.loader ∧ (s.settleEnds b).tables = s.tables ∧
    (s.settleEnds b).memory = s.memory ∧ (s.settleEnds b).seg = s.seg ∧ (s.settleEnds b).points = s.points ∧
    (s.settleEnds b).image = s.image ∧ (s.settleEnds b).watch = s.watch ∧ (s.settleEnds b).fog = s.fog ∧
    (s.settleEnds b).heat = s.heat ∧ (s.settleEnds b).zones = s.zones ∧ (s.settleEnds b).bracket = s.bracket := by
  unfold State.settleEnds; try dsimp only
  (repeat' split) <;> simp

@[simp] theorem State.activationEnds_frame (s : State) (b r : Nat) :
    (s.activationEnds b r).pending = s.pending ∧ (s.activationEnds b r).power = s.power ∧
    (s.activationEnds b r).loader = s.loader ∧ (s.activationEnds b r).tables = s.tables ∧
    (s.activationEnds b r).memory = s.memory ∧ (s.activationEnds b r).seg = s.seg ∧
    (s.activationEnds b r).points = s.points ∧ (s.activationEnds b r).image = s.image ∧
    (s.activationEnds b r).watch = s.watch ∧ (s.activationEnds b r).fog = s.fog ∧
    (s.activationEnds b r).heat = s.heat ∧ (s.activationEnds b r).zones = s.zones ∧
    (s.activationEnds b r).engines = s.engines ∧ (s.activationEnds b r).bracket = s.bracket := by
  unfold State.activationEnds; try dsimp only
  (repeat' split) <;> simp

@[simp] theorem State.endFade_frame (s : State) (b : Nat) :
    (s.endFade b).pending = s.pending ∧ (s.endFade b).power = s.power ∧ (s.endFade b).loader = s.loader ∧
    (s.endFade b).tables = s.tables ∧ (s.endFade b).memory = s.memory ∧ (s.endFade b).seg = s.seg ∧
    (s.endFade b).points = s.points ∧ (s.endFade b).image = s.image ∧ (s.endFade b).watch = s.watch ∧
    (s.endFade b).fog = s.fog ∧ (s.endFade b).heat = s.heat ∧ (s.endFade b).zones = s.zones ∧
    (s.endFade b).bracket = s.bracket := by
  unfold State.endFade; try dsimp only
  (repeat' split) <;> simp

@[simp] theorem State.takeOver_frame (s : State) (b : Nat) :
    (s.takeOver b).pending = s.pending ∧ (s.takeOver b).power = s.power ∧ (s.takeOver b).loader = s.loader ∧
    (s.takeOver b).tables = s.tables ∧ (s.takeOver b).memory = s.memory ∧ (s.takeOver b).seg = s.seg ∧
    (s.takeOver b).points = s.points ∧ (s.takeOver b).image = s.image ∧ (s.takeOver b).watch = s.watch ∧
    (s.takeOver b).fog = s.fog ∧ (s.takeOver b).heat = s.heat ∧ (s.takeOver b).zones = s.zones ∧
    (s.takeOver b).store = s.store ∧ (s.takeOver b).bracket = s.bracket ∧ (s.takeOver b).trunk = s.trunk := by
  simp [State.takeOver]

@[simp] theorem State.firstMove_frame (s : State) (b : Nat) :
    (s.firstMove b).pending = s.pending ∧ (s.firstMove b).power = s.power ∧
    (s.firstMove b).loader = s.loader ∧ (s.firstMove b).tables = s.tables ∧
    (s.firstMove b).memory = s.memory ∧ (s.firstMove b).points = s.points ∧ (s.firstMove b).watch = s.watch ∧
    (s.firstMove b).fog = s.fog ∧ (s.firstMove b).heat = s.heat ∧ (s.firstMove b).zones = s.zones ∧
    (s.firstMove b).bracket = s.bracket := by
  unfold State.firstMove; try dsimp only
  (repeat' split) <;> simp

@[simp] theorem State.startFade_frame (s : State) (b : Nat) :
    (s.startFade b).pending = s.pending ∧ (s.startFade b).power = s.power ∧
    (s.startFade b).loader = s.loader ∧ (s.startFade b).tables = s.tables ∧
    (s.startFade b).memory = s.memory ∧ (s.startFade b).points = s.points ∧ (s.startFade b).watch = s.watch ∧
    (s.startFade b).fog = s.fog ∧ (s.startFade b).heat = s.heat ∧ (s.startFade b).zones = s.zones ∧
    (s.startFade b).bracket = s.bracket := by
  simp [State.startFade]

@[simp] theorem State.fadeStep_frame (s : State) (b : Nat) :
    (s.fadeStep b).pending = s.pending ∧ (s.fadeStep b).power = s.power ∧ (s.fadeStep b).loader = s.loader ∧
    (s.fadeStep b).tables = s.tables ∧ (s.fadeStep b).memory = s.memory ∧ (s.fadeStep b).points = s.points ∧
    (s.fadeStep b).watch = s.watch ∧ (s.fadeStep b).fog = s.fog ∧ (s.fadeStep b).heat = s.heat ∧
    (s.fadeStep b).zones = s.zones ∧ (s.fadeStep b).bracket = s.bracket := by
  unfold State.fadeStep; try dsimp only
  (repeat' split) <;> simp

@[simp] theorem State.cueFade_frame (s : State) (b : Nat) (f : Option Nat) (rel : Bool) :
    (s.cueFade b f rel).pending = s.pending ∧ (s.cueFade b f rel).power = s.power ∧
    (s.cueFade b f rel).loader = s.loader ∧ (s.cueFade b f rel).tables = s.tables ∧
    (s.cueFade b f rel).memory = s.memory ∧ (s.cueFade b f rel).points = s.points ∧
    (s.cueFade b f rel).watch = s.watch ∧ (s.cueFade b f rel).fog = s.fog ∧
    (s.cueFade b f rel).heat = s.heat ∧ (s.cueFade b f rel).zones = s.zones ∧
    (s.cueFade b f rel).bracket = s.bracket := by
  simp [State.cueFade]

@[simp] theorem State.deliverActivation_frame (s : State) (b : Nat) :
    (s.deliverActivation b).pending = s.pending ∧ (s.deliverActivation b).power = s.power ∧
    (s.deliverActivation b).loader = s.loader ∧ (s.deliverActivation b).tables = s.tables ∧
    (s.deliverActivation b).memory = s.memory ∧ (s.deliverActivation b).points = s.points ∧
    (s.deliverActivation b).watch = s.watch ∧ (s.deliverActivation b).fog = s.fog ∧
    (s.deliverActivation b).heat = s.heat ∧ (s.deliverActivation b).zones = s.zones ∧
    (s.deliverActivation b).bracket = s.bracket := by
  unfold State.deliverActivation; try dsimp only
  (repeat' split) <;> simp

@[simp] theorem State.failRemoved_frame (s : State) (l : List MemOp) :
    (s.failRemoved l).pending = s.pending ∧ (s.failRemoved l).power = s.power ∧
    (s.failRemoved l).loader = s.loader ∧ (s.failRemoved l).tables = s.tables ∧
    (s.failRemoved l).memory = s.memory ∧ (s.failRemoved l).seg = s.seg ∧
    (s.failRemoved l).points = s.points ∧ (s.failRemoved l).image = s.image ∧
    (s.failRemoved l).watch = s.watch ∧ (s.failRemoved l).fog = s.fog ∧ (s.failRemoved l).heat = s.heat ∧
    (s.failRemoved l).zones = s.zones ∧ (s.failRemoved l).store = s.store ∧
    (s.failRemoved l).engines = s.engines ∧ (s.failRemoved l).bracket = s.bracket := by
  unfold State.failRemoved; simp (disch := intro t x; cases x <;> simp)

@[simp] theorem State.flushMemory_frame (s : State) :
    (s.flushMemory).pending = s.pending ∧ (s.flushMemory).power = s.power ∧
    (s.flushMemory).loader = s.loader ∧ (s.flushMemory).tables = s.tables ∧
    (s.flushMemory).memory = s.memory ∧ (s.flushMemory).seg = s.seg ∧ (s.flushMemory).points = s.points ∧
    (s.flushMemory).image = s.image ∧ (s.flushMemory).watch = s.watch ∧ (s.flushMemory).fog = s.fog ∧
    (s.flushMemory).heat = s.heat ∧ (s.flushMemory).zones = s.zones ∧ (s.flushMemory).engines = s.engines ∧
    (s.flushMemory).bracket = s.bracket := by
  unfold State.flushMemory; try dsimp only
  (repeat' split) <;> simp

@[simp] theorem State.stopBracket_frame (s : State) :
    (s.stopBracket).pending = s.pending ∧ (s.stopBracket).power = s.power ∧
    (s.stopBracket).loader = s.loader ∧ (s.stopBracket).tables = s.tables ∧
    (s.stopBracket).memory = s.memory ∧ (s.stopBracket).seg = s.seg ∧ (s.stopBracket).points = s.points ∧
    (s.stopBracket).image = s.image ∧ (s.stopBracket).watch = s.watch ∧ (s.stopBracket).fog = s.fog ∧
    (s.stopBracket).heat = s.heat ∧ (s.stopBracket).zones = s.zones ∧ (s.stopBracket).store = s.store ∧
    (s.stopBracket).engines = s.engines := by
  unfold State.stopBracket; try dsimp only
  (repeat' split) <;> simp

@[simp] theorem State.updateNode_frame (s : State) (a : Nat) (g : NodeRun → NodeRun) :
    (s.updateNode a g).pending = s.pending ∧ (s.updateNode a g).power = s.power ∧
    (s.updateNode a g).loader = s.loader ∧ (s.updateNode a g).tables = s.tables ∧
    (s.updateNode a g).memory = s.memory ∧ (s.updateNode a g).points = s.points ∧
    (s.updateNode a g).image = s.image ∧ (s.updateNode a g).watch = s.watch ∧
    (s.updateNode a g).fog = s.fog ∧ (s.updateNode a g).heat = s.heat ∧ (s.updateNode a g).zones = s.zones ∧
    (s.updateNode a g).store = s.store ∧ (s.updateNode a g).engines = s.engines ∧
    (s.updateNode a g).bracket = s.bracket ∧ (s.updateNode a g).trunk = s.trunk := by
  unfold State.updateNode; try dsimp only
  (repeat' split) <;> simp

@[simp] theorem State.moveNode_frame (s : State) (a : Nat) (g : NodeRun → NodeRun) :
    (s.moveNode a g).pending = s.pending ∧ (s.moveNode a g).power = s.power ∧
    (s.moveNode a g).loader = s.loader ∧ (s.moveNode a g).tables = s.tables ∧
    (s.moveNode a g).memory = s.memory ∧ (s.moveNode a g).points = s.points ∧
    (s.moveNode a g).image = s.image ∧ (s.moveNode a g).watch = s.watch ∧ (s.moveNode a g).fog = s.fog ∧
    (s.moveNode a g).heat = s.heat ∧ (s.moveNode a g).zones = s.zones ∧ (s.moveNode a g).store = s.store ∧
    (s.moveNode a g).engines = s.engines ∧ (s.moveNode a g).bracket = s.bracket := by
  simp [State.moveNode]

@[simp] theorem State.missNode_frame (s : State) (n : Nat) :
    (s.missNode n).pending = s.pending ∧ (s.missNode n).power = s.power ∧ (s.missNode n).loader = s.loader ∧
    (s.missNode n).tables = s.tables ∧ (s.missNode n).memory = s.memory ∧ (s.missNode n).points = s.points ∧
    (s.missNode n).image = s.image ∧ (s.missNode n).watch = s.watch ∧ (s.missNode n).fog = s.fog ∧
    (s.missNode n).heat = s.heat ∧ (s.missNode n).zones = s.zones ∧ (s.missNode n).store = s.store ∧
    (s.missNode n).engines = s.engines ∧ (s.missNode n).bracket = s.bracket := by
  unfold State.missNode; try dsimp only
  (repeat' split) <;> simp

@[simp] theorem State.frameDiscarded_frame (s : State) :
    (s.frameDiscarded).pending = s.pending ∧ (s.frameDiscarded).power = s.power ∧
    (s.frameDiscarded).loader = s.loader ∧ (s.frameDiscarded).tables = s.tables ∧
    (s.frameDiscarded).memory = s.memory ∧ (s.frameDiscarded).points = s.points ∧
    (s.frameDiscarded).image = s.image ∧ (s.frameDiscarded).watch = s.watch ∧
    (s.frameDiscarded).fog = s.fog ∧ (s.frameDiscarded).heat = s.heat ∧ (s.frameDiscarded).zones = s.zones ∧
    (s.frameDiscarded).store = s.store ∧ (s.frameDiscarded).engines = s.engines ∧
    (s.frameDiscarded).bracket = s.bracket := by
  simp [State.frameDiscarded]

@[simp] theorem State.rowWriteEnds_frame (s : State) (t : Byte) (b r : Nat) (c : List Byte) (fl : List (Nat × Byte)) :
    (s.rowWriteEnds t b r c fl).pending = s.pending ∧ (s.rowWriteEnds t b r c fl).power = s.power ∧
    (s.rowWriteEnds t b r c fl).loader = s.loader ∧ (s.rowWriteEnds t b r c fl).tables = s.tables ∧
    (s.rowWriteEnds t b r c fl).seg = s.seg ∧ (s.rowWriteEnds t b r c fl).points = s.points ∧
    (s.rowWriteEnds t b r c fl).image = s.image ∧ (s.rowWriteEnds t b r c fl).watch = s.watch ∧
    (s.rowWriteEnds t b r c fl).fog = s.fog ∧ (s.rowWriteEnds t b r c fl).heat = s.heat ∧
    (s.rowWriteEnds t b r c fl).zones = s.zones ∧ (s.rowWriteEnds t b r c fl).store = s.store ∧
    (s.rowWriteEnds t b r c fl).engines = s.engines ∧ (s.rowWriteEnds t b r c fl).bracket = s.bracket := by
  simp [State.rowWriteEnds]

@[simp] theorem State.rowReadEnds_frame (s : State) (t : Byte) (b r : Nat) :
    (s.rowReadEnds t b r).pending = s.pending ∧ (s.rowReadEnds t b r).power = s.power ∧
    (s.rowReadEnds t b r).loader = s.loader ∧ (s.rowReadEnds t b r).tables = s.tables ∧
    (s.rowReadEnds t b r).memory = s.memory ∧ (s.rowReadEnds t b r).seg = s.seg ∧
    (s.rowReadEnds t b r).points = s.points ∧ (s.rowReadEnds t b r).image = s.image ∧
    (s.rowReadEnds t b r).watch = s.watch ∧ (s.rowReadEnds t b r).fog = s.fog ∧
    (s.rowReadEnds t b r).heat = s.heat ∧ (s.rowReadEnds t b r).zones = s.zones ∧
    (s.rowReadEnds t b r).store = s.store ∧ (s.rowReadEnds t b r).engines = s.engines ∧
    (s.rowReadEnds t b r).bracket = s.bracket := by
  unfold State.rowReadEnds; try dsimp only
  (repeat' split) <;> simp

@[simp] theorem State.saveEnds_frame (s : State) (t : Byte) (c : Tables) (fl : List (Nat × Byte)) :
    (s.saveEnds t c fl).pending = s.pending ∧ (s.saveEnds t c fl).power = s.power ∧
    (s.saveEnds t c fl).tables = s.tables ∧ (s.saveEnds t c fl).seg = s.seg ∧
    (s.saveEnds t c fl).points = s.points ∧ (s.saveEnds t c fl).image = s.image ∧
    (s.saveEnds t c fl).watch = s.watch ∧ (s.saveEnds t c fl).fog = s.fog ∧
    (s.saveEnds t c fl).heat = s.heat ∧ (s.saveEnds t c fl).zones = s.zones ∧
    (s.saveEnds t c fl).store = s.store ∧ (s.saveEnds t c fl).engines = s.engines ∧
    (s.saveEnds t c fl).bracket = s.bracket := by
  unfold State.saveEnds; try dsimp only
  (repeat' split) <;> simp

end Sys2Proof.Machine
end

