-- ==== Sys2Proof/Laws/Memory.lean ====
section
/-! SUPPORT. The image region of the serial memory: every operation keeps the canonical form, a read after a write
gives what was written, a write leaves every other address as it was, and a block is its bytes one by one. -/

namespace Sys2Proof.Machine

open Sys2Proof

namespace Memory

theorem mem_cells {c : Host.Cell} : ∀ {bs : List Byte} {a : Nat},
    c ∈ cells a bs ↔ a ≤ c.1 ∧ bs[c.1 - a]? = some c.2 ∧ c.2 ≠ Config.erasedByte := by
  intro bs
  induction bs with
  | nil => intro a; simp [cells]
  | cons b bs ih =>
    intro a
    have step : ∀ {x : Nat}, a + 1 ≤ x → x - a = (x - (a + 1)) + 1 := by intro x h; omega
    unfold cells
    split
    · rename_i hb
      rw [ih]
      constructor
      · rintro ⟨h1, h2, h3⟩
        exact ⟨by omega, by rw [step h1]; simpa using h2, h3⟩
      · rintro ⟨h1, h2, h3⟩
        rcases Nat.lt_or_ge a c.1 with h | h
        · exact ⟨h, by rw [step h] at h2; simpa using h2, h3⟩
        · have : c.1 - a = 0 := by omega
          rw [this] at h2; simp at h2; exact absurd (h2 ▸ hb) h3
    · rename_i hb
      rw [List.mem_cons, ih]
      constructor
      · rintro (rfl | ⟨h1, h2, h3⟩)
        · exact ⟨le_refl _, by simp, hb⟩
        · exact ⟨by omega, by rw [step h1]; simpa using h2, h3⟩
      · rintro ⟨h1, h2, h3⟩
        rcases Nat.lt_or_ge a c.1 with h | h
        · exact .inr ⟨h, by rw [step h] at h2; simpa using h2, h3⟩
        · have h0 : c.1 - a = 0 := by omega
          have h' : c.1 = a := by omega
          rw [h0] at h2; simp at h2
          exact .inl (Prod.ext h' h2.symm)

theorem cells_sorted : ∀ (bs : List Byte) (a : Nat), (cells a bs).Pairwise (fun x y => x.1 < y.1) := by
  intro bs
  induction bs with
  | nil => intro a; simp [cells]
  | cons b bs ih =>
    intro a
    unfold cells
    split
    · exact ih _
    · refine List.pairwise_cons.2 ⟨?_, ih _⟩
      intro c hc
      have := (mem_cells.1 hc).1
      omega

/-- What a write holds, cell by cell. -/
theorem mem_write {m : List Host.Cell} {a : Nat} {bs : List Byte} {c : Host.Cell} :
    c ∈ write m a bs ↔
      (c ∈ m ∧ (c.1 < a ∨ a + bs.length ≤ c.1)) ∨
        (a ≤ c.1 ∧ bs[c.1 - a]? = some c.2 ∧ c.2 ≠ Config.erasedByte) := by
  simp only [write, List.mem_append, List.mem_filter, decide_eq_true_eq, mem_cells]
  tauto

/-- Every write keeps the canonical form. -/
theorem write_wf {m : List Host.Cell} (h : wf m) (a : Nat) (bs : List Byte) : wf (write m a bs) := by
  refine ⟨?_, ?_⟩
  · unfold write
    refine List.pairwise_append.2 ⟨h.1.filter _, List.pairwise_append.2 ⟨cells_sorted _ _, h.1.filter _, ?_⟩, ?_⟩
    · intro x hx y hy
      obtain ⟨h1, h2, -⟩ := mem_cells.1 hx
      have := (List.getElem?_eq_some_iff.1 h2).1
      have hy := (List.mem_filter.1 hy).2
      simp only [decide_eq_true_eq] at hy
      omega
    · intro x hx y hy
      have hx := (List.mem_filter.1 hx).2
      simp only [decide_eq_true_eq] at hx
      rcases List.mem_append.1 hy with hy | hy
      · have := (mem_cells.1 hy).1
        omega
      · have hy := (List.mem_filter.1 hy).2
        simp only [decide_eq_true_eq] at hy
        omega
  · intro c hc
    rcases mem_write.1 hc with ⟨hc, -⟩ | ⟨-, -, hc⟩
    · exact h.2 c hc
    · exact hc

/-- In canonical form the byte at an address is the cell that names it. -/
theorem read_eq_of_mem {m : List Host.Cell} (h : wf m) {c : Host.Cell} (hc : c ∈ m) : read m c.1 = c.2 := by
  have hs := h.1
  clear h
  induction m with
  | nil => cases hc
  | cons d m ih =>
    rw [List.pairwise_cons] at hs
    rcases List.mem_cons.1 hc with rfl | hc
    · simp [read]
    · have hd := hs.1 c hc
      have hne : (d.1 == c.1) = false := by simpa using Nat.ne_of_lt hd
      have := ih hc hs.2
      simpa [read, List.find?_cons, hne] using this

theorem read_eq_erased {m : List Host.Cell} {a : Nat} (h : ∀ c ∈ m, c.1 ≠ a) : read m a = Config.erasedByte := by
  have : m.find? (fun c => c.1 == a) = none := List.find?_eq_none.2 (by simpa using h)
  simp [read, this]

/-- A read after a write: the bytes written, and every other byte as it was. -/
theorem read_write {m : List Host.Cell} (h : wf m) (a : Nat) (bs : List Byte) (x : Nat) :
    read (write m a bs) x =
      if a ≤ x ∧ x < a + bs.length then bs.getD (x - a) Config.erasedByte else read m x := by
  have hw := write_wf h a bs
  by_cases hin : a ≤ x ∧ x < a + bs.length
  · rw [if_pos hin]
    have hl : x - a < bs.length := by omega
    have hg : bs[x - a]? = some bs[x - a] := by simp [hl]
    by_cases he : bs[x - a] = Config.erasedByte
    · rw [read_eq_erased]
      · simp [List.getD, hg, he]
      · intro c hc hcx
        subst hcx
        rcases mem_write.1 hc with ⟨-, h'⟩ | ⟨-, h2, h3⟩
        · omega
        · rw [hg] at h2; exact h3 ((Option.some.inj h2).symm.trans he)
    · have hc : ((x, bs[x - a]) : Host.Cell) ∈ write m a bs := mem_write.2 (.inr ⟨hin.1, hg, he⟩)
      rw [read_eq_of_mem hw hc]
      simp [List.getD, hg]
  · rw [if_neg hin]
    by_cases hm : ∃ c ∈ m, c.1 = x
    · obtain ⟨c, hc, rfl⟩ := hm
      have hc' : c ∈ write m a bs := mem_write.2 (.inl ⟨hc, by omega⟩)
      rw [read_eq_of_mem hw hc', read_eq_of_mem h hc]
    · have hm' : ∀ c ∈ m, c.1 ≠ x := fun c hc hx => hm ⟨c, hc, hx⟩
      rw [read_eq_erased hm', read_eq_erased]
      intro c hc hcx
      rcases mem_write.1 hc with ⟨hc, -⟩ | ⟨h1, h2, -⟩
      · exact hm' c hc hcx
      · have := (List.getElem?_eq_some_iff.1 h2).1
        omega

@[simp] theorem length_block : ∀ (m : List Host.Cell) (a n : Nat), (block m a n).length = n := by
  intro m
  induction m with
  | nil => intro a n; simp [block]
  | cons c m ih =>
    intro a n
    unfold block
    split
    · exact ih a n
    · split
      · simp
      · simp [ih]; omega

/-- A block read from a memory in canonical form is its bytes one by one. -/
theorem block_eq {m : List Host.Cell} (h : wf m) : ∀ (a n : Nat),
    block m a n = (List.range n).map fun i => read m (a + i) := by
  induction m with
  | nil =>
    intro a n
    refine List.ext_getElem (by simp [block]) ?_
    intro i h1 h2
    simp [block, read]
  | cons c m ih =>
    intro a n
    have hm : wf m := ⟨(List.pairwise_cons.1 h.1).2, fun d hd => h.2 d (List.mem_cons_of_mem _ hd)⟩
    have hc : ∀ d ∈ m, c.1 < d.1 := (List.pairwise_cons.1 h.1).1
    have hread : ∀ x, read (c :: m) x = if x = c.1 then c.2 else read m x := by
      intro x
      by_cases hx : x = c.1
      · subst hx; simp [read]
      · have hne : (c.1 == x) = false := by simpa using Ne.symm hx
        simp [read, hne, hx]
    have hlow : ∀ x, x < c.1 → read m x = Config.erasedByte := by
      intro x hx; exact read_eq_erased fun d hd hdx => by have := hc d hd; omega
    unfold block
    split
    · rw [ih hm]
      refine List.map_congr_left fun i _ => ?_
      rw [hread, if_neg (by omega)]
    · split
      · refine List.ext_getElem (by simp) ?_
        intro i h1 h2
        simp only [List.length_map, List.length_range] at h2
        simp only [List.getElem_replicate, List.getElem_map, List.getElem_range]
        rw [hread, if_neg (by omega), hlow _ (by omega)]
      · rw [ih hm]
        refine List.ext_getElem (by simp; omega) ?_
        intro i h1 h2
        simp only [List.length_map, List.length_range] at h2
        simp only [List.getElem_map, List.getElem_range, hread]
        by_cases hi : i < c.1 - a
        · rw [List.getElem_append_left (by simpa using hi), if_neg (by omega), hlow _ (by omega)]; simp
        · rw [List.getElem_append_right (by simpa using hi)]
          by_cases he : a + i = c.1
          · have : i - (c.1 - a) = 0 := by omega
            simp [he, this]
          · have : i - (c.1 - a) = (i - (c.1 - a) - 1) + 1 := by omega
            rw [if_neg he]
            simp only [List.length_replicate]
            rw [List.getElem_cons]
            rw [dif_neg (by omega)]
            simp only [List.getElem_map, List.getElem_range]
            congr 1; omega

/-- A byte of a block. -/
theorem getD_block {m : List Host.Cell} (h : wf m) (a n i : Nat) (d : Byte) (hi : i < n) :
    (block m a n).getD i d = read m (a + i) := by
  rw [block_eq h]; simp [hi]

/-- A block of what was just written. -/
theorem block_write {m : List Host.Cell} (h : wf m) (a : Nat) (bs : List Byte) : block (write m a bs) a bs.length = bs := by
  rw [block_eq (write_wf h a bs)]
  refine List.ext_getElem (by simp) ?_
  intro i h1 h2
  simp only [List.getElem_map, List.getElem_range]
  rw [read_write h, if_pos (by omega)]
  simp [h2]

/-- A block that lies outside what was written. -/
theorem block_write_other {m : List Host.Cell} (h : wf m) (a b n : Nat) (bs : List Byte)
    (hd : b + n ≤ a ∨ a + bs.length ≤ b) : block (write m a bs) b n = block m b n := by
  rw [block_eq (write_wf h a bs), block_eq h]
  refine List.map_congr_left fun i hi => ?_
  have := List.mem_range.1 hi
  rw [read_write h, if_neg (by omega)]

/-- Spoiled bytes keep the canonical form. -/
theorem spoil_wf {m : List Host.Cell} (h : wf m) (flaws : List (Nat × Byte)) : wf (spoil m flaws) := by
  unfold spoil
  induction flaws generalizing m with
  | nil => exact h
  | cons f flaws ih => exact ih (write_wf h _ _)

/-- Spoiled bytes leave every other address as it was. -/
theorem read_spoil {m : List Host.Cell} (h : wf m) (flaws : List (Nat × Byte)) (x : Nat) (hx : ∀ f ∈ flaws, f.1 ≠ x) :
    read (spoil m flaws) x = read m x := by
  unfold spoil
  induction flaws generalizing m with
  | nil => rfl
  | cons f flaws ih =>
    rw [List.foldl_cons, ih (write_wf h _ _) fun g hg => hx g (List.mem_cons_of_mem _ hg), read_write h, if_neg]
    have := hx f (List.mem_cons_self ..)
    simp; omega

end Memory

/-! ### The operations of the part that write the image region -/

theorem writeUnsigned_wf {m : List Host.Cell} (h : Memory.wf m) (t : Tables) : Memory.wf (writeUnsigned m t) :=
  Memory.write_wf h _ _

theorem cutImage_wf {m : List Host.Cell} (h : Memory.wf m) (t : Tables) (cut : Nat) : Memory.wf (cutImage m t cut) :=
  Memory.write_wf (Memory.write_wf (Memory.write_wf h _ _) _ _) _ _

/-- A cut leaves the image region in its canonical form. -/
theorem State.cutMemory_wf {s : State} (h : s.memoryLaw) (cut : Nat) : Memory.wf (s.cutMemory cut).image := by
  unfold State.cutMemory
  split
  · exact h
  · exact cutImage_wf h _ _
  all_goals exact h

/-- Reset memory has the canonical form. -/
theorem reset_memory_wf : State.reset.memoryLaw := by
  refine ⟨List.Pairwise.nil, ?_⟩
  intro c hc
  cases hc

end Sys2Proof.Machine
end

