-- ==== Sys2Proof/Laws/Image.lean ====
section
/-! SUPPORT. The stored image: the length of what a save writes, and how the load judges it (R176, R177). -/

namespace Sys2Proof.Machine

open Sys2Proof

variable {m : List Host.Cell} {t : Tables}

/-! ### Lengths -/

@[simp] theorem length_u8 (n : Nat) : (u8 n).length = 1 := rfl
@[simp] theorem length_u16 (n : Nat) : (u16 n).length = 2 := rfl
@[simp] theorem length_u32 (n : Nat) : (u32 n).length = 4 := rfl
@[simp] theorem length_s16 (z : Int) : (s16 z).length = 2 := rfl
@[simp] theorem OptNum.length_bytes (o : OptNum) : o.bytes.length = 3 := rfl

/-- An entry of a stored table is as long as its table says. -/
theorem Tables.length_entry (t : Tables) (id : TableId) (i : Nat) : (t.entry id i).length = id.entryLength i := by
  cases id <;> simp only [Tables.entry, TableId.entryLength]
  case fogMap => split <;> simp [FogMapRec.bytes]
  case schedule => split <;> simp [ScheduleHead.bytes, SlotRec.bytes]
  case fogTune => split <;> simp [FogTuneRec.bytes, DehumidTimes.bytes]
  case nodes => simp [NodeRec.bytes]
  case points => simp [PointRec.bytes]
  case watch => simp [WatchRec.bytes]
  case saturation => simp
  case sinkMap => simp [SinkMapRec.bytes]
  case zoneMap => simp [ZoneMapRec.bytes]
  case channels => simp [ChannelRec.bytes]
  case thresholds => simp
  case sinkTune => simp [SinkTuneRec.bytes]
  case dispatch => simp [DispatchRec.bytes]
  case zoneSet => simp [ZoneSetRec.bytes]
  case timers => simp [TimersRec.bytes]
  case flagEnables => simp
  case lightProfile => simp [ProfileRec.bytes]
  all_goals rfl

/-- A table as bytes is as long as its whole length. -/
theorem Tables.length_bytes (t : Tables) (id : TableId) : (t.bytes id).length = id.wholeLength := by
  simp [Tables.bytes, List.length_flatMap, Tables.length_entry, TableId.wholeLength, TableId.runLength]

/-- The body of every image. -/
theorem Tables.length_body (t : Tables) : t.body.length = 14623 := by
  simp only [Tables.body, List.length_flatMap, Tables.length_bytes]
  decide +kernel

/-! ### The header -/

/-- The directory a save writes. -/
def savedDirectory : List DirEntry :=
  TableId.stored.map fun id => ⟨id.code, bodyOffset TableId.stored id, id.wholeLength⟩

theorem rd16_u16 {n : Nat} (h : n < 65536) (rest : List Byte) : rd16 (u16 n ++ rest) 0 = n := by
  simp [rd16, rd8, u16]; omega

/-- What a save leaves from address 0 to the end of the body. -/
theorem block_saved (h : Memory.wf m) (t : Tables) :
    Memory.block (Memory.write (writeUnsigned m t) 0 Config.signature) 0 (4 + (savedBytes t).length) =
      Config.signature ++ savedBytes t := by
  have h1 := writeUnsigned_wf h t
  have hb : Memory.block (writeUnsigned m t) 0 (4 + (savedBytes t).length) =
      List.replicate 4 Config.erasedByte ++ savedBytes t := by
    have := Memory.block_write h 0 (List.replicate 4 Config.erasedByte ++ savedBytes t)
    rw [List.length_append, List.length_replicate] at this
    exact this
  have hs : Config.signature.length = 4 := rfl
  generalize savedBytes t = saved at hb ⊢
  refine List.ext_getElem (by rw [Memory.length_block, List.length_append, hs]) ?_
  intro i hi hj
  have hi' : i < 4 + saved.length := by rwa [Memory.length_block] at hi
  have e1 := Memory.getD_block (Memory.write_wf h1 0 Config.signature) 0 _ i 0 hi'
  have e2 := Memory.getD_block h1 0 _ i 0 hi'
  rw [List.getD_eq_getElem _ _ (by simpa using hi')] at e1 e2
  rw [e1, Memory.read_write h1]
  by_cases h4 : i < 4
  · rw [if_pos (by simp [Config.signature]; omega)]
    rw [List.getElem_append_left (by simpa [Config.signature] using h4)]
    simp [h4, Config.signature]
  · rw [if_neg (by simp [Config.signature]; omega), ← e2]
    simp only [hb]
    rw [List.getElem_append_right (by simp; omega), List.getElem_append_right (by simp [Config.signature]; omega)]
    simp [Config.signature]

/-- The first bytes of a block. -/
theorem Memory.take_block (h : Memory.wf m) (a n k : Nat) (hk : k ≤ n) :
    (Memory.block m a n).take k = Memory.block m a k := by
  rw [Memory.block_eq h, Memory.block_eq h, ← List.map_take, List.take_range, Nat.min_eq_left hk]

/-- The bytes of a block behind its first ones. -/
theorem Memory.drop_block (h : Memory.wf m) (a n k : Nat) :
    (Memory.block m a n).drop k = Memory.block m (a + k) (n - k) := by
  rw [Memory.block_eq h, Memory.block_eq h]
  refine List.ext_getElem (by simp) ?_
  intro i h1 h2
  simp [Nat.add_assoc]

theorem length_directory : (TableId.stored.flatMap directoryEntry).length = 153 := by decide +kernel

theorem length_header (b : List Byte) : (headerAfterSignature b).length = 160 := by
  have := length_directory
  simp only [headerAfterSignature, List.length_append, this, length_u8, length_u16, length_u32]

/-- The header a save leaves. -/
theorem saved_header (h : Memory.wf m) (t : Tables) :
    Memory.block (Memory.write (writeUnsigned m t) 0 Config.signature) 0 Config.headerLength =
      Config.signature ++ headerAfterSignature t.body := by
  have hw := Memory.write_wf (writeUnsigned_wf h t) 0 Config.signature
  have := Memory.take_block hw 0 (4 + (savedBytes t).length) 164 (by simp [savedBytes, length_header]; omega)
  rw [block_saved h t] at this
  rw [show Config.headerLength = 164 from rfl, ← this]
  rw [show savedBytes t = headerAfterSignature t.body ++ t.body from rfl, ← List.append_assoc, List.take_left']
  simp [length_header, Config.signature]

/-- The body a save leaves. -/
theorem saved_body (h : Memory.wf m) (t : Tables) :
    Memory.block (Memory.write (writeUnsigned m t) 0 Config.signature) Config.headerLength t.body.length = t.body := by
  have hw := Memory.write_wf (writeUnsigned_wf h t) 0 Config.signature
  have := Memory.drop_block hw 0 (4 + (savedBytes t).length) 164
  rw [block_saved h t] at this
  have hl : 4 + (savedBytes t).length - 164 = t.body.length := by simp [savedBytes, length_header]; omega
  rw [show Config.headerLength = 0 + 164 from rfl, ← hl, ← this]
  rw [show savedBytes t = headerAfterSignature t.body ++ t.body from rfl, ← List.append_assoc, List.drop_left']
  simp [length_header, Config.signature]

/-- A byte behind the first ones of a list. -/
theorem rd8_append (p q : List Byte) (i : Nat) (h : p.length ≤ i) : rd8 (p ++ q) i = rd8 q (i - p.length) := by
  simp [rd8, List.getD_eq_getElem?_getD, List.getElem?_append_right h]

/-- The directory of a header stands behind its first 11 bytes. -/
theorem directoryOf_append (p p' q : List Byte) (h : p.length = 11) (h' : p'.length = 11) :
    directoryOf (p ++ q) = directoryOf (p' ++ q) := by
  have hr : ∀ i, 11 ≤ i → rd8 (p ++ q) i = rd8 (p' ++ q) i := fun i hi => by
    rw [rd8_append _ _ _ (by omega), rd8_append _ _ _ (by omega), h, h']
  unfold directoryOf rd32 rd16
  refine List.map_congr_left fun i _ => ?_
  rw [hr _ (by omega), hr _ (by omega), hr _ (by omega), hr _ (by omega), hr _ (by omega), hr _ (by omega),
    hr _ (by omega), hr _ (by omega), hr _ (by omega)]

theorem directoryOf_saved :
    directoryOf (List.replicate 11 0 ++ TableId.stored.flatMap directoryEntry) = savedDirectory := by decide +kernel

/-- R177: an image that a save left passes the stages before the validation, and its tables are what the
directory loads from its body. -/
theorem judgeImage_saved (h : Memory.wf m) (t w : Tables) :
    judgeImage (Memory.write (writeUnsigned m t) 0 Config.signature) w =
      match (savedDirectory.foldl (fun u e => u.loadTable t.body e) w).validate with
      | some (id, entry) => .error (.validation id entry)
      | none => .ok ((savedDirectory.foldl (fun u e => u.loadTable t.body e) w).keepResetEnable w.enables) := by
  have hx : (crc16 t.body).toNat < 65536 := (crc16 t.body).isLt
  have hb : headerAfterSignature t.body =
      u8 3 ++ u32 14623 ++ u16 (crc16 t.body).toNat ++ TableId.stored.flatMap directoryEntry := by
    simp [headerAfterSignature, Tables.length_body, Config.formatVersion]
  have hd : directoryOf (Config.signature ++ headerAfterSignature t.body) = savedDirectory := by
    rw [hb, ← List.append_assoc, directoryOf_append _ (List.replicate 11 0) _ rfl rfl]
    exact directoryOf_saved
  generalize hdir : TableId.stored.flatMap directoryEntry = dir at hb
  have h4 : (Config.signature ++ headerAfterSignature t.body).take 4 = Config.signature :=
    List.take_left' (by rfl)
  have h5 : rd8 (Config.signature ++ headerAfterSignature t.body) 4 = Config.formatVersion := by
    rw [hb]; simp [rd8, Config.signature, u8, Config.formatVersion]
  have h6 : rd32 (Config.signature ++ headerAfterSignature t.body) 5 = 14623 := by
    rw [hb]; simp [rd32, rd16, rd8, Config.signature, u8, u32]
  have h7 : rd16 (Config.signature ++ headerAfterSignature t.body) 9 = (crc16 t.body).toNat := by
    rw [hb]; simp [rd16, rd8, Config.signature, u8, u32, u16]; omega
  have h8 : directoryComplete savedDirectory = true := by decide +kernel
  have h9 : savedDirectory.all (DirEntry.fits 14623) = true := by decide +kernel
  have hbody := saved_body h t
  rw [Tables.length_body] at hbody
  unfold judgeImage
  simp only [saved_header h t, hd, h4, h5, h6, h7, h8, h9, hbody]
  simp [Config.imageRegion, Config.headerLength]
  all_goals cases (savedDirectory.foldl (fun u e => u.loadTable t.body e) w).validate <;> rfl

/-! ### Whole tables stored from their bytes -/

theorem length_splitRuns (len : Nat → Nat) (n : Nat) : ∀ (i : Nat) (bs : List Byte), (splitRuns len i n bs).length = n := by
  induction n with
  | zero => intro i bs; rfl
  | succ n ih => intro i bs; simp [splitRuns, ih]

/-- The runs of a list set one by one into the places behind the first `i` replace all of them. -/
theorem set_runs {α : Type} (dec : List Byte → α) (len : Nat → Nat) (n : Nat) : ∀ (i : Nat) (bs : List Byte) (l : List α),
    l.length = i + n →
    (splitRuns len i n bs).foldl (fun l e => l.set e.1 (dec e.2)) l =
      l.take i ++ (splitRuns len i n bs).map fun e => dec e.2 := by
  induction n with
  | zero => intro i bs l h; simp [splitRuns, List.take_of_length_le (by omega : l.length ≤ i)]
  | succ n ih =>
    intro i bs l h
    simp only [splitRuns, List.foldl_cons, List.map_cons]
    rw [ih (i + 1) _ _ (by simp; omega)]
    have hi : i < l.length := by omega
    have e : (l.set i (dec (bs.take (len i)))).take (i + 1) = l.take i ++ [dec (bs.take (len i))] := by
      rw [List.take_succ_eq_append_getElem (by simpa using hi)]
      simp [List.take_set_of_le]
    rw [e]; simp

/-- A table of `k` places stored whole from its bytes, one entry after the other. -/
theorem stores_whole {α : Type} {k : Nat} (store : Tables → Nat → List Byte → Tables) (proj : Tables → Tab α k)
    (put : Tables → Tab α k → Tables) (dec : List Byte → α) (len : Nat → Nat)
    (h1 : ∀ t i bs, store t i bs = put t ((proj t).set i (dec bs))) (h2 : ∀ t x, proj (put t x) = x)
    (h3 : ∀ t x y, put (put t x) y = put t y) (h4 : ∀ t, put t (proj t) = t) (t : Tables) (bs : List Byte) :
    (splitRuns len 0 k bs).foldl (fun t e => store t e.1 e.2) t =
      put t ⟨(splitRuns len 0 k bs).map fun e => dec e.2, by rw [List.length_map, length_splitRuns]⟩ := by
  have key : ∀ (l : List (Nat × List Byte)) (u : Tables),
      (proj (l.foldl (fun t e => store t e.1 e.2) u)).list = l.foldl (fun l e => l.set e.1 (dec e.2)) (proj u).list ∧
      ∃ x, l.foldl (fun t e => store t e.1 e.2) u = put u x := by
    intro l
    induction l with
    | nil => intro u; exact ⟨rfl, proj u, (h4 u).symm⟩
    | cons e l ih =>
      intro u
      obtain ⟨e1, x, e2⟩ := ih (store u e.1 e.2)
      refine ⟨by rw [List.foldl_cons, List.foldl_cons, e1, h1, h2]; rfl, x, ?_⟩
      rw [List.foldl_cons, e2, h1, h3]
  obtain ⟨e1, x, e2⟩ := key (splitRuns len 0 k bs) t
  rw [set_runs _ _ _ _ _ _ (by rw [(proj t).len, Nat.zero_add]), List.take_zero, List.nil_append] at e1
  rw [e2]
  congr 1
  rw [e2, h2] at e1
  exact Tab.ext_list e1

/-- The points of a whole POINTS table stored from its bytes. -/
theorem Tables.storeRun_points (t : Tables) (bs : List Byte) :
    t.storeRun .points 0 256 bs =
      { t with points := ⟨(splitRuns (TableId.entryLength .points) 0 256 bs).map fun e => PointRec.ofBytes e.2, by
        rw [List.length_map, length_splitRuns]⟩ } :=
  stores_whole (fun t i b => t.store .points i b) Tables.points (fun t x => { t with points := x }) PointRec.ofBytes _
    (fun _ _ _ => rfl) (fun _ _ => rfl) (fun _ _ _ => rfl) (fun _ => rfl) t bs

/-- The channels of a whole CHANNELS table stored from its bytes. -/
theorem Tables.storeRun_channels (t : Tables) (bs : List Byte) :
    t.storeRun .channels 0 512 bs =
      { t with channels := ⟨(splitRuns (TableId.entryLength .channels) 0 512 bs).map fun e => ChannelRec.ofBytes e.2, by
        rw [List.length_map, length_splitRuns]⟩ } :=
  stores_whole (fun t i b => t.store .channels i b) Tables.channels (fun t x => { t with channels := x })
    ChannelRec.ofBytes _ (fun _ _ _ => rfl) (fun _ _ => rfl) (fun _ _ _ => rfl) (fun _ => rfl) t bs

/-! ### A saved image loaded -/

/-- The runs of a list that is put together from them. -/
theorem splitRuns_flatMap (len : Nat → Nat) (f : Nat → List Byte) (hf : ∀ k, (f k).length = len k) (n : Nat) : ∀ i,
    splitRuns len i n ((List.range' i n).flatMap f) = (List.range' i n).map fun k => (k, f k) := by
  induction n with
  | zero => intro i; rfl
  | succ n ih =>
    intro i
    simp only [List.range'_succ, List.flatMap_cons, List.map_cons, splitRuns]
    rw [List.take_left' (hf i), List.drop_left' (hf i), ih]

/-- The bytes of one table within a body. -/
theorem slice_body (f : TableId → List Byte) (hf : ∀ id, (f id).length = id.wholeLength) (l : List TableId) (id : TableId)
    (h : id ∈ l) : ((l.flatMap f).drop (bodyOffset l id)).take id.wholeLength = f id := by
  induction l with
  | nil => cases h
  | cons e l ih =>
    simp only [List.flatMap_cons, bodyOffset]
    by_cases he : e = id
    · subst he
      rw [if_pos rfl, List.drop_zero, List.take_left' (hf e)]
    · rw [if_neg he, ← List.drop_drop, show e.runLength 0 e.entries = (f e).length from (hf e).symm, List.drop_left]
      exact ih (by simpa [Ne.symm he] using h)

theorem ofCode_code : ∀ id ∈ TableId.stored, TableId.ofCode id.code = some id := by decide

/-- A table of a saved image is stored from its own bytes. -/
theorem Tables.loadTable_saved (t u : Tables) (id : TableId) (h : id ∈ TableId.stored) :
    u.loadTable t.body ⟨id.code, bodyOffset TableId.stored id, id.wholeLength⟩ =
      u.storeRun id 0 id.entries (t.bytes id) := by
  simp only [Tables.loadTable, ofCode_code id h, Tables.body, slice_body t.bytes t.length_bytes _ _ h]

/-- R177 stage 5, of a saved image: each of the 17 tables stored from its own bytes. -/
theorem loads_saved (t u : Tables) :
    savedDirectory.foldl (fun v e => v.loadTable t.body e) u =
      TableId.stored.foldl (fun v id => v.storeRun id 0 id.entries (t.bytes id)) u := by
  have key : ∀ (l : List TableId) (u : Tables), (∀ id ∈ l, id ∈ TableId.stored) →
      (l.map fun id => (⟨id.code, bodyOffset TableId.stored id, id.wholeLength⟩ : DirEntry)).foldl
        (fun v e => v.loadTable t.body e) u = l.foldl (fun v id => v.storeRun id 0 id.entries (t.bytes id)) u := by
    intro l
    induction l with
    | nil => intro u _; rfl
    | cons id l ih =>
      intro u hl
      rw [List.map_cons, List.foldl_cons, List.foldl_cons, Tables.loadTable_saved t u id (hl id (List.mem_cons_self ..))]
      exact ih _ fun e he => hl e (List.mem_cons_of_mem _ he)
  exact key _ u fun _ h => h

/-- Points that their bytes carry are read back. -/
theorem Tables.storeRun_own_points (t u : Tables) (h : ∀ r ∈ t.points.list, PointRec.ofBytes r.bytes = r) :
    u.storeRun .points 0 256 (t.bytes .points) = { u with points := t.points } := by
  rw [Tables.storeRun_points]
  congr 1
  apply Tab.ext_get
  intro i hi
  have hs : (splitRuns (TableId.entryLength .points) 0 256 (t.bytes .points)).map (fun e => PointRec.ofBytes e.2) =
      (List.range 256).map fun k => PointRec.ofBytes (t.points.get k).bytes := by
    have := splitRuns_flatMap (TableId.entryLength .points) (t.entry .points) (t.length_entry .points) 256 0
    rw [← List.range_eq_range'] at this
    rw [show t.bytes .points = (List.range 256).flatMap (t.entry .points) from rfl, this, List.map_map]
    rfl
  unfold Tab.get
  simp only [hs]
  have := h (t.points.get i) ((Tab.mem_list _ _).2 ⟨i, hi, rfl⟩)
  simp [hi]
  exact this

/-- Channels that their bytes carry are read back. -/
theorem Tables.storeRun_own_channels (t u : Tables) (h : ∀ r ∈ t.channels.list, ChannelRec.ofBytes r.bytes = r) :
    u.storeRun .channels 0 512 (t.bytes .channels) = { u with channels := t.channels } := by
  rw [Tables.storeRun_channels]
  congr 1
  apply Tab.ext_get
  intro i hi
  have hs : (splitRuns (TableId.entryLength .channels) 0 512 (t.bytes .channels)).map (fun e => ChannelRec.ofBytes e.2) =
      (List.range 512).map fun k => ChannelRec.ofBytes (t.channels.get k).bytes := by
    have := splitRuns_flatMap (TableId.entryLength .channels) (t.entry .channels) (t.length_entry .channels) 512 0
    rw [← List.range_eq_range'] at this
    rw [show t.bytes .channels = (List.range 512).flatMap (t.entry .channels) from rfl, this, List.map_map]
    rfl
  unfold Tab.get
  simp only [hs]
  have := h (t.channels.get i) ((Tab.mem_list _ _).2 ⟨i, hi, rfl⟩)
  simp [hi]
  exact this

end Sys2Proof.Machine
end

