-- ==== Sys2Proof/Laws/Ops.lean ====
section
/-! SUPPORT. For each shared operation, what it does, said once: requests and their answers, the trunk
interface, the urgent queue, the channel image, the guard level and the bracket. -/

namespace Sys2Proof.Machine

open Sys2Proof

variable {s : State}

/-! ### Requests (R158 to R160) -/

theorem State.passRequest_dead (h : s.live = false) (tag code : Byte) (serve : State → State × Option Answer) :
    s.passRequest tag code serve = s := by simp [State.passRequest, h]

theorem State.passRequest_full (h : s.live = true) (hf : s.replyRoomFull = true) (tag code : Byte)
    (serve : State → State × Option Answer) : s.passRequest tag code serve = s.goodFrame.dropRequest := by
  simp [State.passRequest, h, hf]

theorem State.passRequest_received (h : s.receives) (tag code : Byte) (serve : State → State × Option Answer) :
    s.passRequest tag code serve = (serve s.goodFrame).1.answer tag code (serve s.goodFrame).2 := by
  simp [State.passRequest, h.1, h.2]

theorem State.request_loading (h : s.receives) (hl : s.loader.op = .loading) (tag code : Byte)
    (serve : State → State × Option Answer) :
    s.request tag code serve = s.goodFrame.place tag code .starting [] := by
  simp [State.request, State.passRequest_received h, unlessLoading, hl, State.answer, Answer.plain]

theorem State.request_served (h : s.serves) (tag code : Byte) (serve : State → State × Option Answer) :
    s.request tag code serve = (serve s.goodFrame).1.answer tag code (serve s.goodFrame).2 := by
  simp [State.request, State.passRequest_received h.1, unlessLoading, h.2]

theorem restricted_closed (h : s.bracket.state.isOpen = false) (serve : State → State × Option Answer) :
    restricted serve s = serve s := by simp [restricted, h]

theorem restricted_open (h : s.bracket.state.isOpen = true) (serve : State → State × Option Answer) :
    restricted serve s =
      (s.countOrdinal.abortBracket .restricted (some (satSucc s.bracket.ordinal)) none, some (.plain .aborted)) := by
  simp [restricted, h]

/-! ### The trunk interface (R167 to R170) -/

@[simp] theorem TrunkUnit.startSending_frame (t : TrunkUnit) :
    t.startSending.flags = t.flags ∧ t.startSending.replies = t.replies ∧ t.startSending.reports = t.reports ∧
    t.startSending.silence = t.silence ∧ t.startSending.counters = t.counters := by
  unfold TrunkUnit.startSending
  (repeat' split) <;> simp

@[simp] theorem TrunkUnit.place_frame (t : TrunkUnit) (r : Reply) :
    (t.place r).flags = t.flags ∧ (t.place r).replies = t.replies ++ [r] ∧ (t.place r).reports = t.reports ∧
    (t.place r).silence = t.silence ∧ (t.place r).counters = t.counters := by simp [TrunkUnit.place]

@[simp] theorem TrunkUnit.offerNotice_frame (t : TrunkUnit) (e : Word16) (r : Option AbortRecord) :
    (t.offerNotice e r).replies = t.replies ∧ (t.offerNotice e r).silence = t.silence := by
  unfold TrunkUnit.offerNotice TrunkUnit.raiseDropped
  (repeat' split) <;> simp [TrunkUnit.queueReport]

@[simp] theorem TrunkUnit.raise_frame (t : TrunkUnit) (f : EventFlag) (e : Word16) (r : Option AbortRecord) :
    (t.raise f e r).replies = t.replies ∧ (t.raise f e r).silence = t.silence := by
  unfold TrunkUnit.raise
  (repeat' split) <;> simp

theorem EventFlag.of_or (f : EventFlag) (a b : Word16) : f.of (a ||| b) = (f.of a || f.of b) := by
  simp [EventFlag.of]

@[simp] theorem EventFlag.of_bit (f : EventFlag) : f.of f.bit = true := by cases f <;> rfl

/-- A NOTICE offered clears no flag. -/
theorem TrunkUnit.offerNotice_of {t : TrunkUnit} {g : EventFlag} (h : g.of t.flags = true) (e : Word16)
    (r : Option AbortRecord) : g.of (t.offerNotice e r).flags = true := by
  unfold TrunkUnit.offerNotice TrunkUnit.raiseDropped
  (repeat' split) <;> simp [h, TrunkUnit.queueReport, EventFlag.of_or]

/-- A raise clears no flag. -/
theorem TrunkUnit.raise_keeps {t : TrunkUnit} {g : EventFlag} (h : g.of t.flags = true) (f : EventFlag) (e : Word16)
    (r : Option AbortRecord) : g.of (t.raise f e r).flags = true := by
  unfold TrunkUnit.raise
  split
  · exact h
  · split
    · exact TrunkUnit.offerNotice_of (by simp [EventFlag.of_or, h]) e r
    · simp [EventFlag.of_or, h]

/-- A flag raised is set. -/
theorem TrunkUnit.raise_sets (t : TrunkUnit) (f : EventFlag) (e : Word16) (r : Option AbortRecord) :
    f.of (t.raise f e r).flags = true := by
  unfold TrunkUnit.raise
  split
  · assumption
  · split
    · exact TrunkUnit.offerNotice_of (by simp [EventFlag.of_or]) e r
    · simp [EventFlag.of_or]

theorem TrunkUnit.raiseAborted_keeps {t : TrunkUnit} {g : EventFlag} (h : g.of t.flags = true) (n : Bool) (e : Word16)
    (r : Option AbortRecord) : g.of (t.raiseAborted n e r).flags = true := by
  unfold TrunkUnit.raiseAborted
  split
  · exact TrunkUnit.offerNotice_of (by simp [EventFlag.of_or, h]) e r
  · exact TrunkUnit.raise_keeps h _ e r

/-! ### The urgent queue (R32) -/

theorem mem_removeNode {q : List UrgentEntry} {a : Nat} {e : UrgentEntry} :
    e ∈ removeNode q a ↔ e ∈ q ∧ e.address ≠ a := by simp [removeNode]

/-- A fold of offers leaves what was queued in front. -/
theorem offers_extend (q : List UrgentEntry) (l : List Nat) (r : JoinReason) :
    ∃ joined, l.foldl (fun q n => offerNode q n r) q = q ++ joined ∧ ∀ e ∈ joined, e.reason = r := by
  induction l generalizing q with
  | nil => exact ⟨[], by simp, by simp⟩
  | cons n l ih =>
    obtain ⟨j, h1, h2⟩ := ih (offerNode q n r)
    by_cases h : (q.any fun e => e.address == n) = true
    · have hq : offerNode q n r = q := if_pos h
      exact ⟨j, by rw [List.foldl_cons, h1, hq], h2⟩
    · have hq : offerNode q n r = q ++ [⟨n, r⟩] := if_neg h
      refine ⟨⟨n, r⟩ :: j, by rw [List.foldl_cons, h1, hq]; simp, ?_⟩
      simpa using h2

/-! ### The channel image (R26 to R29) -/

theorem State.writeDemand_idle (h : s.inRun = false) (ch level : Nat) : s.writeDemand ch level = s := by
  simp [State.writeDemand, h]

theorem State.writeDemand_unmapped {ch : Nat} (h : (s.tables.channels.get ch).mapped = false) (level : Nat) :
    s.writeDemand ch level = s := by simp [State.writeDemand, h]

/-- A demand write reaches no other channel. -/
theorem State.writeDemand_other {ch c : Nat} (h : ch ≠ c) (level : Nat) :
    (s.writeDemand ch level).image.get c = s.image.get c := by
  unfold State.writeDemand
  dsimp only
  (repeat' split) <;> simp [h, State.offerUrgent]

/-- All a demand write does to the segment: nothing, or one event noted and its offers made. -/
theorem State.writeDemand_seg (s : State) (ch level : Nat) :
    (s.writeDemand ch level).seg = s.seg ∨ ∃ offers : List Nat, (s.writeDemand ch level).seg = { s.seg with
      urgent := offers.foldl (fun q n => offerNode q n .value) s.seg.urgent
      log := s.seg.log ++ [⟨[(ch, s.image.get ch)], s.seg.urgent.length, offers, .first⟩] } := by
  unfold State.writeDemand
  dsimp only
  split
  · right
    split
    · exact ⟨[], rfl⟩
    · exact ⟨[(s.tables.channels.get ch).node], rfl⟩
  · exact .inl rfl

/-! ### The events of the image (R29, R36) -/

@[simp] theorem relink_length (f : EventLink → EventLink) (l : List ImageEvent) : (relink f l).length = l.length := by
  cases l <;> simp [relink]

/-- What took the image no further changes no link. -/
theorem State.relinked_same {s t : State} (h : t.seg.log = s.seg.log) (f : EventLink → EventLink) :
    s.relinked t f = t := by
  have hl : s.seg.log ++ relink f (t.seg.log.drop s.seg.log.length) = t.seg.log := by simp [h, relink]
  simp only [State.relinked, hl]

/-- Of the events added, the first keeps its link. -/
theorem State.relinked_more {s t : State} {e : ImageEvent} {rest : List ImageEvent}
    (h : t.seg.log = s.seg.log ++ e :: rest) (f : EventLink → EventLink) :
    (s.relinked t f).seg.log = s.seg.log ++ e :: rest.map fun e => { e with link := f e.link } := by
  simp [State.relinked, h, relink]

theorem State.endSlotAmid_settled (h : ∀ e ∈ s.seg.log, e.link ≠ .sameSeries) (receiving : Bool) :
    s.endSlotAmid receiving = s.endSlot receiving := by
  unfold State.endSlotAmid
  rw [if_neg (by simpa using h)]

/-- A start of a slot that falls before the newest `late` events: it composes with the image and the queue before them, and
they are taken behind it. -/
theorem State.endSlotBefore_amid {late : Nat} (h : mayFallBefore late s.seg.log = true) (receiving : Bool) :
    s.endSlotBefore receiving late =
      ((s.backTo (s.seg.log.drop (s.seg.log.length - late))).endSlot receiving).takeLater s.image
        (s.seg.log.drop (s.seg.log.length - late)) := if_pos h

theorem State.endSlotBefore_behind {late : Nat} (h : mayFallBefore late s.seg.log = false) (receiving : Bool) :
    s.endSlotBefore receiving late = s.endSlot receiving := if_neg (by simp [h])

/-! ### The guard level (R57, R58) -/

theorem State.setGuard_same (s : State) : s.setGuard s.watch.guard = s := by simp [State.setGuard]

theorem State.setGuard_guard (s : State) (g : GuardLevel) : (s.setGuard g).watch = { s.watch with guard := g } := by
  unfold State.setGuard
  dsimp only
  (repeat' split) <;> simp_all

/-- An event of the surface watch ends in the run fields of its outcomes and in their guard level. -/
theorem State.watchEvent_watch (s : State) (act : Nat → WatchRec → WatchRun → EntryOutcome) :
    (s.watchEvent act).watch =
      ⟨(watchOutcomes s.tables s.watch.runs act).map EntryOutcome.run,
        guardOf s.tables ((watchOutcomes s.tables s.watch.runs act).map EntryOutcome.run)⟩ := by
  simp [State.watchEvent, State.setGuard_guard]

/-! ### Brackets (R151) -/

theorem State.abortBracket_closed (h : s.bracket.state.isOpen = false) (c : AbortCode) (o : Option Nat)
    (r : Option ResultCode) : s.abortBracket c o r = s := by simp [State.abortBracket, h]

/-- No abort leaves a bracket open. -/
theorem State.abortBracket_closes (s : State) (c : AbortCode) (o : Option Nat) (r : Option ResultCode) :
    (s.abortBracket c o r).bracket.state.isOpen = false := by
  unfold State.abortBracket
  split
  · dsimp only
    split <;> rfl
  · simp_all

/-! ### Slots (R6, R10) -/

theorem State.startSlot_poll (h : (s.tables.slots.get s.seg.slotPos).kind = .poll) (hold : Option Bool) :
    s.startSlot hold = s.settle.transmit hold (.poll (s.tables.slots.get s.seg.slotPos).address) := by
  unfold State.startSlot Machine.startSlot
  simp [h]

theorem State.startSlot_set (h : (s.tables.slots.get s.seg.slotPos).kind = .set) (hold : Option Bool) :
    s.startSlot hold = s.settle.composeSet hold (s.tables.slots.get s.seg.slotPos).address := by
  unfold State.startSlot Machine.startSlot
  simp [h]

end Sys2Proof.Machine
end

