-- ==== Sys2Proof/Tests/Slice0.lean ====
section
/-! SUPPORT. Tests: each well-formedness check refuses an ill-formed command; the worked examples of the spec,
one step each; and, for each statement with hypotheses, states and operands that meet them together. -/

namespace Sys2Proof.Tests

set_option Elab.async false

open Sys2Proof Sys2Proof.Machine

/-! ### Well-formedness -/

/-- R172: a WRITE_TABLE frame has room for 1,016 bytes of content, not for 1,017. -/
theorem test_content_too_long :
    Instr.wellFormed (.writeTable 0 1 0 0 (List.replicate 1016 0)) = true ∧
    Instr.wellFormed (.writeTable 0 1 0 0 (List.replicate 1017 0)) = false := by decide +kernel

/-- R8: a REPORT without items, and one with 13. -/
theorem test_items_out_of_range :
    Instr.wellFormed (.goodReport 5 []) = false ∧
    Instr.wellFormed (.goodReport 5 (List.replicate 12 ⟨0, 0, .ok⟩)) = true ∧
    Instr.wellFormed (.goodReport 5 (List.replicate 13 ⟨0, 0, .ok⟩)) = false := by decide

/-- R2: addresses 0 and 63 are no node's. -/
theorem test_address_out_of_range :
    Instr.wellFormed (.goodReport 0 [⟨0, 0, .ok⟩]) = false ∧ Instr.wellFormed (.refreshExpiry 63) = false ∧
    Instr.wellFormed (.refreshLapse 0) = false ∧ Instr.wellFormed (.refreshLapse 62) = true := by decide

/-- R173 point 7, R176: flaws behind the end of a row's place, and of the image region. -/
theorem test_flaws_out_of_range :
    Instr.wellFormed (.rowWriteComplete [(197, 0)]) = false ∧ Instr.wellFormed (.rowWriteComplete [(196, 0)]) = true ∧
    Instr.wellFormed (.imageSaveComplete [(131072, 0)]) = false ∧
    Instr.wellFormed (.imageSaveComplete [(131071, 0)]) = true := by decide

/-! ### The part of the worked examples -/

/-- The entries of a table changed at the places listed. -/
def puts {α : Type} {n : Nat} (t : Tab α n) (l : List (Nat × α)) : Tab α n := l.foldl (fun t e => t.set e.1 e.2) t

/-- Nodes and slots of 1.7, channels of 2.8, watch entries of 3.14, a station, a sink and a zone. -/
def labTables : Tables :=
  { Tables.empty with
    nodes := puts Tables.empty.nodes [(0, ⟨5, .sensor, 0, 3, 5⟩), (1, ⟨7, .mixed, 30, 2, 3⟩), (2, ⟨12, .actuator, 1, 3, 3⟩)]
    points := puts Tables.empty.points
      [(0, ⟨5, 0, .temp, -400, 600, 30, 0, 0⟩), (1, ⟨5, 1, .rh, 0, 1000, 30, 0, 0⟩),
        (2, ⟨5, 2, .temp, -300, 150, 60, 1, 5⟩)]
    watch := puts Tables.empty.watch
      [(0, ⟨⟨1, 0⟩, .above, 0, 0, 5, .delay, .enter, 100, 0, 0, 0, 0, .warm, 0, .hold, 0⟩),
        (1, ⟨⟨1, 0⟩, .above, 1, 0, 5, .delay, .both, 25, 50, 0, 0, 0, .critical, 0, .trip, 0⟩),
        (2, ⟨⟨1, 0⟩, .above, 0, 0, 5, .pulse, .enter, 0, 0, 10, 0, 0, .advisory, 0, .hold, 0⟩),
        (3, ⟨⟨1, 0⟩, .above, 0, 0, 5, .pulse, .enter, 0, 0, 10, 0, 0, .advisory, 1, .hold, 0⟩),
        (6, ⟨⟨1, 2⟩, .above, 4, 0, 10, .delay, .enter, 5, 0, 0, 0, 0, .advisory, 0, .hold, 1⟩),
        (7, ⟨⟨0, 0⟩, .above, 0, 0, 0, .count, .enter, 0, 0, 0, 3600, 3, .warm, 1, .hold, 0⟩)]
    thresholds := puts Tables.empty.thresholds [(0, -40), (1, -20), (4, -60)]
    channels := puts Tables.empty.channels
      [(100, ⟨.lighting, 12, 0, 0, 1000, 1, 600, 200, 0⟩), (101, ⟨.zones, 12, 1, 0, 1000, 1, 500, 0, 0⟩),
        (102, ⟨.dispatch, 12, 2, 100, 900, 0, 0, 0, 450⟩), (103, ⟨.lighting, 12, 3, 0, 1000, 0, 0, 0, 0⟩),
        (104, ⟨.zones, 12, 4, 0, 1000, 0, 0, 0, 0⟩), (105, ⟨.fog, 12, 5, 0, 1000, 0, 0, 0, 0⟩),
        (140, ⟨.supervisor, 7, 0, 300, 1000, 1, 400, 150, 500⟩)]
    fogMap := puts Tables.empty.fogMap [(7, ⟨⟨1, 1⟩, ⟨1, 0⟩, ⟨1, 2⟩⟩)]
    fogTune := puts Tables.empty.fogTune [(7, ⟨30, 10, 5, 150, 180, ⟨1, 105⟩, 800, 0, 0, 0x0FFF, 5⟩)]
    dehumid := ⟨600, 900⟩
    sinkMap := puts Tables.empty.sinkMap [(7, ⟨.zones, 600, ⟨1, 102⟩, 0, 0⟩)]
    dispatch := ⟨⟨0, 0⟩, ⟨0, 0⟩, ⟨0, 0⟩, 3900, .timer, 0, 30⟩
    zoneMap := puts Tables.empty.zoneMap [(15, ⟨⟨1, 0⟩, 104, 101, 150, 100, 0⟩)]
    zoneSet := puts Tables.empty.zoneSet [(15, ⟨180, 150, 1, 20, 0⟩)]
    scheduleHead := ⟨6, 0, 20⟩
    slots := puts Tables.empty.slots
      [(0, ⟨.poll, 5⟩), (1, ⟨.set, 12⟩), (2, ⟨.free, 0⟩), (3, ⟨.poll, 7⟩), (4, ⟨.free, 0⟩), (5, ⟨.poll, 5⟩)]
    profile := ⟨50, .linear⟩ }

/-- In RUN with guard level NORMAL, the demands of 2.8 and an idle transmitter. -/
def lab : State :=
  { State.reset with
    loader := ⟨.run, .notLoaded⟩
    tables := labTables
    trunk := { TrunkUnit.initial with flags := 0, reports := [], sending := .idle }
    image := puts State.reset.image
      [(100, ⟨850, 850⟩), (101, ⟨700, 700⟩), (102, ⟨450, 450⟩), (140, ⟨500, 500⟩)] }

/-- The same in CONFIG. -/
def bench : State := { lab with loader := ⟨.config, .notLoaded⟩ }

/-- What a command leaves. -/
def after (c : Instr) (s : State) : State :=
  match exec c s with
  | .next t => t
  | .fault _ => s
  | .refused _ => s

/-! ### Chapter 1: the schedule of 1.7 -/

/-- Slot 0: the REPORT makes node 5 ONLINE, and slot 1 composes SET 12, which leaves the queue. -/
theorem test_report_and_set :
    let s := { lab with seg := { lab.seg with phase := .awaiting 5, urgent := [⟨7, .start⟩, ⟨12, .start⟩] } }
    let t := after (.goodReport 5 [⟨9, 0, .ok⟩]) s
    (t.seg.nodes.get 0).state = .online ∧ t.seg.urgent = [⟨7, .start⟩] ∧ t.seg.slotPos = 1 ∧
      t.trunk.flags = 0x0040 := by decide +kernel

/-- Node 7 becomes SILENT at its second miss and OFFLINE at its third. -/
theorem test_misses :
    let m := lab.tables.nodes.get 1
    let a := m.missed .initial
    let b := m.missed a
    (a.state, b.state, (m.missed b).state) = (.unknown, .silent, .offline) := by decide +kernel

/-- The expiry of the reply timer ends the slot with a miss. -/
theorem test_reply_timeout :
    let s := { lab with seg := { lab.seg with phase := .awaiting 5, slotPos := 5, replyTimer := some 0 } }
    let t := after (.replyTimeout false) s
    (t.seg.nodes.get 0).misses = 1 ∧ t.seg.slotPos = 0 ∧ t.seg.phase = .sendingPoll 5 := by decide +kernel

/-- 1.8, third REPORT: 155 is clamped to the high limit 150 and SUSPECT; the change is forwarded. -/
theorem test_uplink :
    let t := (lab.takeItems 5 [⟨2, 155, .ok⟩])
    (t.points.runs.get 2).value = some 150 ∧ (t.points.runs.get 2).quality = .suspect ∧
      t.trunk.reports = [.uplink [⟨2, some 150, .suspect⟩]] := by decide +kernel

/-! ### Chapter 2: the guard excursion of 2.8 -/

/-- The rise to WARM: commanded values 600, 500, 450, 400, and the nodes 12 and 7 in the queue. -/
theorem test_guard_warm :
    let t := lab.setGuard .warm
    ([100, 101, 102, 140].map fun c => (t.image.get c).commanded) = [600, 500, 450, 400] ∧
      t.seg.urgent = [⟨12, .value⟩, ⟨7, .value⟩] ∧
      (t.setPairs 12).take 3 = [(0, 600), (1, 500), (2, 450)] := by decide +kernel

/-- The rise to CRITICAL: 200, 0, 450, 150. -/
theorem test_guard_critical :
    ([100, 101, 102, 140].map fun c => ((lab.setGuard .critical).image.get c).commanded) = [200, 0, 450, 150] := by
  decide +kernel

/-- 2.9: node 12, with a refresh period of 1 s, lapses when its age exceeds 2,000 ms. -/
theorem test_lapse : (lab.tables.nodes.get 2).lapseMs = 2001 ∧ (lab.tables.nodes.get 2).refreshMs = 1000 := by
  decide +kernel

/-! ### Chapter 3: the entries of 3.14 and 3.15 -/

/-- 15 s: −38 starts the qualification of entry 0; 25 s: −42 keeps it true; 285 s: −46 clears it. -/
theorem test_hysteresis :
    let r := lab.tables.watch.get 0
    let l := lab.tables.limitsOf r
    (r.evaluate l (-38) false, r.evaluate l (-42) true, r.evaluate l (-46) true) = (true, true, false) := by
  decide +kernel

/-- 170 s: the qualify expiry of entry 1 trips it and raises the guard level to CRITICAL. -/
theorem test_qualify_expiry :
    let s := { lab with watch := { lab.watch with
      runs := lab.watch.runs.set 1 ⟨true, .qualifying, 0, some 0, false⟩ } }
    let t := after (.qualifyExpiry 1) s
    (t.watch.runs.get 1).state = .tripped ∧ t.watch.guard = .critical ∧ t.trunk.flags = 0x0002 := by decide +kernel

/-- 195 s: −24, taken plainly after a loss of use, puts entry 1 from TRIPPED into RELEASING. -/
theorem test_regain :
    let r := lab.tables.watch.get 1
    (r.valueUpdate (lab.tables.limitsOf r) (-24) ⟨true, .tripped, 0, none, true⟩).run =
      ⟨false, .releasing, 0, some 50000, false⟩ := by decide +kernel

/-- 3.15 at 7,200 s: the window of entry 7 ends with one trip counted, and the entry latches. -/
theorem test_window_latches :
    (lab.tables.watch.get 7).windowEnds true ⟨false, .tripped, 1, some 0, false⟩ =
      ⟨⟨false, .latched, 0, some 3600000, false⟩, false, true⟩ := by decide +kernel

/-! ### Chapter 4: 4.4.1 and 4.10 -/

/-- 4.4.1: the vapour pressure, and the dew point between two entries of the table. -/
theorem test_dew_point :
    vapourPressure (15981 + (17056 - 15981) * 3 / 10) 625 = 10189 ∧
      dewPoint (puts (Tab.replicate 101 20000) ((List.range 47).map (fun i => (i, i + 1)) ++ [(47, 10016), (48, 10728)]))
        10189 = ⟨72, false, false⟩ := by decide +kernel

/-- 4.10: margins 8, 13, 16 and 25 with W = 30, K = 10, Hy = 5. -/
theorem test_fog_states :
    let r := lab.tables.fogTune.get 7
    (r.nextState .clear 8, r.nextState .risk 13, r.nextState .risk 16, r.nextState .clear 25) =
      (.risk, .risk, .watch, .watch) := by decide +kernel

/-- 4.10: the RISK pattern is on at step 11 and off at step 12. -/
theorem test_fan_pattern :
    let r := lab.tables.fogTune.get 7
    (r.fanDemand .risk 11, r.fanDemand .risk 12) = (800, 0) := by decide +kernel

/-- R77 pair 1: the demand falls to 0 and the run timer expires, taken in either order. -/
theorem test_fall_and_run_expiry :
    let s := { lab with fog := { lab.fog with unitState := .running, runTimer := some 0, demand := 150 } }
    let clear := fun s : State =>
      { s with fog := { s.fog with stations := s.fog.stations.set 7 ⟨.clear, none, none, false, false, 0, none⟩ } }
    let fallFirst := (clear s).publishFog.runTimerEnds
    let expiryFirst := (clear s.runTimerEnds).publishFog
    fallFirst.fog = expiryFirst.fog ∧ fallFirst.fog.unitState = .resting ∧ fallFirst.fog.served = true ∧
      fallFirst.fog.restTimer = some 900000 := by decide +kernel

/-! ### Chapters 5 and 6: the turnover of 5.13 and 6.13 -/

/-- The claims of the five sinks. -/
def claims : List Claim := [⟨0, 40, 1, 0⟩, ⟨1, 180, 3, 1⟩, ⟨2, 420, 4, 1⟩, ⟨3, 150, 1, 2⟩, ⟨4, 200, 1, 3⟩]

/-- The heat available and the grants of the passes at 1,830 s and 1,860 s. -/
theorem test_dispatch :
    heatAvailable 135 385 290 3900 = 500 ∧ heatAvailable 100 385 290 3900 = 370 ∧
    (List.range 5).map (grantOf (allocate 500 claims)) = [40, 180, 280, 0, 0] ∧
    (List.range 5).map (grantOf (allocate 370 claims)) = [40, 142, 188, 0, 0] := by decide

/-- The valves of the first pass. -/
theorem test_valves :
    (valveStep 150 200 100, valveStep 700 600 50, valveStep 300 466 100, valveStep 100 0 200) = (200, 650, 400, 0) := by
  decide

/-- The splits of 280 and of 188 kW. -/
theorem test_split :
    let o := puts (Tab.replicate 16 0) [(0, 120), (1, 200), (2, 100)]
    (splitShares 280 o).take 4 = [81, 133, 66, 0] ∧ splitResidual 280 o = 1 ∧
      (splitShares 188 o).take 4 = [54, 90, 44, 0] ∧ splitResidual 188 o = 2 := by decide +kernel

/-! ### Chapters 7 and 8: 7.7 and 8.12 -/

/-- A row of one pair and its default fade time, well formed. -/
def rowContent : List Byte := [1, 0, 103, 1, 144, 0, 10]

/-- 7.7 at 12 ms: with two long requests in progress a third is refused BUSY; at 30 ms a row that is active is
refused ROW_ACTIVE first. -/
theorem test_row_refusals :
    let q := [MemOp.rowRead 1 0 1, .rowRead 2 0 2]
    let busy := { lab with store := { lab.store with queue := q } }
    let active := busy.setBank 1 { Bank.initial with state := .activating, row := some 7 }
    ((after (.writeTable 9 0x12 0x0001 1 rowContent) busy).trunk.replies = [⟨9, 4, .busy, []⟩]) ∧
      (after (.writeTable 9 0x12 0x0107 1 rowContent) active).trunk.replies = [⟨9, 4, .rowActive, []⟩] := by
  decide +kernel

/-- 8.12: the steps of both curves. -/
theorem test_fade_levels :
    [1, 2, 3, 4].map (fadeLevel .linear 1000 400 · 4) = [850, 700, 550, 400] ∧
    [1, 2, 3, 4].map (fadeLevel .square 0 1000 · 4) = [62, 250, 562, 1000] := by decide

/-- 8.12 at 0 ms: a CUE of 0.2 s starts engine 0 with four steps from the demands that stand. -/
theorem test_cue_starts :
    let s := lab.setBank 0
      { Bank.initial with state := .active, row := some 2, pairs := [(100, 1000), (103, 400)], fade := 10 }
    let t := after (.cue 1 0 2 (some 2) false) s
    (t.engine 0).total = 4 ∧ (t.engine 0).held = [⟨100, 850, 1000⟩, ⟨103, 0, 400⟩] ∧
      t.trunk.replies = [⟨1, 0x0C, .done, []⟩] ∧ (t.image.get 100).demand = 850 := by decide +kernel

/-! ### Chapter 9: 9.10 -/

/-- The bracket of 9.10.1 as its first request leaves it. -/
def bracketOpen : State := after (.openBracket 1 .openKind 0 false true) lab

/-- 250 lies below the floor of 300: staged as 300, CLAMPED with ordinal 1, and not yet written. -/
theorem test_stage_clamped :
    let t := after (.setChannel 2 140 250 false) bracketOpen
    t.bracket.stage = [⟨1, .setChannel 140 300⟩] ∧ t.image.get 140 = ⟨500, 500⟩ ∧
      t.trunk.replies.getLast? = some ⟨2, 0x0A, .clamped, [0, 1]⟩ := by decide +kernel

/-- 9.10.2: the refusal OWNED aborts a STRICT bracket, with the record of the example. -/
theorem test_strict_refusal :
    let s := { lab with bracket := { BracketUnit.initial with
      state := .counted 3 1, kind := .countedKind, strict := true, ordinal := 1, openMs := 2000,
      stage := [⟨1, .cue 0 2 none false⟩] } }
    let t := after (.setChannel 2 100 500 false) s
    t.bracket.state = .aborted 1 ∧
      t.bracket.record = some ⟨.strictRefusal, .countedKind, 1, 1, some 2, some .owned, .normal, 20⟩ ∧
      t.trunk.replies = [⟨2, 0x0A, .owned, []⟩] := by decide +kernel

/-! ### Chapter 10: 10.9 -/

/-- A request that finds 7 replies and one reserved place is dropped, and its flag's NOTICE takes place 15. -/
theorem test_request_dropped :
    let s := { lab with
      store := { lab.store with queue := [.rowRead 20 1 7] }
      trunk := { lab.trunk with
        replies := List.replicate 7 ⟨21, 2, .done, []⟩
        reports := List.replicate 14 (.uplink [])
        sending := .report } }
    let t := after (.readStatus 28) s
    t.trunk.replies.length = 7 ∧ t.trunk.reports.length = 15 ∧ t.trunk.flags = 0x2000 ∧
      t.trunk.counters = ⟨1, 0, 1, 0, 0⟩ := by decide +kernel

/-- R168: with the queue full, the rise of UPLINK_DROPPED drops its own NOTICE. -/
theorem test_uplink_dropped :
    let t := ({ lab.trunk with reports := List.replicate 16 (.uplink []) }).offerUplink [] 0xFFFF
    t.2 = false ∧ t.1.flags = 0x1000 ∧ t.1.counters = ⟨0, 0, 0, 1, 1⟩ := by decide +kernel

/-- R172: the frame of a READ_INFO, read back. -/
theorem test_frame_read_back :
    (encodeTrunkFrame (.readInfo 7)).map (decodeTrunkFrame false) = some (.readInfo 7) := by decide +kernel

/-- R158: two bytes before the start mark are ignored, and the frame behind them is whole; its first bytes alone are
a bad frame. -/
theorem test_bytes_before_a_start_mark :
    let frame := (encodeTrunkFrame (.readInfo 7)).getD []
    receiveTrunk false [] ([0, 1] ++ frame ++ [2]) = [.readInfo 7] ∧
      receiveTrunk false [] ([0, 1] ++ frame.take 4) = [.trunkBadFrame] := by decide +kernel

/-- R172: a REPORT behind a stray byte, a POLL frame heard behind it at once, and the start of a third frame that the gap
ends; and a frame of kind 20h, which runs to the gap. -/
theorem test_field_frames_found :
    let report := encodeReport 5 [⟨1, 2, .ok⟩]
    receiveField false [] ([7] ++ report ++ [0x5A, 5, 0x10, 0, 1, 2] ++ [0x5A, 5]) =
        [.goodReport 5 [⟨1, 2, .ok⟩], .fieldBadFrame, .fieldBadFrame] ∧
      receiveField false [] ([0x5A, 5, 0x20, 1] ++ report) = [.fieldBadFrame] ∧
      receiveField true (report.take 3) (report.drop 3) = [.ignoredFieldFrameEnd] := by decide +kernel

/-- R173 point 5: behind presence byte 0 the value bytes are 0. -/
theorem test_absent_value :
    OptNum.ofBytes [0, 1, 2] 0 = ⟨0, 0⟩ ∧ OptNum.bytes ⟨0, 258⟩ = [0, 0, 0] ∧ OptNum.ofBytes [1, 1, 2] 0 = ⟨1, 258⟩ := by
  decide

/-! ### Chapter 11 -/

/-- R175: a power-on at BOOT = AUTO starts in LOADING with RESET_SEEN and its NOTICE. -/
theorem test_power_on :
    let t := after (.powerOn ⟨.auto, false, false⟩ 0) State.reset
    t.loader = ⟨.loading, .notLoaded⟩ ∧ t.power.cause = .power ∧ t.trunk.flags = 1 := by decide +kernel

/-- R177 stage 1: a memory in which nothing was written holds no signature. -/
theorem test_load_fails :
    (after (.imageLoad false) (after (.powerOn ⟨.auto, false, false⟩ 0) State.reset)).loader =
      ⟨.config, .invalid .noSignature⟩ := by decide +kernel

/-! ### States and operands that meet the hypotheses of the statements -/

theorem serves_of {s : State} (h : (s.live && !s.replyRoomFull && s.loader.op != .loading) = true) : s.serves := by
  simp only [Bool.and_eq_true, Bool.not_eq_true', bne_iff_ne] at h
  exact ⟨h.1, h.2⟩

theorem lab_serves : lab.serves := serves_of (by decide)

theorem bench_serves : bench.serves := serves_of (by decide)

/-- `lab` with an open bracket. -/
def labOpen : State := { lab with bracket := { BracketUnit.initial with state := .opened 1, timer := some 0 } }

/-- `lab` with a COUNTED bracket. -/
def labCounted : State := { lab with bracket := { BracketUnit.initial with state := .counted 8 0, kind := .countedKind } }

/-- `lab` with an aborted bracket. -/
def labAborted : State := { lab with bracket := { BracketUnit.initial with state := .aborted 1 } }

theorem labOpen_serves : labOpen.serves := serves_of (by decide)

theorem labCounted_serves : labCounted.serves := serves_of (by decide)

theorem labAborted_serves : labAborted.serves := serves_of (by decide)

/-- `lab` with operations in the memory port queue. -/
def labQueue (q : List MemOp) : State := { lab with store := { lab.store with queue := q } }

/-- `lab` with the run fields of one watch entry put. -/
def withWatch (k : Nat) (w : WatchRun) (s : State) : State :=
  { s with watch := { s.watch with runs := s.watch.runs.set k w } }

theorem witness_StepRunsFront : ({ lab with pending := [.readInfo 0] } : State).pending = .readInfo 0 :: [] := rfl

theorem witness_CommandsAnswer :
    exec .trunkBadFrame lab = .next (after .trunkBadFrame lab) ∧ Instr.restarts .trunkBadFrame = false ∧
    (∀ f, Instr.trunkBadFrame ≠ .rowWriteComplete f) ∧ (∀ f, Instr.trunkBadFrame ≠ .imageSaveComplete f) ∧
    (∀ f, Instr.trunkBadFrame ≠ .imageLoad f) ∧ (∀ a b c d e, Instr.trunkBadFrame ≠ .writeTable a b c d e) ∧
    (∀ a b c d e, Instr.trunkBadFrame ≠ .setZone a b c d e) ∧ (∀ a b, Instr.trunkBadFrame ≠ .enterRun a b) ∧
    (∀ a, Instr.trunkBadFrame ≠ .enterConfig a) ∧ lab.bracket.stage = [] := by
  refine ⟨rfl, rfl, ?_, ?_, ?_, ?_, ?_, ?_, ?_, rfl⟩ <;> intros <;> exact Instr.noConfusion

theorem witness_IdleStep :
    lab.pending = [] ∧ lab.due = none ∧ lab.live = true ∧ lab.inRun = true ∧
    bench.pending = [] ∧ bench.due = none ∧ bench.live = true ∧ bench.inRun = false ∧
    ({ lab with trunk := { lab.trunk with silence := some 0 } } : State).due = some .trunkSilenceExpiry := by
  decide +kernel

/-- Section 5.3, R18, R35: a timer at 0, an age at its bound and a waiting completion are due, one of them at a time, and none
in CONFIG. -/
theorem test_due :
    let s := { lab with fog := { lab.fog with runTimer := some 0 } }
    let u := { s with seg := { s.seg with nodes := puts s.seg.nodes [(2, ⟨.unknown, 0, 2001, false, true⟩)] } }
    s.due = some .dehumidRunExpiry ∧ u.due = some (.refreshLapse 12) ∧
      ({ lab with store := { lab.store with completions := [3] } } : State).due = some (.activationDelivery 3) ∧
      ({ u with loader := ⟨.config, .notLoaded⟩ } : State).due = none := by decide +kernel

theorem witness_ResetsStart :
    let s := { lab with trunk := { lab.trunk with replies := [⟨1, 9, .done, []⟩], sending := .reply } }
    s.power.pinAsserted = false ∧ s.power.supply = true ∧ s.live = true ∧ s.trunk.sending = .reply ∧
      s.trunk.replies = ⟨1, 0x09, .done, []⟩ :: [] := by decide

/-- A part without supply whose RESET pin is asserted. -/
theorem witness_ResetsStart_held :
    let s := { lab with power := { lab.power with supply := false, pinAsserted := true } }
    s.power.pinAsserted = true ∧ s.power.supply = false := by decide

/-- The last place of every table of run values. -/
theorem witness_ResetValues : 31 < 32 ∧ 7 < 8 ∧ 47 < 48 ∧ 255 < 256 ∧ 511 < 512 ∧ 15 < 16 ∧ 3 < 4 ∧
    100 < 101 ∧ 127 < 128 := by decide

theorem witness_HeldInReset :
    lab.power.supply = true ∧ (after (.powerFails 0) lab).live = false ∧
      (after (.resetPinAsserted 0) lab).live = false ∧ Instr.external (.readInfo 0) = false := by decide

/-- The check is stored whole with byte write 9, not with byte write 8. -/
theorem witness_CutRowWrite :
    3 < 4 ∧ 31 < 32 ∧ wellFormedContent rowContent = true ∧
    (labQueue [.rowWrite 1 3 31 rowContent]).store.queue = .rowWrite 1 3 31 rowContent :: [] ∧
    8 < rowContent.length + 2 ∧ rowContent.length + 2 ≤ 9 ∧ 126 ≠ placeIndex 3 31 := by decide +kernel

theorem witness_CutSaveLeavesNoImage :
    let s := labQueue [.imageSave 1 labTables]
    let t := after (.powerFails 3) s
    let u := after (.powerOn ⟨.auto, true, false⟩ 0) t
    Memory.wf s.memory.image ∧ s.power.pinAsserted = false ∧ s.store.queue = .imageSave 1 labTables :: [] ∧
      exec (.powerFails 3) s = .next t ∧ exec (.powerOn ⟨.auto, true, false⟩ 0) t = .next u ∧
      exec (.imageLoad false) u = .next (after (.imageLoad false) u) :=
  ⟨reset_memory_wf, rfl, rfl, rfl, rfl, rfl⟩

theorem witness_FramesAnswered : lab.live = true ∧ lab.serves ∧ lab.receives := ⟨rfl, lab_serves, lab_serves.1⟩

theorem witness_InfoReply : lab.receives := lab_serves.1

/-- Entry 47 of NODES is in the table, entry 48 is not; codes 0 and 1 name no table and NODES. -/
theorem witness_ReadsAnswered :
    lab.receives ∧ lab.serves ∧ TableId.ofCode (0 : Byte).toNat = none ∧
      TableId.ofCode (1 : Byte).toNat = some .nodes ∧ TableId.nodes ≠ .scenes ∧
      runInTable .nodes (47 : Word16).toNat (1 : Word16).toNat = true ∧
      runInTable .nodes (48 : Word16).toNat (1 : Word16).toNat = false :=
  ⟨lab_serves.1, lab_serves, by decide, by decide, by decide, by decide, by decide⟩

/-- A run of CHANNELS that one reply holds, and one of CHANNEL_VALUES that goes on at its entry 202. -/
theorem witness_ReadsAnswered_runs :
    (runCount .channelValues 0 0 = 512 ∧ 202 < 512 ∧
      (((List.range 512).map fun k => (lab.tableEntry .channelValues k).length).take 202).sum = 1010 ∧
      (((List.range 512).map fun k => (lab.tableEntry .channelValues k).length).take 203).sum = 1015) ∧
    (runCount .channels 500 12 = 12 ∧ 12 * 16 ≤ 1012) ∧ (TableId.nodes ∈ TableId.stored ∧ 15 < 16) := by decide +kernel

/-- SCENES read at the last row, behind it, and with the long requests at their most; runs at the end of CHANNELS. -/
theorem witness_ReadsAnswered_scenes :
    (TableId.ofCode 18 = some .scenes ∧ 0x031F / 256 < 4 ∧ 0x031F % 256 < 32 ∧ ¬ 0x0320 % 256 < 32 ∧ ¬ 0x0400 / 256 < 4) ∧
      (labQueue [.rowRead 1 0 0, .rowRead 2 0 0]).longBarred = true ∧
      (runInTable .channels 511 1 = true ∧ runInTable .channels 511 0 = true ∧ runInTable .channels 511 2 = false ∧
        runInTable .channels 512 0 = false) := by decide +kernel

/-- The last entry of each read-only table by its form, a queue with every kind of operation, and both forms of the
abort record. -/
theorem witness_ReadsAnswered_entries :
    (7 < 8 ∧ 3 < 4 ∧ lab.receives) ∧ lab.bracket.record = none ∧
      (labOpen.abortBracket .strictRefusal (some 1) (some .owned)).bracket.record.isSome = true ∧
      (labQueue [.activate 3 31, .rowWrite 1 3 31 [], .rowRead 2 0 1, .imageSave 3 labTables]).tableEntry .bankState 8 =
        [4, 0, 1, 0, 3, 1, 0, 31, 1, 1, 1, 0, 3, 1, 0, 31, 0, 2, 1, 0, 0, 1, 0, 1, 0, 3, 0, 0, 0, 0, 0, 0, 0] :=
  ⟨⟨by decide, by decide, lab_serves.1⟩, rfl, rfl, by decide +kernel⟩

theorem witness_LongRequestsJoin :
    (lab.serves ∧ lab.longBarred = false ∧ sceneInRange (sceneBank 0x031F) (sceneRow 0x031F) = true ∧
      lab.bracket.state.isOpen = false ∧ lab.saving = false ∧ lab.tables.rowRefusal rowContent = none ∧
      lab.rowActive (sceneBank 0x031F) (sceneRow 0x031F) = false) ∧
    (bench.serves ∧ bench.longBarred = false ∧ bench.bracket.state.isOpen = false ∧ bench.inRun = false ∧
      bench.saving = false) :=
  ⟨⟨lab_serves, by decide +kernel⟩, bench_serves, by decide⟩

/-- SAVE_IMAGE in RUN, with a save in progress, with two long requests in progress and with the port queue full. -/
theorem witness_LongRequestsJoin_refused :
    let at_ := fun q => ({ bench with store := { bench.store with queue := q } } : State)
    let save := at_ [.activate 0 0, .imageSave 1 labTables]
    let long := at_ [.rowRead 1 0 0, .rowRead 2 0 0]
    let full := at_ (List.replicate 8 (.activate 0 0))
    (lab.servesFreely ∧ lab.inRun = true) ∧ (save.servesFreely ∧ save.inRun = false ∧ save.saving = true) ∧
      (long.servesFreely ∧ long.inRun = false ∧ long.longBarred = true ∧ long.saving = false) ∧
      (full.servesFreely ∧ full.inRun = false ∧ full.longBarred = true ∧ full.saving = false) :=
  ⟨⟨⟨lab_serves, by decide⟩, by decide⟩, ⟨⟨serves_of (by decide), by decide⟩, by decide⟩,
    ⟨⟨serves_of (by decide), by decide⟩, by decide⟩, ⟨serves_of (by decide), by decide⟩, by decide⟩

theorem witness_WritesInConfig :
    bench.servesFreely ∧
    (bench.loader.op = .config ∧ bench.saving = false ∧ TableId.ofCode (8 : Byte).toNat = some .channels ∧
      TableId.channels.tableClass ≠ .readOnly ∧ TableId.channels ≠ .scenes ∧
      runMatches .channels (511 : Word16).toNat (1 : Word16).toNat (List.replicate 16 1) = true) ∧
    (511 < 512 ∧ (List.replicate 16 (1 : Byte)).length = 16 ∧ 510 ≠ 511) :=
  ⟨⟨bench_serves, by decide⟩, by decide +kernel, by decide⟩

/-- A run over the last entries of NODES; an entry with a refresh period and silent limit 0, and one with silent limit 3 and
no refresh period; the bounds of the run values. -/
theorem witness_WritesInConfig_entries :
    (TableId.nodes.tableClass = .structural ∧ TableId.zoneSet.tableClass = .tunable ∧ 46 + 2 ≤ TableId.nodes.entries ∧
      (List.replicate 18 (0 : Byte)).length = TableId.nodes.runLength 46 2 ∧ TableId.zoneSet ≠ .nodes ∧
      14 + 2 ≤ TableId.zoneSet.entries ∧ (List.replicate 18 (0 : Byte)).length = TableId.zoneSet.runLength 14 2) ∧
    (let e : List Byte := [0, 7, 1, 0, 30, 0, 0, 0, 5]; (e.drop 5).take 2 = [0, 0] ∧ e ≠ List.replicate 9 0) ∧
    (let e : List Byte := [0, 7, 0, 0, 0, 0, 3, 0, 5]; ¬ (e.drop 5).take 2 = [0, 0]) ∧
    (7 < 8 ∧ 8 ≤ 8 ∧ TableId.zoneSet ∉ [TableId.nodes, .points, .channels, .watch, .fogMap]) := by decide +kernel

/-- R2, R173: of node 7 with refresh period 30 the silent limit 0, in bytes 5 and 6, is held as 3; of node 7 with silent
limit 3 the refresh period 0, in bytes 3 and 4, is held as written. -/
theorem test_silent_limit :
    (labTables.storeRun .nodes 46 1 [0, 7, 1, 0, 30, 0, 0, 0, 5]).nodes.get 46 = ⟨7, .actuator, 30, 3, 5⟩ ∧
    (labTables.storeRun .nodes 46 1 [0, 7, 0, 0, 0, 0, 3, 0, 5]).nodes.get 46 = ⟨7, .sensor, 0, 3, 5⟩ := by
  decide +kernel

/-- Each refusal of a WRITE_TABLE: no table, a read-only one, a save, a run that does not fit, a structural table in
RUN, and a scene row out of range, unfit, active, or with the long requests at their most. -/
theorem witness_WritesInConfig_refused :
    (lab.servesFreely ∧ bench.servesFreely) ∧
    (TableId.ofCode 0 = none ∧ TableId.ofCode 20 = some .nodeState ∧ TableId.nodeState.tableClass = .readOnly) ∧
    (TableId.ofCode 8 = some .channels ∧ TableId.channels.tableClass = .structural ∧ lab.inRun = true ∧
      lab.saving = false ∧ runMatches .channels 511 1 (List.replicate 16 1) = true ∧
      runMatches .channels 512 1 (List.replicate 16 1) = false ∧ runMatches .channels 511 1 (List.replicate 15 1) = false) ∧
    ({ bench with store := { bench.store with queue := [.imageSave 1 labTables] } } : State).saving = true ∧
    (TableId.ofCode 18 = some .scenes ∧ 3 < 4 ∧ 31 < 32 ∧ (lab.tables.rowRefusal [0]).isSome = true ∧
      lab.tables.rowRefusal rowContent = none ∧
      ((lab.setBank 3 { Bank.initial with state := .active, row := some 31 }).bank 3).row = some 31 ∧
      (labQueue [.rowRead 1 0 0, .rowRead 2 0 0]).longBarred = true) :=
  ⟨⟨⟨lab_serves, by decide⟩, bench_serves, by decide⟩, by decide, by decide +kernel, by decide, by decide +kernel⟩

/-- An entry of SINK_MAP whose input has presence byte 0 with value bytes behind it. -/
theorem witness_WritesInConfig_presence :
    let e : List Byte := [0, 0, 0, 0, 9, 9, 0, 0, 0]
    TableId.sinkMap.tableClass = .structural ∧ (7, e) ∈ splitRuns TableId.sinkMap.entryLength 7 1 e ∧
      (labTables.storeRun .sinkMap 7 1 e).entry .sinkMap 7 = [0, 0, 0, 0, 0, 0, 0, 0, 0] := by decide +kernel

/-- A row content too short, one whose second pair repeats a channel, one with fade time 6001, one whose second channel
is the supervisor's, and one that fits. -/
theorem witness_WritesInConfig_rows :
    let pairs := fun (second : List Byte) (fade : List Byte) => [2, 0, 103, 1, 144] ++ second ++ fade
    labTables.rowRefusal [1, 0, 103] = some (.badEntry none) ∧
      labTables.rowRefusal (pairs [0, 103, 0, 1] [0, 0]) = some (.badEntry (some 1)) ∧
      labTables.rowRefusal (pairs [0, 100, 0, 1] [0x17, 0x71]) = some (.badEntry none) ∧
      labTables.rowRefusal (pairs [0, 140, 0, 1] [0x17, 0x70]) = some (.badEntry (some 1)) ∧
      labTables.rowRefusal (pairs [0, 100, 0, 1] [0x17, 0x70]) = none := by decide +kernel

/-- 600 s and 60 s are in range, 601 s is not. -/
theorem witness_TimersInRun :
    (lab.servesFreely ∧ lab.inRun = true ∧ lab.saving = false) ∧
    (1 ≤ (2 : Byte).toNat * 256 + (0x58 : Byte).toNat ∧ (2 : Byte).toNat * 256 + (0x58 : Byte).toNat ≤ 600 ∧
      1 ≤ (0 : Byte).toNat * 256 + (60 : Byte).toNat ∧ (0 : Byte).toNat * 256 + (60 : Byte).toNat ≤ 60) ∧
    600 < (2 : Byte).toNat * 256 + (0x59 : Byte).toNat :=
  ⟨⟨⟨lab_serves, by decide⟩, by decide⟩, by decide, by decide⟩

/-- The lower bounds: 1 s and 1 s are in range, 0 s and 61 s are not. -/
theorem witness_TimersInRun_bounds :
    (1 ≤ (0 : Byte).toNat * 256 + (1 : Byte).toNat ∧ (0 : Byte).toNat * 256 + (1 : Byte).toNat ≤ 60) ∧
      (0 : Byte).toNat * 256 + (0 : Byte).toNat < 1 ∧ 60 < (0 : Byte).toNat * 256 + (61 : Byte).toNat := by decide

/-- Content for the last entry of each other tunable table, and lighting at rest and not. -/
theorem witness_TimersInRun_runs :
    (runMatches .thresholds 31 1 [0, 0] = true ∧ runMatches .fogTune 7 2 (List.replicate 27 0) = true ∧
      runMatches .sinkTune 7 1 (List.replicate 12 0) = true ∧ runMatches .dispatch 0 1 (List.replicate 16 0) = true ∧
      runMatches .zoneSet 15 1 (List.replicate 9 0) = true ∧ runMatches .lightProfile 0 1 [0, 20, 0] = true) ∧
    (∀ b, b < 4 → (lab.bank b).state = .idle ∧ (lab.engine b).state = .free) ∧
    (∃ b, b < 4 ∧ (((lab.setBank 3 { Bank.initial with state := .closing }).bank b).state ≠ .idle ∨
      (lab.engine b).state ≠ .free)) :=
  ⟨by decide +kernel, by decide, 3, by decide⟩

/-- `labTables` with an OUTSIDE entry 5 at the limits of thresholds 0 and 1, which are −40 and −20. -/
def bandTables (h : Nat) : Tables :=
  let entry : WatchRec := ⟨⟨1, 0⟩, .outside, 0, 1, h, .delay, .enter, 0, 0, 0, 0, 0, .advisory, 0, .hold, 0⟩
  { labTables with watch := labTables.watch.set 5 entry }

/-- Its band is not empty with hysteresis 10, and empty with 11; no other entry is of that compare. -/
theorem witness_TimersInRun_band :
    let empties := fun (t : Tables) k => k < 32 ∧ t.chained k = false ∧ (t.watch.get k).point.given = true ∧
      (t.watch.get k).compare = .outside ∧ t.thresholds.get (t.watch.get k).highThreshold - (t.watch.get k).hysteresis <
        t.thresholds.get (t.watch.get k).threshold + (t.watch.get k).hysteresis
    (∀ k, ¬ empties (bandTables 10) k) ∧ empties (bandTables 11) 5 ∧ (∀ j, j < 5 → ¬ empties (bandTables 11) j) := by
  refine ⟨?_, by decide +kernel, by decide +kernel⟩
  intro k h
  have only : ∀ k, k < 32 → ¬ (((bandTables 10).watch.get k).compare = .outside ∧
      (bandTables 10).thresholds.get ((bandTables 10).watch.get k).highThreshold - ((bandTables 10).watch.get k).hysteresis <
        (bandTables 10).thresholds.get ((bandTables 10).watch.get k).threshold + ((bandTables 10).watch.get k).hysteresis) := by
    decide +kernel
  exact only k h.1 ⟨h.2.2.2.1, h.2.2.2.2⟩

/-- Records in range and out of range, at the bounds of one of their fields. -/
theorem witness_TimersInRun_ranges :
    ((⟨30, 10, 5, 150, 180, ⟨1, 105⟩, 1000, 0, 0, 0, 60⟩ : FogTuneRec).fits ∧
      ¬ (⟨30, 10, 5, 150, 180, ⟨1, 105⟩, 1001, 0, 0, 0, 60⟩ : FogTuneRec).fits) ∧
    ((⟨60, 3600⟩ : DehumidTimes).fits ∧ ¬ (⟨59, 3600⟩ : DehumidTimes).fits) ∧
    ((⟨3, 15, 0, 0, 0, 1000⟩ : SinkTuneRec).fits .zones ∧ ¬ (⟨4, 15, 0, 0, 0, 1000⟩ : SinkTuneRec).fits .zones) ∧
    ((⟨600, -400, 1, 200, 4000⟩ : ZoneSetRec).fits ∧ ¬ (⟨601, -400, 1, 200, 4000⟩ : ZoneSetRec).fits) ∧
    ((⟨50, .square⟩ : ProfileRec).fits ∧ ¬ (⟨51, .square⟩ : ProfileRec).fits) := by
  simp [FogTuneRec.fits, DehumidTimes.fits, SinkTuneRec.fits, ZoneSetRec.fits, ProfileRec.fits]

/-- Points 0 to 2 of which DISPATCH may name 0 as flow and 1 and 2 as supply and return, and the same record with
supply and return alike. -/
theorem witness_TimersInRun_dispatch :
    let points := puts labTables.points [(0, ⟨5, 0, .flow, 0, 10000, 30, 0, 0⟩), (1, ⟨5, 1, .temp, -400, 600, 30, 0, 0⟩)]
    let t := { labTables with points := points }
    t.dispatchFits ⟨⟨1, 0⟩, ⟨1, 1⟩, ⟨1, 2⟩, 5000, .arrivals, 16, 5⟩ ∧
      ¬ t.dispatchFits ⟨⟨1, 0⟩, ⟨1, 1⟩, ⟨1, 1⟩, 5000, .arrivals, 16, 5⟩ :=
  ⟨⟨⟨0, by decide +kernel⟩, ⟨1, by decide +kernel⟩, ⟨2, by decide +kernel⟩, by decide +kernel⟩, fun h => h.2.2.2.1 rfl⟩

/-- A threshold changed under a usable point, and a station whose new limits change its state. -/
theorem witness_TimersInRun_effects :
    let s := withWatch 0 ⟨false, .idle, 0, none, false⟩ (lab.setPoint 0 ⟨some (-50), .good, 0, none, none⟩)
    let before := s.tables.thresholds.set 0 (-60)
    let r := s.tables.fogTune.get 7
    (s.tables.chained 0 = false ∧ (s.tables.watch.get 0).point.get = some 0 ∧
      before.get (s.tables.watch.get 0).threshold ≠ s.tables.thresholds.get (s.tables.watch.get 0).threshold ∧
      (s.watch.runs.get 0).lost = false ∧ s.pointValue 0 = some (-50)) ∧
    (r.warn ≠ 20 ∧ r.nextState .clear 25 ≠ .clear ∧ r.nextState .clear 35 = .clear ∧ r.fan.get ≠ none) := by
  decide +kernel

/-- Two rises beside a clear, with room behind 14 reports and without room behind 15. -/
theorem witness_ClearFlagsReply :
    let s := { lab with
      tables := { labTables with enables := 0xFFFF }
      trunk := { lab.trunk with flags := 0x0001, reports := List.replicate 14 (.uplink []), sending := .report } }
    let full := { s with trunk := { s.trunk with reports := List.replicate 15 (.uplink []) } }
    lab.serves ∧ s.serves ∧ full.serves ∧
      ((after (.clearFlags 1 0x0007 0x0006) s).trunk.reports.drop 14 =
        [.notice 0x0002 0xFFFF s.bracket.record, .notice 0x0006 0xFFFF s.bracket.record]) ∧
      (after (.clearFlags 1 0x0007 0x0006) full).trunk.flags = 0x1006 :=
  ⟨lab_serves, serves_of (by decide +kernel), serves_of (by decide +kernel), by decide +kernel, by decide +kernel⟩

/-- The two sides of the room: two rises behind 14 and behind 15 reports. And a raise of a flag that is set, of one that is
not enabled, and of one that is enabled, with 15 and with 16 reports held. -/
theorem witness_ClearFlagsReply_raise :
    let held := fun n => ({ lab with
      tables := { labTables with enables := 0x0004 }
      trunk := { lab.trunk with flags := 0x0001, reports := List.replicate n (.uplink []) } } : State)
    (2 ≤ 16 - (held 14).trunk.reports.length ∧ 16 - (held 15).trunk.reports.length < 2) ∧
    EventFlag.resetSeen.of (held 15).trunk.flags = true ∧
    (EventFlag.guardChanged.of (held 15).trunk.flags = false ∧
      EventFlag.guardChanged.of (held 15).tables.enables = false) ∧
    (EventFlag.watchLatched.of (held 15).trunk.flags = false ∧
      EventFlag.watchLatched.of (held 15).tables.enables = true ∧ (held 15).trunk.reports.length < 16 ∧
      16 ≤ (held 16).trunk.reports.length) ∧
    ((held 0).attn = false ∧ ((held 15).raise .watchLatched).attn = true) := by decide +kernel

/-- R169: a dropped NOTICE counts twice where UPLINK_DROPPED is enabled and rises by it, and once where it stands. -/
theorem test_notice_dropped :
    let full := fun flags => ({ lab with
      tables := { labTables with enables := 0xFFFF }
      trunk := { lab.trunk with flags := flags, reports := List.replicate 16 (.uplink []), sending := .report } } : State)
    ((full 0).raise .cueDone).trunk.counters.noticesDropped = 2 ∧ ((full 0).raise .cueDone).trunk.flags = 0x1100 ∧
      ((full 0x1000).raise .cueDone).trunk.counters.noticesDropped = 1 := by decide +kernel

theorem witness_RequestsTurnedAway :
    let s := { lab with loader := ⟨.loading, .notLoaded⟩ }
    let full := { lab with trunk := { lab.trunk with replies := List.replicate 8 ⟨0, 2, .done, []⟩ } }
    (s.receives ∧ s.loader.op = .loading ∧ encodeRequest (.saveImage 5) = some (5, 0x08, []) ∧ (8 : Byte) ≠ 0x01 ∧
      (8 : Byte) ≠ 0x02) ∧
    (Instr.isRequest (.saveImage 5) = true ∧ full.live = true ∧ full.replyRoomFull = true) :=
  ⟨⟨⟨by decide, by decide⟩, by decide, by decide, by decide, by decide⟩, by decide +kernel⟩

theorem witness_TrunkEvents :
    let s := { lab with trunk := { lab.trunk with replies := [⟨1, 9, .badRequest, []⟩], sending := .reply } }
    let u := { lab with trunk := { lab.trunk with reports := [.uplink []], sending := .report } }
    (s.live = true ∧ s.trunk.sending = .reply ∧ s.trunk.replies = ⟨1, 9, .badRequest, []⟩ :: [] ∧
      ((9 : Byte) ≠ 0x09 ∨ ResultCode.badRequest ≠ .done)) ∧
    (u.live = true ∧ u.trunk.sending = .report ∧ u.trunk.reports = .uplink [] :: []) ∧
    (lab.trunk.silence = some 60000 ∧ lab.bracket.state.isOpen = false ∧ labOpen.live = true ∧
      labOpen.trunk.silence = some 60000 ∧ labOpen.bracket.state.isOpen = true) := by decide

/-- A reply, an UPLINK and a NOTICE in transmission, and an idle transmitter. -/
theorem witness_TrunkEvents_frames :
    let sends := fun e => ({ lab with trunk := { lab.trunk with reports := [e], sending := .report } } : State)
    (sends (.uplink [⟨2, none, .never⟩])).trunk.reports = .uplink [⟨2, none, .never⟩] :: [] ∧
      (sends (.notice 1 0xFFFF none)).trunk.reports = .notice 1 0xFFFF none :: [] ∧
      (sends (.uplink [])).trunk.sending = .report ∧ lab.trunk.sending = .idle := by decide

/-- R172: the frame of an UPLINK of point 2, absent and NEVER, but for its two check bytes. -/
theorem test_uplink_frame :
    let s := { lab with trunk := { lab.trunk with reports := [.uplink [⟨2, none, .never⟩]], sending := .report } }
    s.frameOnTrunk.map (List.take 10) = some [0x5A, 0, 7, 3, 1, 0, 2, 0, 0, 0x80] := by decide +kernel

/-- R172: the POLL frame of node 5 and the SET frame of node 12, but for their check bytes. -/
theorem test_field_frames :
    (pollFrame 5).take 4 = [0x5A, 5, 0x10, 0] ∧
      (setFrame 12 [(3, 600)]).take 7 = [0x5A, 12, 0x12, 1, 3, 2, 0x58] := by decide +kernel

/-- The DONE of RESET_PART in transmission. -/
theorem witness_TrunkEvents_reset :
    let s := { lab with trunk := { lab.trunk with replies := [⟨1, 9, .done, []⟩], sending := .reply } }
    s.live = true ∧ s.trunk.sending = .reply ∧ s.trunk.replies = ⟨1, 0x09, .done, []⟩ :: [] := by decide

/-- Tables that pass the validation: one SENSOR node, polled in a schedule of one slot. -/
def okTables : Tables :=
  { Tables.empty with
    nodes := Tables.empty.nodes.set 0 ⟨5, .sensor, 0, 3, 5⟩
    scheduleHead := ⟨1, 0, 20⟩
    slots := Tables.empty.slots.set 0 ⟨.poll, 5⟩ }

theorem okTables_valid : okTables.validate = none := by decide +kernel

theorem witness_EnterRunTaken :
    let save := { bench with store := { bench.store with queue := [.imageSave 1 labTables] } }
    let bad := { bench with tables := Tables.empty }
    let good := { bench with tables := okTables }
    (lab.servesFreely ∧ lab.inRun = true) ∧
    (save.servesFreely ∧ save.inRun = false ∧ save.saving = true) ∧
    (bad.servesFreely ∧ bad.inRun = false ∧ bad.saving = false ∧ bad.tables.validate = some (.schedule, 0)) ∧
    (good.servesFreely ∧ good.inRun = false ∧ good.saving = false ∧ good.tables.validate = none) :=
  ⟨⟨⟨lab_serves, by decide⟩, by decide⟩, ⟨⟨serves_of (by decide), by decide⟩, by decide⟩,
    ⟨⟨serves_of (by decide), by decide⟩, by decide, by decide, by decide +kernel⟩,
    ⟨⟨serves_of (by decide), by decide⟩, by decide, by decide, okTables_valid⟩⟩

/-- A SCHEDULE whose head does not fit, one whose slots 1 and 2 fail as SET and as POLL, one with the SET slot alone,
and one that sends nothing; slot 127 is the last. -/
theorem witness_EnterRunTaken_schedule :
    let at_ := fun n slots => ({ okTables with
      scheduleHead := ⟨n, 0, 20⟩
      slots := puts Tables.empty.slots slots } : Tables)
    (at_ 129 []).validate = some (.schedule, 0) ∧ (at_ 128 []).validate = some (.schedule, 0) ∧
      (at_ 3 [(1, ⟨.set, 63⟩), (2, ⟨.poll, 63⟩)]).validate = some (.schedule, 3) ∧
      (at_ 3 [(1, ⟨.set, 63⟩), (3, ⟨.poll, 63⟩)]).validate = some (.schedule, 2) ∧
      (at_ 128 [(127, ⟨.poll, 63⟩)]).validate = some (.schedule, 128) := by decide +kernel

theorem witness_EnterConfigTaken :
    (bench.serves ∧ bench.inRun = false) ∧
    (lab.serves ∧ lab.inRun = true ∧ lab.bracket.state.isOpen = false) ∧
    (labOpen.serves ∧ labOpen.inRun = true ∧ labOpen.bracket.state.isOpen = true) :=
  ⟨⟨bench_serves, by decide⟩, ⟨lab_serves, by decide⟩, labOpen_serves, by decide⟩

/-- A guard level above NORMAL, a station in use with a state, a bank with its ACTIVATE in flight; and none of it. -/
theorem witness_EnterConfigTaken_flags :
    let s := { lab with
      watch := { lab.watch with guard := .warm }
      fog := { lab.fog with stations := lab.fog.stations.set 7 ⟨.risk, some 5, none, false, false, 0, some 0⟩ } }
    let q := labQueue [.activate 3 31]
    (s.serves ∧ s.inRun = true ∧ s.watch.guard ≠ .normal) ∧
    (∃ i, i < 8 ∧ s.tables.stationInUse i = true ∧ (s.fog.stations.get i).state ≠ .unknown) ∧
    (q.serves ∧ q.inRun = true ∧ ∃ r rest, q.store.queue = .activate 3 r :: rest) ∧
    (lab.bracket.state.isOpen = false ∧ lab.watch.guard = .normal ∧
      ∀ i, i < 8 → lab.tables.stationInUse i = true → (lab.fog.stations.get i).state = .unknown) :=
  ⟨⟨serves_of (by decide), by decide⟩, ⟨7, by decide +kernel⟩, ⟨serves_of (by decide), by decide, 31, [], rfl⟩,
    by decide +kernel⟩

/-- The image region after a save of `okTables` to a blank serial memory. -/
def okImage : List Host.Cell := Memory.write (writeUnsigned [] okTables) 0 Config.signature

/-- A part in LOADING beside that image. -/
def loading : State := { State.reset with
  loader := ⟨.loading, .notLoaded⟩
  memory := { State.reset.memory with image := okImage } }

/-- The bytes of the entries of `okTables`, loaded over the tables of a reset, give it back. -/
theorem okTables_given_back :
    TableId.stored.foldl (fun v id => v.storeRun id 0 id.entries (okTables.bytes id)) Tables.empty = okTables := by
  have hp : ∀ r ∈ okTables.points.list, PointRec.ofBytes r.bytes = r := by
    intro r hr; rw [List.eq_of_mem_replicate hr]; decide
  have hc : ∀ r ∈ okTables.channels.list, ChannelRec.ofBytes r.bytes = r := by
    intro r hr; rw [List.eq_of_mem_replicate hr]; decide
  simp only [TableId.stored, List.foldl_cons, List.foldl_nil]
  simp only [show TableId.points.entries = 256 from rfl, show TableId.channels.entries = 512 from rfl,
    okTables.storeRun_own_points _ hp, okTables.storeRun_own_channels _ hc]
  decide +kernel

theorem okImage_loads : ∃ tables, judgeImage okImage Tables.empty = .ok tables := by
  refine ⟨okTables.keepResetEnable 0xFFFF, ?_⟩
  unfold okImage
  rw [judgeImage_saved (m := []) reset_memory_wf, loads_saved, okTables_given_back, okTables_valid]
  rfl

theorem witness_ImageLoaded :
    (loading.live = true ∧ loading.loader.op = .loading ∧
      ∃ tables, judgeImage loading.memory.image loading.tables = .ok tables) ∧
    (let blank := after (.powerOn ⟨.auto, false, false⟩ 0) State.reset;
      blank.live = true ∧ blank.loader.op = .loading ∧
      judgeImage blank.memory.image blank.tables = .error .noSignature ∧
      Memory.block blank.memory.image 0 4 ≠ [0x53, 0x48, 0x4C, 0x44]) :=
  ⟨⟨by decide, by decide, okImage_loads⟩, by decide, by decide, by rfl, by decide⟩

/-- A header whose directory names the 17 tables, each at offset 0 with the length given for it. -/
def someHeader (format : Nat) (length : TableId → Nat) : List Byte :=
  Config.signature ++ u8 format ++ u32 8192 ++ u16 0 ++
    TableId.stored.flatMap fun id => u8 id.code ++ u32 0 ++ u32 (length id)

/-- Regions that fail the first three stages: without a signature, of format 2, and with every length 0. -/
theorem witness_ImageLoaded_stages :
    let m := fun (format : Nat) => Memory.write [] 0 (someHeader format fun _ => 0)
    let named := fun (f i : Nat) => rd8 (Memory.block (m f) 0 164) (11 + 9 * i)
    let length := fun (f i : Nat) => rd32 (Memory.block (m f) 0 164) (16 + 9 * i)
    (Memory.wf ([] : List Host.Cell) ∧ (Memory.block [] 0 164).take 4 ≠ [0x53, 0x48, 0x4C, 0x44]) ∧
    (Memory.wf (m 2) ∧ (Memory.block (m 2) 0 164).take 4 = [0x53, 0x48, 0x4C, 0x44] ∧
      (Memory.block (m 2) 0 164).getD 4 0 ≠ 3) ∧
    (Memory.wf (m 3) ∧ (Memory.block (m 3) 0 164).take 4 = [0x53, 0x48, 0x4C, 0x44] ∧
      (Memory.block (m 3) 0 164).getD 4 0 = 3 ∧
      (∀ id ∈ TableId.stored, ∃ i, i < 17 ∧ named 3 i = id.code ∧ ∀ j, j < 17 → named 3 j = id.code → j = i) ∧
      TableId.ofCode (named 3 0) = some .nodes ∧
      length 3 0 ≠ ((List.range TableId.nodes.entries).map TableId.nodes.entryLength).sum) :=
  ⟨⟨reset_memory_wf, by decide⟩, ⟨Memory.write_wf reset_memory_wf _ _, by decide +kernel⟩,
    Memory.write_wf reset_memory_wf _ _, by decide +kernel⟩

/-- The tables whose bytes give them back and that pass. -/
theorem witness_ImageLoaded_saved :
    Memory.wf ([] : List Host.Cell) ∧ okTables.validate = none ∧
      TableId.stored.foldl (fun v id => v.storeRun id 0 id.entries (okTables.bytes id)) Tables.empty = okTables :=
  ⟨reset_memory_wf, okTables_valid, okTables_given_back⟩

theorem witness_SaveCompletes :
    let s := labQueue [.imageSave 1 labTables]
    s.live = true ∧ Memory.wf s.memory.image ∧ s.store.queue = .imageSave 1 labTables :: [] :=
  ⟨rfl, reset_memory_wf, rfl⟩

/-- Flaws that change the first byte of the header behind the signature, that leave it as written, and the later of
which puts it back. -/
theorem witness_SaveCompletes_flaws :
    let bytes := savedBytes labTables
    let last := fun flaws : List (Nat × Byte) => ((flaws.filter fun f => f.1 == 4 + 0).map Prod.snd).getLastD 3
    bytes[0]? = some 3 ∧ last [(4, 2)] ≠ 3 ∧ last [(4, 3)] = 3 ∧ last [(4, 2), (4, 3)] = 3 ∧
      last [(4, 3), (4, 2), (5, 9)] ≠ 3 := by decide +kernel

theorem witness_RowOperationsComplete :
    let read := (labQueue [.rowRead 1 3 31]).setPlace 3 31 (placeOf rowContent)
    let blank := labQueue [.rowRead 1 3 31]
    (lab.live = true ∧ 3 < 4 ∧ 31 < 32 ∧ wellFormedContent rowContent = true) ∧
    (let place := spoilPlace (placeOf rowContent) [(0, 2)]; place ≠ placeOf rowContent) ∧
    (labQueue [.rowWrite 1 3 31 rowContent]).store.queue = .rowWrite 1 3 31 rowContent :: [] ∧
    (read.live = true ∧ read.store.queue = .rowRead 1 3 31 :: [] ∧
      read.memory.rows.get (placeIndex 3 31) = placeOf rowContent) ∧
    (blank.live = true ∧ blank.store.queue = .rowRead 1 3 31 :: [] ∧
      goodRow (blank.memory.rows.get (placeIndex 3 31)) = none) := by decide +kernel

/-- A byte spoiled at the place of the row written. -/
theorem witness_RowOperationsComplete_flaw :
    ([(0, (2 : Byte))].foldl (fun l f => l.set f.1 f.2) (placeOf rowContent)) ≠ placeOf rowContent := by decide +kernel

/-- R114: content 01 006A 0170 and a fade time, its count spoiled to 0, leaves a row without pairs whose check is good. -/
theorem test_row_named_by_its_count :
    goodRow (spoilPlace (placeOf [1, 0, 0x6A, 1, 0x70, 0, 10]) [(0, 0)]) = some ⟨0, [], 106⟩ := by decide +kernel

theorem witness_BankEvents :
    let s := labQueue [.activate 3 31]
    let good := s.setPlace 3 31 (placeOf rowContent)
    let settling := lab.setBank 3 { Bank.initial with state := .closing, settle := some 0 }
    let waiting := settling.setEngine 3 { Engine.initial with state := .pending, row := some 31 }
    let full := { waiting with store := { waiting.store with queue := List.replicate 8 (.activate 0 0) } }
    (s.live = true ∧ 3 < 4 ∧ s.store.queue = .activate 3 31 :: [] ∧ (s.bank 3).orphan = false ∧
      goodRow (s.memory.rows.get (placeIndex 3 31)) = none) ∧
    ((good.bank 3).orphan = false ∧ (goodRow (good.memory.rows.get (placeIndex 3 31))).isSome = true) ∧
    ((s.setBank 3 { Bank.initial with orphan := true }).bank 3).orphan = true ∧
    ((settling.bank 3).settle.isSome = true ∧ (settling.engine 3).state ≠ .pending) ∧
    ((waiting.bank 3).settle.isSome = true ∧ (waiting.engine 3).state = .pending ∧
      (waiting.engine 3).row = some 31 ∧ waiting.store.queue.length < 8) ∧
    ((full.bank 3).settle.isSome = true ∧ (full.engine 3).state = .pending ∧ (full.engine 3).row = some 31 ∧
      8 ≤ full.store.queue.length) := by decide +kernel

/-- The schedule of 1.7 at each kind of slot: position 5 is the last of the six. -/
theorem witness_NextSlotStarts :
    let at_ := fun p => ({ lab with seg := { lab.seg with slotPos := p, urgent := [⟨7, .value⟩] } } : State)
    (5 + 1 < labTables.scheduleHead.slotCount) = False ∧
    ((at_ 5).tables.slots.get 0).kind = .poll ∧ ((at_ 0).tables.slots.get 1).kind = .set ∧
    (((at_ 1).tables.slots.get 2).kind = .free ∧ (at_ 1).seg.urgent = ⟨7, .value⟩ :: []) := by
  refine ⟨by decide +kernel, by decide +kernel, by decide +kernel, by decide +kernel⟩

/-- From slot 3 the FREE slot 4 finds the queue empty, and slot 5 is a POLL; node 12 has distinct node channels. -/
theorem witness_NextSlotStarts_free :
    let s := { lab with seg := { lab.seg with slotPos := 3 } }
    let next := fun p => if p + 1 < s.tables.scheduleHead.slotCount then p + 1 else 0
    (1 ≤ 128 ∧ s.seg.urgent = [] ∧ next^[1 + 1] s.seg.slotPos = 5 ∧
      (∀ j, j < 1 → (s.tables.slots.get (next^[j + 1] s.seg.slotPos)).kind = .free) ∧
      (s.tables.slots.get 5).kind = .poll) ∧
    ((lab.setPairs 12).map Prod.fst = [0, 1, 2, 3, 4, 5]) := by
  refine ⟨⟨by decide, rfl, by decide +kernel, by decide +kernel, by decide +kernel⟩, by decide +kernel⟩

/-- Slot 0 at its end, the image having taken a series of two writes to channels of node 12. -/
def labSeries : State :=
  State.writeSeries { lab with seg := { lab.seg with phase := .awaiting 5 } } [(100, 200), (101, 300)]

/-- The second write is a further one of the series, and the first is not; the same two writes of a commit are one step. -/
theorem witness_NextSlotStarts_series :
    (labSeries.seg.log = labSeries.seg.log.take 1 ++ labSeries.seg.log.drop 1 ∧
      labSeries.seg.log.drop 1 = [⟨[(101, ⟨700, 700⟩)], 1, [12], .sameSeries⟩]) ∧
    (labSeries.seg.log = [] ++ labSeries.seg.log ∧ (labSeries.seg.log.head?.map ImageEvent.link) = some .first ∧
      labSeries.seg.log = labSeries.seg.log ++ []) ∧
    (labSeries.seg.log.length < 3 ∧ (∃ e ∈ labSeries.seg.log, e.link = .sameSeries) ∧
      ∀ e ∈ (lab.asCommit labSeries).seg.log, e.link ≠ .sameSeries) := by decide +kernel

/-- R36: a SET slot that starts between the two writes carries the first of them and not the second, by which its node
joins again; of a commit it carries both. -/
theorem test_between_two_writes :
    let t := labSeries.endSlotBefore false 1
    let u := (lab.asCommit labSeries).endSlotBefore false 1
    t.seg.phase = .sendingSet 12 [(0, 200), (1, 700), (2, 450), (3, 0), (4, 0), (5, 0)] ∧
      t.seg.urgent = [⟨12, .value⟩] ∧ (t.image.get 101).commanded = 300 ∧
      u.seg.phase = .sendingSet 12 [(0, 200), (1, 300), (2, 450), (3, 0), (4, 0), (5, 0)] ∧ u.seg.urgent = [] := by
  decide +kernel

/-- R1, R10: a SET slot that starts while a frame is being received composes at once and dequeues its node. -/
theorem test_held_set_slot :
    let s := { lab with seg := { lab.seg with urgent := [⟨7, .start⟩, ⟨12, .start⟩] } }
    (s.endSlot true).seg.urgent = [⟨7, .start⟩] ∧
      (s.endSlot true).seg.phase = .held false (.set 12 (s.setPairs 12)) := by decide +kernel

theorem witness_SegmentFramesEnd :
    let at_ := fun p => ({ lab with seg := { lab.seg with phase := p } } : State)
    (at_ (.awaiting 5)).seg.phase = .awaiting 5 ∧
    ((at_ (.sendingPoll 5)).running = true ∧ (at_ (.sendingPoll 5)).seg.phase = .sendingPoll 5) ∧
    ((at_ (.sendingSet 12 [])).seg.phase = .sendingSet 12 [] ∧ lab.tables.nodeIndex 12 = some 2) ∧
    (lab.running = true ∧ lab.seg.phase = .silent ∧ lab.seg.phase ≠ .awaiting (5 : Byte).toNat) ∧
    ((at_ (.held false (.poll 5))).seg.phase = .held false (.poll 5) ∧
      (at_ (.held true (.set 12 []))).seg.phase = .held true (.set 12 [])) ∧
    ([] : List Item).length = 0 ∧ 12 < (List.replicate 13 (⟨0, 0, .ok⟩ : Item)).length := by decide +kernel

theorem witness_GoodReportTaken :
    let s := { lab with seg := { lab.seg with phase := .awaiting 5 } }
    s.running = true ∧ s.seg.phase = .awaiting (5 : Byte).toNat ∧ 1 ≤ [(⟨0, 0, .ok⟩ : Item)].length ∧
      (List.replicate 12 (⟨0, 0, .ok⟩ : Item)).length ≤ 12 ∧ s.tables.nodeIndex (5 : Byte).toNat = some 0 ∧
      (s.seg.nodes.get 0).state ≠ .online := by decide +kernel

/-- Counts below, at and between the limits 2 and 3 of node 7; its slot ends by its timer. -/
theorem witness_RepliesMissed :
    let m := lab.tables.nodes.get 1
    let s := { lab with seg := { lab.seg with phase := .awaiting 7, replyTimer := some 0 } }
    (min 15 (0 + 1) < m.silent) ∧ (m.silent ≤ min 15 (1 + 1) ∧ min 15 (1 + 1) < m.offline) ∧
    (m.silent ≤ min 15 (2 + 1) ∧ m.offline ≤ min 15 (2 + 1)) ∧
    (s.running = true ∧ s.seg.phase = .awaiting 7 ∧ s.seg.replyTimer.isSome = true ∧
      s.tables.nodeIndex 7 = some 1) := by decide +kernel

/-- Values at, below and above the limits −300 and 150 of point 2; point 0 GOOD, and named by entry 0. -/
theorem witness_PointsChange :
    let m := lab.tables.points.get 2
    let s := lab.setPoint 0 ⟨some 1, .good, 0, none, none⟩
    let f := lab.setPoint 0 ⟨some 1, .fault, 0, none, none⟩
    (2 < 256 ∧ m.low ≤ -300 ∧ (150 : Int) ≤ m.high ∧ -301 < m.low ∧ m.low ≤ 151 ∧ m.high < 151 ∧ 1 ≠ 2) ∧
    (s.running = true ∧ (s.points.runs.get 0).quality ≠ .never ∧ (s.points.runs.get 0).quality ≠ .stale ∧
      isSet (s.tables.points.get 0).forward = false ∧ (s.points.runs.get 0).quality.usable = true ∧ 0 < 32 ∧
      s.tables.chained 0 = false ∧ (s.tables.watch.get 0).point.get = some 0) ∧
    (f.running = true ∧ (f.points.runs.get 0).quality = .fault) := by decide +kernel

/-- Qualities for a FAULT item; point 2 is forwarded, of node 5 with index 2; the report queue with room and full. -/
theorem witness_PointsChange_fault_and_uplink :
    let s := lab.setPoint 2 ⟨some 20, .good, 0, some 10, some .good⟩
    let full := { s with trunk := { s.trunk with reports := List.replicate 16 (.uplink []) } }
    ((lab.points.runs.get 2).quality = .never ∧ (s.points.runs.get 2).quality = .good ∧
      ((lab.setPoint 2 ⟨some 20, .fault, 0, none, none⟩).points.runs.get 2).quality = .fault) ∧
    (s.uplinkPoints 5 [⟨2, 0, .ok⟩] = [2] ∧ (lab.setPoint 2 ⟨some 15, .good, 0, some 10, some .good⟩).uplinkPoints 5
      [⟨2, 0, .ok⟩] = []) ∧
    ((∀ p ∈ [2], p < 256) ∧ s.trunk.reports.length < 16 ∧ 16 ≤ full.trunk.reports.length) ∧
    (s.running = true ∧ isSet (s.tables.points.get 2).forward = true ∧ (s.points.runs.get 2).quality ≠ .never ∧
      (s.points.runs.get 2).quality ≠ .stale ∧ (s.points.runs.get 2).quality.usable = true) := by decide +kernel

/-- Index 2 of node 5 names point 2 and no lower point, index 3 names none; a value past each limit and inside. -/
theorem witness_PointsChange_items :
    let names := fun (index : Byte) p => p < 256 ∧ (lab.tables.points.get p).mapped = true ∧
      (lab.tables.points.get p).node = 5 ∧ (lab.tables.points.get p).index = index.toNat
    (names 2 2 ∧ (∀ q, q < 2 → ¬ names 2 q)) ∧ (∀ p, p < 256 → ¬ names 3 p) ∧
      ((151 : Int) > (lab.tables.points.get 2).high ∧ (-301 : Int) < (lab.tables.points.get 2).low) ∧
      lab.applyItem 5 ⟨2, 20, .ok⟩ = lab.okItem 2 20 ∧ lab.applyItem 5 ⟨2, 0, .fault⟩ = lab.faultItem 2 := by
  decide +kernel

/-- Channel 140 of 2.8: a level that leaves its commanded value 500, and one that changes it. -/
theorem witness_DemandWritten :
    let r := lab.tables.channels.get 140
    lab.inRun = true ∧ r.mapped = true ∧
      r.commandedFor lab.watch.guard 500 = (lab.image.get 140).commanded ∧
      r.commandedFor lab.watch.guard 300 ≠ (lab.image.get 140).commanded := by decide +kernel

/-- A series that writes channel 140 twice, and the two events that one of two writes adds. -/
theorem witness_DemandWritten_series :
    (∀ w ∈ [(140, 300), (100, 0), (140, 900)], w.1 < 512 ∧ (lab.tables.channels.get w.1).mapped = true) ∧
    lab.inRun = true ∧ (lab.seg.log = lab.seg.log ∧ labSeries.seg.log = lab.seg.log ++
      (⟨[(100, ⟨850, 850⟩)], 0, [12], .first⟩ : ImageEvent) :: [⟨[(101, ⟨700, 700⟩)], 1, [12], .sameSeries⟩]) := by
  decide +kernel

theorem witness_UrgentQueueHolds :
    (∃ e ∈ [(⟨7, .value⟩ : UrgentEntry)], e.address = 7) ∧ ∀ e ∈ [(⟨7, .value⟩ : UrgentEntry)], e.address ≠ 12 := by
  decide

theorem witness_RefreshAndLapse :
    lab.running = true ∧ lab.tables.nodeIndex (12 : Byte).toNat = some 2 ∧
      (lab.tables.nodes.get 2).takesSet = true ∧ (lab.seg.nodes.get 2).refreshed = false ∧
      (lab.seg.nodes.get 2).lapse = false := by decide +kernel

theorem witness_WatchTimersExpire :
    let timed := fun k st n => withWatch k ⟨true, st, n, some 0, false⟩ lab
    lab.running = true ∧
    ((timed 1 .qualifying 0).tables.watch.get 1).mode = .delay ∧
    ((timed 1 .releasing 0).watch.runs.get 1).state = .releasing ∧
    ((lab.tables.watch.get 2).mode = .pulse ∧ isSet (lab.tables.watch.get 2).latch = false ∧
      ((timed 2 .tripped 0).watch.runs.get 2).timer.isSome = true) ∧
    ((lab.tables.watch.get 3).mode = .pulse ∧ isSet (lab.tables.watch.get 3).latch = true) ∧
    ((lab.tables.watch.get 7).mode = .count ∧ (lab.tables.watch.get 7).limit ≤ 3 ∧
      2 < (lab.tables.watch.get 7).limit ∧ lab.tables.chained 7 = true ∧ lab.tables.chained 6 = false) ∧
    (6 + 1 < 32 ∧ (lab.tables.watch.get 6).mode = .delay ∧ isSet (lab.tables.watch.get 6).chain = true ∧
      ((timed 6 .qualifying 0).watch.runs.get 6).state = .qualifying ∧
      ((timed 6 .qualifying 0).watch.runs.get 7).state = .idle) := by decide +kernel

/-- Entry 1 made one of mode RATE, held TRIPPED by policy TRIP at the end of its window. -/
theorem witness_WatchTimersExpire_held :
    let s := withWatch 1 ⟨true, .tripped, 1, some 0, true⟩ { lab with tables := { labTables with
      watch := labTables.watch.set 1 { labTables.watch.get 1 with mode := .rate, window := 60, limit := 3 } } }
    s.running = true ∧ (s.watch.runs.get 1).timer.isSome = true ∧ (s.tables.watch.get 1).mode = .rate ∧
      (s.watch.runs.get 1).state = .tripped ∧ s.tables.chained 1 = false ∧ (s.tables.watch.get 1).stale = .trip ∧
      (s.watch.runs.get 1).lost = true ∧
      (after (.windowExpiry 1) s).watch.runs.get 1 = ⟨true, .tripped, 0, some 60000, true⟩ := by decide +kernel

/-- Entries 1, 2 and 3 in a chain: the qualify time of entry 1 ends, and all three trip in the one event. -/
theorem witness_WatchTimersExpire_chain :
    let count : WatchRec := { labTables.watch.get 7 with chain := 1, limit := 1 }
    let s := withWatch 1 ⟨true, .qualifying, 0, some 0, false⟩ { lab with tables := { labTables with
      watch := puts labTables.watch [(1, { labTables.watch.get 1 with chain := 1 }), (2, count), (3, count)] } }
    s.tables.chained 1 = false ∧ s.tables.chained 2 = true ∧ s.tables.chained 3 = true ∧
      [1, 2, 3].all (fun k => ((after (.qualifyExpiry 1) s).watch.runs.get k).state == .tripped) = true := by
  decide +kernel

/-- Entry 0 of point 0 with its input and without, entry 1 held TRIPPED by policy TRIP, and entry 6, whose qualify time is
made 0, chained to entry 7. -/
theorem witness_WatchTimersExpire_values :
    let r := labTables.watch.get 6
    let s := { lab with tables := { labTables with watch := labTables.watch.set 6 { r with qualify := 0 } } }
    let t := withWatch 6 ⟨false, .idle, 0, none, false⟩ s
    (lab.tables.chained 0 = false ∧ (lab.tables.watch.get 0).point.get = some 0 ∧
      (lab.tables.watch.get 0).point.get ≠ some 2 ∧ (lab.watch.runs.get 0).lost = true ∧
      ((withWatch 0 ⟨false, .idle, 0, none, false⟩ lab).watch.runs.get 0).lost = false ∧
      (lab.tables.watch.get 0).stale = .hold) ∧
    ((lab.tables.watch.get 1).point.get = some 0 ∧ (lab.tables.watch.get 1).stale = .trip ∧
      (lab.tables.watch.get 1).mode = .delay ∧
      ((withWatch 1 ⟨true, .tripped, 0, none, true⟩ lab).watch.runs.get 1).state = .tripped) ∧
    (6 + 1 < 32 ∧ t.tables.chained 6 = false ∧ isSet (t.tables.watch.get 6).chain = true ∧
      (t.watch.runs.get 6).state ≠ .tripped ∧ ((t.watchValue 2 100).watch.runs.get 6).state = .tripped ∧
      ((t.watchLoss 2).watch.runs.get 6).state ≠ .tripped) := by decide +kernel

/-- R55: 195 s of 3.14 as a value update of the part: the lost mark goes and the release time runs. -/
theorem test_value_after_loss :
    ((withWatch 1 ⟨true, .tripped, 0, none, true⟩ lab).watchValue 0 (-24)).watch.runs.get 1 =
      ⟨false, .releasing, 0, some 50000, false⟩ := by decide +kernel

/-- Entry 7 LATCHED; and entry 1 LATCHED, of policy TRIP and lost, made to chain to entry 2, which counts its trip. -/
theorem witness_WatchReleased :
    let watch := puts labTables.watch
      [(1, { labTables.watch.get 1 with chain := 1 }), (2, { labTables.watch.get 2 with limit := 1 })]
    let s := withWatch 7 ⟨true, .latched, 3, some 5, false⟩
      (withWatch 1 ⟨true, .latched, 2, none, true⟩ { lab with tables := { labTables with watch := watch } })
    s.serves ∧ (lab.tables.chained 7 = true ∧ lab.tables.chained 1 = false) ∧
      ((0x82 : BitVec 32).getLsbD 7 = true ∧ (s.watch.runs.get 7).state = .latched) ∧
      ((1 + 1 < 32 ∧ isSet (s.tables.watch.get 1).chain = true) ∧
        (let t := after (.releaseWatch 1 0x82) s;
          t.watch.runs.get 7 = ⟨false, .idle, 0, some 5, false⟩ ∧ t.watch.runs.get 1 = ⟨true, .tripped, 0, none, true⟩ ∧
            (t.watch.runs.get 2).state = .tripped ∧ (t.watch.runs.get 2).count = 1)) :=
  ⟨serves_of (by decide +kernel), by decide +kernel, by decide +kernel, by decide +kernel⟩

theorem witness_GuardLevelFollows :
    ((lab.tables.watch.get 1).severity = .critical ∧
      ((withWatch 1 ⟨true, .tripped, 0, none, false⟩ lab).watch.runs.get 1).state = .tripped) ∧
    ((lab.tables.watch.get 0).severity = .warm ∧
      ((withWatch 0 ⟨true, .latched, 0, none, false⟩ lab).watch.runs.get 0).state = .latched) ∧
    (∀ k, k < 32 → (lab.watch.runs.get k).state = .idle) := by decide +kernel

/-- Channel 100 changes under CRITICAL; an open bracket stands by. -/
theorem witness_GuardChangeDelivered :
    GuardLevel.critical ≠ labOpen.watch.guard ∧ labOpen.bracket.state.isOpen = true ∧
      GuardLevel.warm ≠ lab.watch.guard ∧ lab.bracket.state.isOpen = false ∧
      ((lab.setGuard .critical).image.get 100).commanded ≠ (lab.image.get 100).commanded := by decide +kernel

/-- The channels of the change to CRITICAL, and the nodes that join for them behind the one that stands in the queue. -/
theorem test_reclamp_joins :
    let s := { lab with seg := { lab.seg with urgent := [⟨7, .start⟩] } }
    let t := s.setGuard .critical
    ((List.range 512).filter fun ch => (t.image.get ch).commanded != (s.image.get ch).commanded) = [100, 101, 140] ∧
      t.seg.urgent = [⟨7, .start⟩, ⟨12, .value⟩] := by decide +kernel

/-- Margins at and around K = 10, W = 30 and their sums with Hy = 5. -/
theorem witness_FogStateTable :
    let r := lab.tables.fogTune.get 7
    (9 < r.risk ∧ r.risk ≤ 10 ∧ 29 < r.warn ∧ r.warn ≤ 30) ∧
      (r.warn + r.hysteresis ≤ 35 ∧ 34 < r.warn + r.hysteresis ∧ r.risk + r.hysteresis ≤ 15 ∧
        14 < r.risk + r.hysteresis) := by decide +kernel

theorem witness_DewPointBounded :
    let e : Tab Nat 101 := Tab.mapIdx (fun i _ => i + 1) (Tab.replicate 101 0)
    1 ≤ e.get 0 ∧ (∀ i, i < 100 → e.get i < e.get (i + 1)) ∧ (-400 : Int) ≤ -400 ∧ (600 : Int) ≤ 600 ∧ 1000 ≤ 1000 := by
  decide +kernel

/-- A pressure below the first entry, between two, and at the last; a temperature at each end. -/
theorem witness_DewPointBounded_inverse :
    let e : Tab Nat 101 := Tab.mapIdx (fun i _ => i + 1) (Tab.replicate 101 0)
    (0 < e.get 0 ∧ e.get 100 ≤ 101) ∧ (99 < 100 ∧ e.get 99 ≤ 100 ∧ 100 < e.get 100) ∧
      (100 ≤ 100 ∧ 0 ≤ 9 ∧ (100 = 100 → 0 = 0)) ∧ (0 ≤ 100 ∧ 9 ≤ 9 ∧ (0 = 100 → 9 = 0)) := by decide +kernel

/-- `lab` with the published record of its station, which is UNKNOWN, and the timers of the fog monitor. -/
def labFog (state : DehumidState) (demand : Nat) (fogState : FogState) : State :=
  { lab with fog := { lab.fog with
    stations := lab.fog.stations.set 7 ⟨fogState, none, none, false, false, 15, some 0⟩
    unitState := state
    runTimer := some 0
    restTimer := some 0
    demand := demand
    promotion := fogState == .risk } }

theorem witness_FogTimersExpire :
    (let s := labFog .off 150 .unknown;
      s.running = true ∧ s.tables.stationInUse 7 = true ∧ (s.fog.stations.get 7).timer.isSome = true ∧
        s.fog.demand = publishedDemand s.tables s.fog ∧ s.fog.promotion = publishedPromotion s.tables s.fog ∧
        (s.fog.stations.get 7).step < 16 ∧ s.fog.runTimer.isSome = true ∧ s.fog.restTimer.isSome = true ∧
        0 < s.fog.demand) ∧
    (let s := labFog .off 0 .clear;
      s.fog.demand = publishedDemand s.tables s.fog ∧ s.fog.promotion = publishedPromotion s.tables s.fog ∧
        s.fog.demand = 0) := by decide +kernel

/-- Station 7 reads points 0, 1 and 2 and no other: with all three usable, and with one that is not. -/
theorem witness_FogTimersExpire_stations :
    let s := { lab with points := ⟨puts lab.points.runs [(0, ⟨some 100, .good, 0, none, none⟩),
      (1, ⟨some 800, .suspect, 0, none, none⟩), (2, ⟨some 60, .good, 0, none, none⟩)], 0⟩ }
    (7 < 8 ∧ (lab.tables.fogMap.get 7).humidity.get = some 1 ∧ (lab.tables.fogMap.get 7).air.get = some 0 ∧
      (lab.tables.fogMap.get 7).chill.get = some 2 ∧ lab.tables.stationInUse 7 = true) ∧
    ((s.points.runs.get 0).quality = .good ∧ (s.points.runs.get 1).quality = .suspect ∧
      (s.points.runs.get 2).quality = .good ∧ (s.points.runs.get 1).value = some 800) ∧
    (lab.points.runs.get 1).quality = .never ∧ lab.fogPoint 3 = lab := by decide +kernel

/-- The published demand risen from 0 at a unit that is OFF, and fallen to 0 at one that has served. -/
theorem witness_FogTimersExpire_published :
    (let s := labFog .off 0 .unknown;
      s.fog.unitState = .off ∧ s.fog.demand = 0 ∧ publishedDemand s.tables s.fog = 150) ∧
    (let s := labFog .running 150 .clear;
      let u := { s with fog := { s.fog with served := true } };
      u.fog.unitState = .running ∧ 0 < u.fog.demand ∧ publishedDemand u.tables u.fog = 0 ∧
        u.publishFog.fog.unitState = .resting) := by decide +kernel

/-- `lab` with three heat points, the return point of the quality given. -/
def labHeat (q : Quality) : State :=
  { lab with
    tables := { lab.tables with dispatch := ⟨⟨1, 0⟩, ⟨1, 1⟩, ⟨1, 255⟩, 4186, .timer, 0, 60⟩ }
    points := ⟨puts lab.points.runs [(0, ⟨some 10000, .good, 0, none, none⟩), (1, ⟨some 500, .suspect, 0, none, none⟩),
      (255, ⟨some 0, q, 0, none, none⟩)], 0⟩ }

theorem witness_HeatAvailableFormula :
    (labHeat .good).tables.dispatch.flow.get = some 0 ∧ (labHeat .good).tables.dispatch.supply.get = some 1 ∧
      (labHeat .good).tables.dispatch.ret.get = some 255 ∧
      (∀ i ∈ [0, 1, 255], ((labHeat .good).points.runs.get i).quality.usable = true) ∧
      (∀ v ∈ [(0, 10000), (1, 500), (255, (0 : Int))], ((labHeat .good).points.runs.get v.1).value = some v.2) ∧
      ((labHeat .fault).points.runs.get 255).quality.usable = false := by decide +kernel

theorem witness_AllocationExact :
    claims.length ≤ 8 ∧ (claims.map Claim.sink).Nodup ∧ (∀ c ∈ claims, 1 ≤ c.weight ∧ c.cls ≤ 3) := by decide

/-- 100 kW for the claims of 5.13: class 0 fits, class 1 shares the 60 kW left, 26 and 34, and the later classes get
nothing. -/
theorem witness_AllocationExact_classes :
    let members := claims.filter fun c => c.cls == 1 && decide (0 < c.demand)
    (0 + 40 ≤ 100 ∧ 40 ≤ 100 ∧ 100 < 40 + (members.map Claim.demand).sum ∧ 100 < 640) ∧
      (List.range 5).map (grantOf (allocate 100 claims)) = [40, 26, 34, 0, 0] ∧
      SharedByWeight (100 - 40) members (grantOf (allocate 100 claims)) := by
  refine ⟨by decide, by decide, .last (by decide) ?_⟩
  rintro (_ | _ | i) c h
  · cases h; rfl
  · cases h; rfl
  · cases h

theorem witness_DispatchPassMade :
    let s := { lab with heat := { lab.heat with timer := some 0 } }
    s.live = true ∧ s.heatActive = true ∧ s.heat.timer.isSome = true ∧ s.tables.sinkInUse 7 = true ∧
      s.heatMeasured = none ∧ s.heat.passMade = false := by decide +kernel

/-- Sink 7 is the first of kind ZONES; sink 0 is not in use; and tables without a ZONES sink. -/
theorem witness_DispatchPassMade_zones :
    (lab.tables.sinkMap.get 7).kind = .zones ∧ (∀ j, j < 7 → (lab.tables.sinkMap.get j).kind ≠ .zones) ∧
      lab.tables.sinkInUse 0 = false ∧
      (let t := { labTables with sinkMap := puts Tables.empty.sinkMap [(0, ⟨.proportional, 600, ⟨0, 0⟩, 0, 1⟩)] };
        (∀ i, i < 8 → (t.sinkMap.get i).kind ≠ .zones) ∧ isSet (t.sinkMap.get 0).essential = true) := by decide +kernel

/-- A sink of each kind, with an input that is usable and one that is not. -/
theorem witness_DispatchPassMade_kinds :
    let sinks := puts Tables.empty.sinkMap
      [(0, ⟨.proportional, 600, ⟨0, 0⟩, 1, 1⟩), (1, ⟨.proportional, 600, ⟨0, 0⟩, 2, 0⟩), (2, ⟨.fixed, 600, ⟨0, 0⟩, 0, 0⟩),
        (3, ⟨.dehumid, 600, ⟨0, 0⟩, 0, 0⟩), (7, ⟨.zones, 600, ⟨0, 0⟩, 0, 0⟩)]
    let s := { labHeat .good with tables := { (labHeat .good).tables with sinkMap := sinks } }
    ((s.tables.sinkMap.get 0).kind = .proportional ∧ (s.points.runs.get (s.tables.sinkMap.get 0).input).quality = .suspect ∧
      (s.points.runs.get (s.tables.sinkMap.get 0).input).value = some 500) ∧
    ((s.tables.sinkMap.get 1).kind = .proportional ∧ (s.points.runs.get (s.tables.sinkMap.get 1).input).quality = .never) ∧
    ((s.tables.sinkMap.get 2).kind = .fixed ∧ (s.tables.sinkMap.get 3).kind = .dehumid ∧
      (s.tables.sinkMap.get 7).kind = .zones ∧ s.fog.promotion = false ∧
      (labFog .running 150 .risk).fog.promotion = true) := by decide +kernel

/-- An arrival at the flow point: not counted by trigger TIMER, counted, and the N-th. -/
theorem witness_DispatchPassMade_arrivals :
    let s := { labHeat .good with
      tables := { (labHeat .good).tables with dispatch := ⟨⟨1, 0⟩, ⟨1, 1⟩, ⟨1, 255⟩, 4186, .arrivals, 2, 60⟩ }
      heat := { lab.heat with timer := some 5 } }
    let t := s.heatArrival 0
    ((labHeat .good).tables.dispatch.trigger ≠ .arrivals ∧ (labHeat .good).heatActive = true) ∧
      (s.heatActive = true ∧ s.tables.dispatch.trigger = .arrivals ∧ s.tables.dispatch.flow.get = some 0 ∧
        s.heat.arrivals + 1 ≠ s.tables.dispatch.arrivalCount) ∧
      (t.heatActive = true ∧ t.heat.arrivals + 1 = t.tables.dispatch.arrivalCount ∧ t.live = true ∧
        t.heat.timer.isSome = true) := by decide +kernel

theorem witness_SplitMade :
    let o := puts (Tab.replicate 16 0) [(0, 120), (1, 200), (2, 100)]
    let s := { lab with zones := { lab.zones with deliveries := [⟨420, o⟩] } }
    420 ≤ o.list.sum ∧ s.running = true ∧ s.zones.deliveries = ⟨420, o⟩ :: [] ∧
      s.tables.zoneInUse 15 = true ∧ s.tables.zoneInUse 14 = false := by decide +kernel

theorem witness_ZoneSetTaken :
    (lab.serves ∧ lab.bracket.state = .idle) ∧ (16 ≤ (16 : Byte).toNat) ∧
    (lab.inRun = true ∧ lab.tables.zoneInUse (14 : Byte).toNat = false) ∧
    ((some true : Option Bool) ≠ none ∧ (15 : Byte).toNat < 16 ∧ lab.tables.zoneInUse (15 : Byte).toNat = true) ∧
    (bench.serves ∧ bench.bracket.state = .idle ∧ bench.inRun = false) :=
  ⟨⟨lab_serves, rfl⟩, by decide, by decide +kernel, by decide +kernel, bench_serves, by decide⟩

/-- Zone 15 with its point 0 usable, and not yet. -/
theorem witness_ZoneSetTaken_computed :
    15 < 16 ∧ (lab.tables.zoneMap.get 15).point.get = some 0 ∧
      (((lab.setPoint 0 ⟨some 100, .good, 0, none, none⟩).points.runs.get 0).quality = .good ∧
        ((lab.setPoint 0 ⟨some 100, .good, 0, none, none⟩).points.runs.get 0).value = some 100) ∧
      (lab.points.runs.get 0).quality = .never ∧ lab.zonePoint 0 = lab.recomputeZone 15 ∧ lab.zonePoint 1 = lab := by
  decide +kernel

/-- Channel 511 is unmapped, 512 is none, 100 is LIGHTING's and 140 the supervisor's. -/
theorem witness_SetChannelWritten :
    (lab.serves ∧ lab.bracket.state = .idle ∧ lab.inRun = true) ∧ (bench.serves ∧ bench.inRun = false) ∧
    (512 ≤ (512 : Word16).toNat ∧ (lab.tables.channels.get (511 : Word16).toNat).mapped = false) ∧
    ((100 : Word16).toNat < 512 ∧ (lab.tables.channels.get (100 : Word16).toNat).mapped = true ∧
      (lab.tables.channels.get (100 : Word16).toNat).owner ≠ .supervisor) ∧
    ((140 : Word16).toNat < 512 ∧ (lab.tables.channels.get (140 : Word16).toNat).mapped = true ∧
      (lab.tables.channels.get (140 : Word16).toNat).owner = .supervisor) ∧
    (labOpen.serves ∧ labOpen.bracket.state ≠ .idle) :=
  ⟨⟨lab_serves, by decide⟩, ⟨bench_serves, by decide⟩, by decide +kernel, by decide +kernel, by decide +kernel,
    labOpen_serves, by decide⟩

theorem witness_RequestsStaged :
    (labOpen.serves ∧ labOpen.inRun = true ∧ labOpen.bracket.state = .opened 1 ∧ labOpen.bracket.stage.length < 64 ∧
      labOpen.bracket.state.isOpen = true ∧ labOpen.bracket.strict = false) ∧
    (lab.tables.zoneInUse (15 : Byte).toNat = true ∧ (3 : Byte).toNat < 4 ∧ (31 : Byte).toNat < 32 ∧
      ((some (6000 : Word16)).map BitVec.toNat).getD 0 ≤ 6000) ∧
    (let s := { labOpen with bracket := { labOpen.bracket with strict := true } };
      s.serves ∧ s.bracket.state.isOpen = true ∧ s.bracket.strict = true) ∧
    (labAborted.serves ∧ labAborted.inRun = true ∧ labAborted.bracket.state = .aborted 1) :=
  ⟨⟨labOpen_serves, by decide⟩, by decide +kernel, ⟨serves_of (by decide), by decide⟩, labAborted_serves, by decide⟩

/-- The last item of a COUNTED bracket and one before it, a stage of 64, and a stage that fails its check. -/
theorem witness_RequestsStaged_counted :
    let at_ := fun k => ({ labCounted with bracket := { labCounted.bracket with state := .counted 2 k } } : State)
    let full := { labOpen with bracket := { labOpen.bracket with
      stage := List.replicate 64 ⟨1, .setChannel 140 500⟩ } }
    let waiting := labCounted.setEngine 0 { Engine.initial with state := .pending, row := some 1 }
    ((at_ 0).serves ∧ (at_ 0).inRun = true ∧ (at_ 0).bracket.state.isOpen = true ∧ (at_ 0).bracket.stage.length < 64 ∧
      0 + 1 ≠ 2 ∧ 1 + 1 = 2) ∧
    (full.serves ∧ full.inRun = true ∧ full.bracket.state.isOpen = true ∧ 64 ≤ full.bracket.stage.length) ∧
    (checkStage (at_ 1).workingCopy [⟨1, .setChannel 140 500⟩] = true ∧
      checkStage waiting.workingCopy [⟨1, .cue 0 2 none false⟩] = false) ∧
    (lab.serves ∧ lab.inRun = true ∧ lab.bracket.state = .idle) :=
  ⟨⟨serves_of (by decide), by decide⟩, ⟨serves_of (by decide +kernel), by decide +kernel⟩, by decide +kernel,
    lab_serves, by decide⟩

/-- Each refusal, and a request that passes, in a bracket open without and with STRICT and in ABORTED, in RUN and CONFIG. -/
theorem witness_RequestsStaged_refused :
    let strict := { labOpen with bracket := { labOpen.bracket with strict := true } }
    let config := { labAborted with loader := bench.loader }
    (labOpen.serves ∧ labOpen.bracket.state.isOpen = true ∧ labOpen.bracket.strict = false ∧ labOpen.inRun = true) ∧
      (strict.serves ∧ strict.bracket.state.isOpen = true ∧ strict.bracket.strict = true ∧ strict.inRun = true) ∧
      (labAborted.serves ∧ labAborted.bracket.state = .aborted 1 ∧ labAborted.inRun = true) ∧
      (config.serves ∧ config.bracket.state = .aborted 1 ∧ config.inRun = false) ∧
      ((labTables.channels.get 511).mapped = false ∧ (labTables.channels.get 100).mapped = true ∧
        (labTables.channels.get 100).owner ≠ .supervisor ∧ (labTables.channels.get 140).owner = .supervisor) ∧
      labTables.zoneInUse 15 = true ∧ labTables.zoneInUse 14 = false :=
  ⟨⟨labOpen_serves, by decide⟩, ⟨serves_of (by decide), by decide⟩, ⟨labAborted_serves, by decide⟩,
    ⟨serves_of (by decide), by decide⟩, by decide +kernel⟩

/-- Working copies for each clause of the check: bank 0, row 2. -/
theorem witness_RequestsStaged_check :
    let w := lab.workingCopy
    let engine := fun st r => { w with engines := w.engines.set 0 (st, some r) }
    let bank := fun st r => { w with banks := w.banks.set 0 (st, some r) }
    0 < 4 ∧ ((w.engines.get 0).1 = .free ∧ (w.banks.get 0).1 = .idle ∧ 0 < w.free) ∧
    ((engine .pending 2).engines.get 0 = (.pending, some 2) ∧ (engine .running 3).engines.get 0 ≠ (.running, some 2)) ∧
    ((bank .active 2).banks.get 0 = (.active, some 2) ∧ ((bank .active 3).banks.get 0).2 ≠ some 2) ∧
    ((bank .closing 2).banks.get 0).1 = .closing ∧ (labQueue (List.replicate 8 (.activate 0 0))).workingCopy.free = 0 := by
  decide +kernel

theorem witness_BracketAborts :
    (labOpen.bracket.state.isOpen = true ∧ labOpen.serves ∧ labOpen.live = true ∧
      labOpen.bracket.timer.isSome = true) ∧
    (bracketOpen.bracket.state.isOpen = true ∧ bracketOpen.bracket.notify = true ∧
      bracketOpen.trunk.reports.length < 16) :=
  ⟨⟨by decide, labOpen_serves, by decide⟩, by decide +kernel⟩

/-- Counts 0, 1, 8 and 9, depths 1 to 4, and each bracket state. -/
theorem witness_OpenBracketTaken :
    (lab.serves ∧ lab.bracket.state = .idle ∧ lab.inRun = true ∧ lab.watch.guard ≠ .critical) ∧
    (bench.serves ∧ bench.bracket.state = .idle ∧ bench.inRun = false) ∧
    (let s := { lab with watch := { lab.watch with guard := .critical } };
      s.serves ∧ s.bracket.state = .idle ∧ s.inRun = true ∧ s.watch.guard = .critical) ∧
    ((0 : Byte).toNat < 1 ∧ 1 ≤ (1 : Byte).toNat ∧ (8 : Byte).toNat ≤ 8 ∧ 8 < (9 : Byte).toNat) ∧
    (labOpen.serves ∧ labOpen.bracket.state = .opened 1 ∧ labOpen.bracket.state.isOpen = true ∧ 3 < 4) ∧
    (let s := { labOpen with bracket := { labOpen.bracket with state := .opened 4 } };
      s.serves ∧ s.bracket.state = .opened 4) ∧
    (labCounted.serves ∧ labCounted.bracket.state = .counted 8 0 ∧ labCounted.bracket.state.isOpen = true) ∧
    (labAborted.serves ∧ labAborted.bracket.state = .aborted 1) :=
  ⟨⟨lab_serves, by decide⟩, ⟨bench_serves, by decide⟩, ⟨serves_of (by decide), by decide⟩, by decide,
    ⟨labOpen_serves, by decide⟩, ⟨serves_of (by decide), by decide⟩, ⟨labCounted_serves, by decide⟩,
    labAborted_serves, by decide⟩

/-- The last stage holds a CUE that the engine of its bank, PENDING for another row, refuses. -/
theorem witness_CloseBracketTaken :
    (let s := { labOpen with bracket := { labOpen.bracket with state := .opened 2 } };
      s.serves ∧ s.bracket.state = .opened 2 ∧ 1 < 2) ∧
    (labOpen.serves ∧ labOpen.bracket.state = .opened 1 ∧
      checkStage labOpen.workingCopy labOpen.bracket.stage = true) ∧
    (let s := { labOpen.setEngine 0 { Engine.initial with state := .pending, row := some 1 } with
        bracket := { labOpen.bracket with stage := [⟨1, .cue 0 2 none false⟩] } };
      s.serves ∧ s.bracket.state = .opened 1 ∧ checkStage s.workingCopy s.bracket.stage = false) ∧
    (labCounted.serves ∧ labCounted.bracket.state = .counted 8 0) ∧ (lab.serves ∧ lab.bracket.state = .idle) ∧
    (labAborted.serves ∧ labAborted.bracket.state = .aborted 1) :=
  ⟨⟨serves_of (by decide), by decide⟩, ⟨labOpen_serves, by decide⟩, ⟨serves_of (by decide), by decide⟩,
    ⟨labCounted_serves, by decide⟩, ⟨lab_serves, by decide⟩, labAborted_serves, by decide⟩

theorem witness_AbandonBracketTaken :
    (labOpen.serves ∧ labOpen.bracket.state.isOpen = true) ∧ (labAborted.serves ∧ labAborted.bracket.state = .aborted 1) ∧
    (lab.serves ∧ lab.bracket.state = .idle) :=
  ⟨⟨labOpen_serves, by decide⟩, ⟨labAborted_serves, by decide⟩, lab_serves, by decide⟩

/-- Bank 3 and row 31 with every pair of states the table of R131 lists. -/
theorem witness_CueTaken :
    let pending := lab.setEngine 3 { Engine.initial with state := .pending, row := some 31 }
    let running := lab.setEngine 3 { Engine.initial with state := .running, row := some 31 }
    let active := lab.setBank 3 { Bank.initial with state := .active, row := some 31 }
    let closing := lab.setBank 3 { Bank.initial with state := .closing }
    let full := labQueue (List.replicate 8 (.activate 0 0))
    (lab.serves ∧ lab.inRun = true ∧ lab.bracket.state = .idle ∧ (3 : Byte).toNat < 4 ∧ (31 : Byte).toNat < 32 ∧
      ((some (6000 : Word16)).map BitVec.toNat).getD 0 ≤ 6000) ∧
    ((pending.engine 3).state ≠ .free ∧ (pending.engine 3).row ≠ some 30 ∧ (pending.engine 3).state = .pending ∧
      (pending.engine 3).row = some 31) ∧
    ((running.engine 3).state = .running ∧ (running.engine 3).row = some 31) ∧
    ((active.engine 3).state = .free ∧ (active.bank 3).state = .active ∧ (active.bank 3).row = some 31 ∧
      (active.bank 3).row ≠ some 30) ∧
    ((lab.engine 3).state = .free ∧ (lab.bank 3).state = .idle ∧ lab.store.queue.length < 8) ∧
    ((full.engine 3).state = .free ∧ (full.bank 3).state = .idle ∧ 8 ≤ full.store.queue.length ∧ full.serves) ∧
    ((closing.engine 3).state = .free ∧ (closing.bank 3).state = .closing) :=
  ⟨⟨lab_serves, by decide⟩, by decide, by decide, by decide, by decide,
    ⟨by decide, by decide, by decide, serves_of (by decide +kernel)⟩, by decide⟩

/-- CUE in CONFIG, and with the bank, the row or the fade time one past its range. -/
theorem witness_CueTaken_refused :
    (bench.serves ∧ bench.bracket.state = .idle ∧ bench.inRun = false) ∧
      (lab.serves ∧ lab.bracket.state = .idle ∧ lab.inRun = true) ∧ 4 ≤ (4 : Byte).toNat ∧ 32 ≤ (32 : Byte).toNat ∧
      6000 < ((some (6001 : Word16)).map BitVec.toNat).getD 0 :=
  ⟨⟨bench_serves, by decide⟩, ⟨lab_serves, by decide⟩, by decide⟩

theorem witness_ReleaseBankTaken :
    let pending := lab.setEngine 3 { Engine.initial with state := .pending, row := some 31 }
    let running := lab.setEngine 3 { Engine.initial with state := .running, row := some 31 }
    let active := lab.setBank 3 { Bank.initial with state := .active, row := some 31 }
    (lab.serves ∧ lab.bracket.state = .idle ∧ lab.inRun = true ∧ 4 ≤ (4 : Byte).toNat ∧ (3 : Byte).toNat < 4) ∧
    (bench.serves ∧ bench.bracket.state = .idle ∧ bench.inRun = false) ∧
    ((running.engine 3).state = .running ∧ (pending.engine 3).state = .pending) ∧
    ((active.engine 3).state = .free ∧ (active.bank 3).state = .active) ∧
    ((lab.engine 3).state = .free ∧ (lab.bank 3).state = .idle) :=
  ⟨⟨lab_serves, by decide⟩, ⟨bench_serves, by decide⟩, by decide, by decide, by decide⟩

/-- 8.12 at 120 ms: engine 2 takes channel 100, and engine 0 keeps channel 103. -/
theorem witness_FadeStarts :
    let s := (lab.setBank 2 { Bank.initial with state := .active, row := some 5, pairs := [(100, 200)], fade := 5 }).setEngine
      0 { Engine.initial with state := .running, held := [⟨100, 0, 1000⟩, ⟨103, 1000, 400⟩] }
    2 < 4 ∧ (s.bank 2).pairs ≠ [] ∧ 1 ≤ s.tables.profile.period ∧
      0 < 100 * ((s.engine 2).fade.getD (s.bank 2).fade) ∧
      (∀ c, c < 4 → c ≠ 2 → (s.engine c).held ≠ [] →
        ∃ h ∈ (s.engine c).held, ∀ p ∈ (s.bank 2).pairs, p.1 ≠ h.channel) := by decide +kernel

/-- Engine 2 beside engine 0, which holds channel 100 alone, and what the takeover leaves of the two. -/
def takeover (pairs : List (Nat × Nat)) (fade : Nat) : State × State :=
  let s := (lab.setBank 2 { Bank.initial with state := .active, row := some 5, pairs := pairs, fade := fade }).setEngine
    0 { Engine.initial with state := .running, held := [⟨100, 0, 1000⟩] }
  let e := { Engine.initial with state := .running, row := some 5, total := (100 * fade + 50 - 1) / 50 }
  (s, (s.setEngine 2 { e with held := pairs.map fun p => ⟨p.1, (s.image.get p.1).demand, p.2⟩ }).setEngine 0
    { s.engine 0 with held := (s.engine 0).held.filter fun h => !pairs.any fun p => p.1 == h.channel })

/-- It leaves engine 0 bare, with steps to make and with none; and with an empty buffer engine 0 keeps its channel. -/
theorem witness_FadeStarts_bare :
    let meets := fun (s u : State) (pairs : List (Nat × Nat)) (fade : Nat) =>
      (s.bank 2).pairs = pairs ∧ (s.engine 2).fade.getD (s.bank 2).fade = fade ∧ 1 ≤ s.tables.profile.period ∧
      u.engine 2 = { s.engine 2 with
        state := .running
        row := (s.bank 2).row
        releaseAfter := false
        total := (100 * fade + s.tables.profile.period - 1) / s.tables.profile.period
        step := 0
        timer := none
        held := pairs.map fun p => ⟨p.1, (s.image.get p.1).demand, p.2⟩ } ∧
      ∀ c, c < 4 → c ≠ 2 → u.engine c = { s.engine c with
        held := (s.engine c).held.filter fun h => !pairs.any fun p => p.1 == h.channel }
    meets (takeover [(100, 200)] 5).1 (takeover [(100, 200)] 5).2 [(100, 200)] 5 ∧
      meets (takeover [(100, 200)] 0).1 (takeover [(100, 200)] 0).2 [(100, 200)] 0 ∧
      meets (takeover [] 5).1 (takeover [] 5).2 [] 5 ∧
      ((takeover [(100, 200)] 5).2.engine 0).held = [] ∧
      (takeover [] 0).2 = { (takeover [] 0).1 with engines := (takeover [] 0).2.engines } :=
  ⟨by decide +kernel, by decide +kernel, by decide +kernel, by decide +kernel, rfl⟩

theorem witness_EngineEvents :
    let done := { lab with store := { lab.store with completions := [3] } }
    let waiting := done.setEngine 3 { Engine.initial with state := .pending, row := some 31 }
    let loaded := waiting.setBank 3 { Bank.initial with state := .active, row := some 31 }
    let fading := loaded.setEngine 3
      { Engine.initial with state := .running, total := 4, step := 3, timer := some 0, held := [⟨103, 1000, 400⟩] }
    (done.live = true ∧ done.store.completions.contains 3 = true ∧ (done.engine 3).state = .free) ∧
    ((waiting.engine 3).state = .pending ∧ (waiting.bank 3).state = .idle) ∧
    ((loaded.engine 3).state = .pending ∧ (loaded.bank 3).state = .active) ∧
    ((fading.engine 3).timer.isSome = true ∧ (fading.engine 3).step + 1 = (fading.engine 3).total ∧
      (fading.bank 3).state = .active) ∧ 2 + 1 ≠ (fading.engine 3).total := by decide

/-- The last step of a fade, and the first of several. -/
theorem witness_FadeExact : (4 ≤ 4 ∧ 0 < 4) ∧ (1 ≤ 4 ∧ 0 < 4) := by decide

/-- An image region with nothing listed is in its canonical form. -/
theorem witness_ResetLawful : Memory.wf State.reset.memory.image := by decide

/-- A state with every law, and a step from it. -/
theorem witness_Laws_step : step State.reset = .next State.reset.tick := by rfl

theorem witness_FramesReadBack :
    Instr.wellFormed (.writeTable 1 8 0 0 (List.replicate 1016 0)) = true ∧
    (encodeTrunkFrame (.enterRun 1 true)).isSome = true ∧
    (∀ tag r, Instr.enterRun 1 true = .enterRun tag r → r = true) ∧
    itemsWellFormed [⟨0, 0, .ok⟩] = true ∧ itemsWellFormed (List.replicate 12 ⟨0, 0, .fault⟩) = true ∧
    ((0x5A : Byte) ∉ ([0, 1] : List Byte) ∧ 0 < 4 ∧ 4 < ((encodeTrunkFrame (.readInfo 7)).getD []).length ∧
      4 < (encodeReport 5 [⟨0, 0, .ok⟩]).length) := by
  refine ⟨by decide +kernel, by decide +kernel, ?_, by decide, by decide, by decide +kernel⟩
  intro tag r h
  injection h with _ h
  exact h.symm

end Sys2Proof.Tests
end

section
/-! The laws right after a reset. -/

namespace Sys2Proof.Machine

open Sys2Proof

/-! ### The guard level of entries at rest (R57) -/

@[simp] theorem GuardLevel.max_normal (g : GuardLevel) : g.max .normal = g := by cases g <;> rfl

theorem entryLevel_idle {p : WatchRec × WatchRun} (h : p.2.state = .idle) : entryLevel p = .normal := by
  simp [entryLevel, h]

/-- R57: entries that are all IDLE make no level. -/
theorem guardOf_idle {t : Tables} {runs : Tab WatchRun 32} (h : ∀ w ∈ runs.list, w.state = .idle) :
    guardOf t runs = .normal := by
  have hz : ∀ p ∈ (t.watch.zip runs).list, p.2.state = .idle := fun p hp => h _ (List.of_mem_zip hp).2
  unfold guardOf
  generalize (t.watch.zip runs).list = l at hz
  induction l with
  | nil => rfl
  | cons p l ih =>
    rw [List.foldl_cons, entryLevel_idle (hz p (List.mem_cons_self ..)), GuardLevel.max_normal]
    exact ih fun q hq => hz q (List.mem_cons_of_mem _ hq)

/-! ### The part right after a reset (R175) -/

section started
variable (pending : List Instr) (memory : SerialMemory) (straps : Straps) (cause : ResetCause)

@[simp] theorem State.started_inRun : (State.started pending memory straps cause).inRun = false := by
  obtain ⟨boot, _, _⟩ := straps
  cases boot <;> rfl

theorem WatchUnit.initial_idle : ∀ w ∈ WatchUnit.initial.runs.list, w.state = .idle := by
  intro w hw
  rw [List.eq_of_mem_replicate (show w ∈ List.replicate 32 WatchRun.initial from hw)]
  rfl

theorem State.started_lawful (h : Memory.wf memory.image) : (State.started pending memory straps cause).Lawful where
  memory := h
  queues := by
    simp [State.queueLaw, State.longCount, State.started, SceneStore.initial, TrunkUnit.initial, BracketUnit.initial]
  urgent := List.nodup_nil
  commanded := fun hr => by simp at hr
  guard := ⟨(guardOf_idle WatchUnit.initial_idle).symm, fun _ => ⟨rfl, WatchUnit.initial_idle⟩⟩
  bracket := rfl
  ages := fun hr => by simp at hr

end started

/-- Settles O57. -/
theorem resetLawful : Obligations.ResetLawful :=
  ⟨State.started_lawful, State.started_lawful _ _ _ _ reset_memory_wf⟩

end Sys2Proof.Machine
end

section
/-! The field segment: what the events of a slot do, one rule each. -/

namespace Sys2Proof.Machine

open Sys2Proof

variable {s : State}

/-! ### A frame held behind one that is being received (R1) -/

theorem State.releaseHold_held {stale : Bool} {frame : Outgoing} (h : s.seg.phase = .held stale frame) :
    s.releaseHold stale = s.setPhase frame.phase := by
  simp [State.releaseHold, h]

theorem State.releaseHold_free {stale : Bool} (h : ∀ frame, s.seg.phase ≠ .held stale frame) :
    s.releaseHold stale = s := by
  unfold State.releaseHold
  split
  case h_1 b frame hp =>
    have hb : b ≠ stale := fun e => h frame (e ▸ hp)
    rw [if_neg hb]
  all_goals rfl

/-- R9: a frame discarded: it is counted, and the frame it held goes out. -/
theorem State.frameDiscarded_held {frame : Outgoing} (h : s.seg.phase = .held false frame) :
    s.frameDiscarded = State.raise { s with seg := { s.seg with
      checkErrors := satSucc s.seg.checkErrors
      phase := frame.phase } } .fieldErrors := by
  rw [State.frameDiscarded, State.releaseHold_held (s := s.discardFieldFrame) (frame := frame) h]
  rfl

theorem State.frameDiscarded_free (h : ∀ frame, s.seg.phase ≠ .held false frame) :
    s.frameDiscarded = s.discardFieldFrame :=
  State.releaseHold_free (s := s.discardFieldFrame) h

/-! ### The events of the field segment, in RUN (R5, R7 to R10) -/

section running
variable (h : s.running = true)
include h

theorem State.pollSent_polling {n : Nat} (hp : s.seg.phase = .sendingPoll n) :
    s.pollSent = (s.setPhase (.awaiting n)).setReplyTimer (some s.seg.replyTimeout) := by
  simp [State.pollSent, h, hp]

theorem State.setSent_sending {n : Nat} {pairs : List (Nat × Nat)} (hp : s.seg.phase = .sendingSet n pairs)
    (receiving : Bool) : s.setSent receiving = (s.updateNode n NodeRun.served).endSlotAmid receiving := by
  simp [State.setSent, h, hp]

theorem State.fieldBadFrame_running : s.fieldBadFrame = s.frameDiscarded := if_pos h

theorem State.ignoredFrameEnds_running : s.ignoredFrameEnds = s.releaseHold true := if_pos h

theorem State.goodReport_taken {address : Byte} {items : List Item} (ha : s.awaits address items = true) :
    s.goodReport address items = s.reportTaken address.toNat items := by
  simp [State.goodReport, h, ha]

theorem State.goodReport_discarded {address : Byte} {items : List Item} (ha : s.awaits address items = false) :
    s.goodReport address items = s.frameDiscarded := by
  simp [State.goodReport, h, ha]

theorem State.replyTimeout_awaiting {n : Nat} (hp : s.seg.phase = .awaiting n) (ht : s.seg.replyTimer.isSome = true)
    (receiving : Bool) : s.replyTimeout receiving = ((s.setReplyTimer none).missNode n).endSlotAmid receiving := by
  simp [State.replyTimeout, h, hp, ht]

end running

/-- R8: a REPORT ends the slot that awaits it, with 1 to 12 items. -/
theorem State.awaits_iff {address : Byte} {items : List Item} : s.awaits address items = true ↔
    s.seg.phase = .awaiting address.toNat ∧ 1 ≤ items.length ∧ items.length ≤ 12 := by
  simp [State.awaits, and_assoc]

/-! ### Node records (R3 to R5) -/

theorem State.updateNode_recorded {a i : Nat} (h : s.tables.nodeIndex a = some i) (f : NodeRun → NodeRun) :
    s.updateNode a f = { s with seg := { s.seg with nodes := s.seg.nodes.set i (f (s.seg.nodes.get i)) } } := by
  simp [State.updateNode, h, Tab.modify]

theorem State.nodeRun_recorded {a i : Nat} (h : s.tables.nodeIndex a = some i) : s.nodeRun a = s.seg.nodes.get i := by
  simp [State.nodeRun, h]

theorem Tables.nodeIndex_lt {t : Tables} {a i : Nat} (h : t.nodeIndex a = some i) : i < 48 := (Tab.first_some h).1

theorem State.moveNode_recorded {a i : Nat} (h : s.tables.nodeIndex a = some i) (f : NodeRun → NodeRun) :
    s.moveNode a f =
      State.raiseIf { s with seg := { s.seg with nodes := s.seg.nodes.set i (f (s.seg.nodes.get i)) } }
        ((s.seg.nodes.get i).state != (f (s.seg.nodes.get i)).state) .nodeChanged := by
  rw [State.moveNode, State.updateNode_recorded h, State.nodeRun_recorded h]

theorem State.missNode_recorded {a i : Nat} (h : s.tables.nodeIndex a = some i) :
    s.missNode a = s.moveNode a (s.tables.nodes.get i).missed := by
  simp [State.missNode, Tables.nodeOf, h]

/-! ### The ends of the frames, and misses -/

/-- Settles O25, event by event. -/
theorem segmentFramesEnd : Obligations.SegmentFramesEnd := by
  refine ⟨fun s n h => ⟨fun hp => ?poll, fun pairs i receiving hp hi => ?set⟩,
    fun s h => ⟨fun hp => ?free, fun frame hp => ?held, fun address items ha => ?report, fun frame hp => ?ignored,
      fun hp => ?ignoredFree⟩,
    fun s => ⟨fun n hp => ?pollBytes, fun n pairs hp => ?setBytes, fun hp => ?released⟩⟩
  case poll => exact congrArg _ (State.pollSent_polling h hp)
  case set =>
    show Host.Outcome.next (s.setSent receiving) = _
    rw [State.setSent_sending h hp, State.updateNode_recorded hi]
    rfl
  case free =>
    show Host.Outcome.next s.fieldBadFrame = _
    rw [State.fieldBadFrame_running h, State.frameDiscarded_free hp]
    rfl
  case held =>
    show Host.Outcome.next s.fieldBadFrame = _
    rw [State.fieldBadFrame_running h, State.frameDiscarded_held hp]
    cases frame <;> rfl
  case report =>
    have hn : s.awaits address items = false := by
      rw [← Bool.not_eq_true, State.awaits_iff]
      rintro ⟨hp, h1, h12⟩
      obtain h | h | h := ha
      · exact h hp
      · omega
      · omega
    show Host.Outcome.next (s.goodReport address items) = Host.Outcome.next s.fieldBadFrame
    rw [State.goodReport_discarded h hn, State.fieldBadFrame_running h]
  case ignored =>
    show Host.Outcome.next s.ignoredFrameEnds = _
    rw [State.ignoredFrameEnds_running h, State.releaseHold_held hp]
    cases frame <;> rfl
  case ignoredFree =>
    show Host.Outcome.next s.ignoredFrameEnds = _
    rw [State.ignoredFrameEnds_running h, State.releaseHold_free hp]
  case pollBytes => simp [State.frameOnField, hp, pollFrame, closeFrame, Config.startMark]
  case setBytes => simp [State.frameOnField, hp, setFrame, closeFrame, Config.startMark]
  case released =>
    obtain hp | ⟨stale, frame, hp⟩ | ⟨n, hp⟩ := hp <;> simp [State.frameOnField, hp]

/-- R5: the state a miss leaves, by the node's two limits. -/
theorem NodeRec.missed_state (m : NodeRec) (r : NodeRun) : (m.missed r).state =
    if min 15 (r.misses + 1) < m.silent then r.state
    else if min 15 (r.misses + 1) < m.offline then (if r.state = .offline then .offline else .silent)
    else .offline := rfl

/-- Settles O27. -/
theorem repliesMissed : Obligations.RepliesMissed := by
  refine ⟨fun m r => ⟨rfl, rfl, rfl, fun h => ?_, fun h1 h2 => ?_, fun h1 h2 => ?_⟩,
    fun receiving n i s h hp ht hi => ?_⟩
  · rw [NodeRec.missed_state, if_pos h]
  · rw [NodeRec.missed_state, if_neg (by omega), if_pos h2]
  · rw [NodeRec.missed_state, if_neg (by omega), if_neg (by omega)]
  · show Host.Outcome.next (s.replyTimeout receiving) = _
    rw [State.replyTimeout_awaiting h hp ht, State.missNode_recorded (s := s.setReplyTimer none) hi,
      State.moveNode_recorded (s := s.setReplyTimer none) hi]
    rfl

end Sys2Proof.Machine
end

section
/-! What an event leaves of the segment master and of the event flags: neither a slot's start nor an event of the
image touches the node records, the reply timer or the check errors, and nothing but a request clears a flag. -/

namespace Sys2Proof.Machine

open Sys2Proof

/-! ### The segment master apart from its slot, its urgent queue and the log of the image -/

/-- The segment master without what a slot start and an event of the image change. -/
def Segment.steady (g : Segment) : Segment :=
  { g with slotPos := 0, phase := .silent, urgent := [], log := [], draws := 0 }

/-- The same, read of the whole part. -/
def State.steady (s : State) : Segment := s.seg.steady

theorem State.steady_of_seg {s t : State} (h : t.seg = s.seg) : t.steady = s.steady := congrArg Segment.steady h

/-- What a part with the same steady reading has in common. -/
theorem State.seg_of_steady {s t : State} (h : t.steady = s.steady) :
    t.seg.nodes = s.seg.nodes ∧ t.seg.replyTimer = s.seg.replyTimer ∧ t.seg.checkErrors = s.seg.checkErrors ∧
      t.seg.replyTimeout = s.seg.replyTimeout := by
  simp only [State.steady, Segment.steady, Segment.mk.injEq] at h
  simp [h]

section steady
variable (s : State)

@[simp] theorem State.raise_steady (f : EventFlag) : (s.raise f).steady = s.steady := rfl

@[simp] theorem State.raiseIf_steady (c : Bool) (f : EventFlag) : (s.raiseIf c f).steady = s.steady :=
  State.steady_of_seg (by simp)

@[simp] theorem State.abortBracket_steady (c : AbortCode) (o : Option Nat) (r : Option ResultCode) :
    (s.abortBracket c o r).steady = s.steady := State.steady_of_seg (by simp)

@[simp] theorem State.sendUplink_steady (points : List Nat) : (s.sendUplink points).steady = s.steady :=
  State.steady_of_seg (by simp)

@[simp] theorem State.setPoint_steady (p : Nat) (r : PointRun) : (s.setPoint p r).steady = s.steady := rfl

@[simp] theorem State.setStation_steady (i : Nat) (r : StationRun) : (s.setStation i r).steady = s.steady := rfl

@[simp] theorem State.setZoneRun_steady (z : Nat) (r : ZoneRun) : (s.setZoneRun z r).steady = s.steady := rfl

@[simp] theorem State.asSeries_steady (t : State) : (s.asSeries t).steady = t.steady := rfl

@[simp] theorem State.asStep_steady (t : State) : (s.asStep t).steady = t.steady := rfl

@[simp] theorem State.reclamp_steady (g : GuardLevel) : (s.reclamp g).steady = s.steady := rfl

@[simp] theorem foldl_steady {β : Type} {f : State → β → State} (h : ∀ a b, (f a b).steady = a.steady)
    (l : List β) (a : State) : (l.foldl f a).steady = a.steady := foldl_keep State.steady h l a

theorem slotStart_steady (n : Nat) (hold : Option Bool) : (Machine.startSlot n hold s).steady = s.steady := by
  induction n generalizing s with
  | zero => rfl
  | succ n ih =>
    unfold startSlot
    dsimp only
    split
    case h_4 | h_5 => exact ih s.advanceSlot
    all_goals rfl

@[simp] theorem State.endSlot_steady (receiving : Bool) : (s.endSlot receiving).steady = s.steady :=
  slotStart_steady _ _ _

@[simp] theorem State.endSlotBefore_steady (receiving : Bool) (late : Nat) :
    (s.endSlotBefore receiving late).steady = s.steady := by
  unfold State.endSlotBefore
  split
  · exact State.endSlot_steady (s.backTo _) receiving
  · exact s.endSlot_steady receiving

@[simp] theorem State.endSlotAmid_steady (receiving : Bool) : (s.endSlotAmid receiving).steady = s.steady := by
  unfold State.endSlotAmid
  split
  · exact State.endSlotBefore_steady s.countDraw receiving _
  · exact s.endSlot_steady receiving

@[simp] theorem State.writeDemand_steady (ch level : Nat) : (s.writeDemand ch level).steady = s.steady := by
  unfold State.steady
  obtain h | ⟨offers, h⟩ := s.writeDemand_seg ch level <;> rw [h]
  rfl

@[simp] theorem State.writeDemandTo_steady (ch : Option Nat) (level : Nat) :
    (s.writeDemandTo ch level).steady = s.steady := by
  cases ch
  · rfl
  · exact s.writeDemand_steady _ level

@[simp] theorem State.writeSeries_steady (writes : List (Nat × Nat)) : (s.writeSeries writes).steady = s.steady := by
  simp [State.writeSeries]

@[simp] theorem State.setGuard_steady (g : GuardLevel) : (s.setGuard g).steady = s.steady := by
  unfold State.setGuard
  dsimp only
  split
  · rfl
  · split <;> simp <;> rfl

@[simp] theorem State.watchEvent_steady (act : Nat → WatchRec → WatchRun → EntryOutcome) :
    (s.watchEvent act).steady = s.steady := by
  simp [State.watchEvent]
  rfl

@[simp] theorem State.putStep_steady (i k : Nat) : (s.putStep i k).steady = s.steady := by simp [State.putStep]

@[simp] theorem State.putFogState_steady (i : Nat) (n : FogState) : (s.putFogState i n).steady = s.steady := by
  unfold State.putFogState
  dsimp only
  split <;> simp

@[simp] theorem State.evaluateStation_steady (i : Nat) : (s.evaluateStation i).steady = s.steady := by
  unfold State.evaluateStation
  dsimp only
  split <;> simp

@[simp] theorem State.dehumidDemand_steady (before : Nat) : (s.dehumidDemand before).steady = s.steady := by
  unfold State.dehumidDemand State.dehumidRun State.dehumidRest
  (repeat' split) <;> simp <;> rfl

@[simp] theorem State.publishFog_steady : s.publishFog.steady = s.steady := by
  unfold State.publishFog
  dsimp only
  split
  · rfl
  · simp only [State.dehumidDemand_steady]
    rfl

@[simp] theorem State.fogPoint_steady (p : Nat) : (s.fogPoint p).steady = s.steady := by
  unfold State.fogPoint
  split <;> simp

@[simp] theorem State.recomputeZone_steady (z : Nat) : (s.recomputeZone z).steady = s.steady := by
  simp [State.recomputeZone]

@[simp] theorem State.zonePoint_steady (p : Nat) : (s.zonePoint p).steady = s.steady := by
  unfold State.zonePoint
  simp

@[simp] theorem State.dispatchPass_steady : s.dispatchPass.steady = s.steady :=
  ((State.raiseIf_steady _ _ _).trans (State.raiseIf_steady _ _ _)).trans (s.writeSeries_steady _)

@[simp] theorem State.heatArrival_steady (p : Nat) : (s.heatArrival p).steady = s.steady := by
  unfold State.heatArrival
  dsimp only
  split
  · split
    · exact s.dispatchPass_steady
    · rfl
  · rfl

@[simp] theorem State.lossOfUse_steady (p : Nat) : (s.lossOfUse p).steady = s.steady := by
  simp [State.lossOfUse, State.watchLoss]

@[simp] theorem State.okItem_steady (p : Nat) (v : Int) : (s.okItem p v).steady = s.steady := by
  simp [State.okItem, State.valueUpdate, State.watchValue]

@[simp] theorem State.faultItem_steady (p : Nat) : (s.faultItem p).steady = s.steady := by
  unfold State.faultItem
  dsimp only
  split <;> simp

@[simp] theorem State.applyItem_steady (n : Nat) (item : Item) : (s.applyItem n item).steady = s.steady := by
  unfold State.applyItem
  (repeat' split) <;> simp

@[simp] theorem State.takeItems_steady (n : Nat) (items : List Item) : (s.takeItems n items).steady = s.steady := by
  simp [State.takeItems]

end steady

/-! ### No event clears a flag (R168, R170) -/

/-- Every flag set in `t` is set in `u`. -/
structure TrunkUnit.FlagsKept (t u : TrunkUnit) : Prop where
  kept : ∀ g : EventFlag, g.of t.flags = true → g.of u.flags = true

@[simp] theorem TrunkUnit.FlagsKept.rfl {t : TrunkUnit} : t.FlagsKept t := ⟨fun _ h => h⟩

theorem TrunkUnit.FlagsKept.trans {t u v : TrunkUnit} (h : t.FlagsKept u) (h' : u.FlagsKept v) : t.FlagsKept v :=
  ⟨fun g hg => h'.kept g (h.kept g hg)⟩

theorem foldl_flagsKept {β : Type} {f : State → β → State} (h : ∀ (s : State) b, s.trunk.FlagsKept (f s b).trunk)
    (l : List β) (s : State) : s.trunk.FlagsKept (l.foldl f s).trunk := by
  induction l generalizing s with
  | nil => exact .rfl
  | cons b l ih => exact (h s b).trans (ih (f s b))

theorem TrunkUnit.raiseDropped_flagsKept (t : TrunkUnit) (e : Word16) : t.FlagsKept (t.raiseDropped e) := by
  constructor
  intro g hg
  unfold TrunkUnit.raiseDropped
  (repeat' split) <;> simp [hg, EventFlag.of_or]

theorem TrunkUnit.offerUplink_flagsKept (t : TrunkUnit) (l : List UplinkEntry) (e : Word16) :
    t.FlagsKept (t.offerUplink l e).1 := by
  unfold TrunkUnit.offerUplink
  constructor
  intro g hg
  split
  · exact (TrunkUnit.raiseDropped_flagsKept _ e).kept g hg
  · simpa [TrunkUnit.queueReport] using hg

section flags
variable (s : State)

@[simp] theorem State.raise_flagsKept (f : EventFlag) : s.trunk.FlagsKept (s.raise f).trunk :=
  ⟨fun _ hg => TrunkUnit.raise_keeps hg ..⟩

@[simp] theorem State.raiseIf_flagsKept (c : Bool) (f : EventFlag) : s.trunk.FlagsKept (s.raiseIf c f).trunk := by
  cases c
  · exact .rfl
  · exact s.raise_flagsKept f

theorem State.raiseIf_sets {c : Bool} (h : c = true) (f : EventFlag) : f.of (s.raiseIf c f).trunk.flags = true := by
  rw [State.raiseIf, if_pos h]
  exact TrunkUnit.raise_sets ..

@[simp] theorem State.abortBracket_flagsKept (c : AbortCode) (o : Option Nat) (r : Option ResultCode) :
    s.trunk.FlagsKept (s.abortBracket c o r).trunk := by
  unfold State.abortBracket
  split
  · exact ⟨fun _ hg => TrunkUnit.raiseAborted_keeps hg ..⟩
  · exact .rfl

theorem State.sendUplink_flagsKept (points : List Nat) : s.trunk.FlagsKept (s.sendUplink points).trunk := by
  unfold State.sendUplink
  dsimp only
  split
  · exact .rfl
  · have offered : s.trunk.FlagsKept (s.offerUplink (points.map s.uplinkEntry)).1.trunk :=
      s.trunk.offerUplink_flagsKept _ s.tables.enables
    split
    · simpa using offered
    · exact offered

theorem State.setGuard_flagsKept (g : GuardLevel) : s.trunk.FlagsKept (s.setGuard g).trunk := by
  unfold State.setGuard
  dsimp only
  split
  · exact .rfl
  · have raised := State.raise_flagsKept { s with watch := { s.watch with guard := g } } .guardChanged
    split
    · exact .trans raised (State.abortBracket_flagsKept (State.reclamp (State.raise _ _) g) ..)
    · exact raised

theorem State.watchEvent_flagsKept (act : Nat → WatchRec → WatchRun → EntryOutcome) :
    s.trunk.FlagsKept (s.watchEvent act).trunk := by
  unfold State.watchEvent
  dsimp only
  refine .trans ?_ (State.setGuard_flagsKept _ _)
  refine .trans ?_ (State.raiseIf_flagsKept _ _ _)
  exact .rfl

theorem State.putFogState_flagsKept (i : Nat) (n : FogState) : s.trunk.FlagsKept (s.putFogState i n).trunk := by
  unfold State.putFogState
  dsimp only
  split
  · exact .rfl
  · rw [((State.raise _ .fogChanged).putStep_frame i 0).2.2.2.2.2.2.2.2.2.2.2.2]
    exact State.raise_flagsKept (s.setStation i _) .fogChanged

theorem State.evaluateStation_flagsKept (i : Nat) : s.trunk.FlagsKept (s.evaluateStation i).trunk := by
  unfold State.evaluateStation
  dsimp only
  split <;> exact State.putFogState_flagsKept (s.setStation i _) i _

theorem State.fogPoint_flagsKept (p : Nat) : s.trunk.FlagsKept (s.fogPoint p).trunk := by
  unfold State.fogPoint
  split
  · exact .rfl
  · simpa using foldl_flagsKept State.evaluateStation_flagsKept (s.tables.stationsOf p) s

theorem State.dispatchPass_flagsKept : s.trunk.FlagsKept s.dispatchPass.trunk := by
  have written (writes) : (s.writeSeries writes).trunk = s.trunk := by simp
  unfold State.dispatchPass
  dsimp only
  refine .trans ?_ (State.raiseIf_flagsKept _ _ _)
  refine .trans ?_ (State.raiseIf_flagsKept _ _ _)
  rw [written]
  exact .rfl

theorem State.heatArrival_flagsKept (p : Nat) : s.trunk.FlagsKept (s.heatArrival p).trunk := by
  unfold State.heatArrival
  dsimp only
  split
  · split
    · exact s.dispatchPass_flagsKept
    · exact .rfl
  · exact .rfl

theorem State.lossOfUse_flagsKept (p : Nat) : s.trunk.FlagsKept (s.lossOfUse p).trunk := by
  have watch : s.trunk.FlagsKept (s.watchLoss p).trunk := s.watchEvent_flagsKept _
  simpa [State.lossOfUse] using watch.trans ((s.watchLoss p).fogPoint_flagsKept p)

theorem State.valueUpdate_flagsKept (p : Nat) (v : Int) : s.trunk.FlagsKept (s.valueUpdate p v).trunk := by
  have watch : s.trunk.FlagsKept (s.watchValue p v).trunk := s.watchEvent_flagsKept _
  have zone : s.trunk.FlagsKept (((s.watchValue p v).fogPoint p).zonePoint p).trunk := by
    simpa using watch.trans ((s.watchValue p v).fogPoint_flagsKept p)
  exact zone.trans (State.heatArrival_flagsKept _ p)

theorem State.faultItem_flagsKept (p : Nat) : s.trunk.FlagsKept (s.faultItem p).trunk := by
  unfold State.faultItem
  dsimp only
  split
  · exact State.lossOfUse_flagsKept (s.setPoint p _) p
  · exact .rfl

theorem State.applyItem_flagsKept (n : Nat) (item : Item) : s.trunk.FlagsKept (s.applyItem n item).trunk := by
  unfold State.applyItem
  split
  case h_2 => exact .rfl
  case h_1 p _ =>
    cases item.quality
    · exact State.valueUpdate_flagsKept (s.setPoint p _) p _
    · exact s.faultItem_flagsKept p

theorem State.takeItems_flagsKept (n : Nat) (items : List Item) : s.trunk.FlagsKept (s.takeItems n items).trunk :=
  (foldl_flagsKept (fun s i => s.applyItem_flagsKept n i) items s).trans (State.sendUplink_flagsKept _ _)

end flags

/-! ### A good REPORT (R4, R8) -/

/-- Settles O26: the slot ends and the node is moved; the items then leave the node, its timer and its flag alone. -/
theorem goodReportTaken : Obligations.GoodReportTaken := by
  intro address items i s h hp h1 h12 hi
  have hlt := Tables.nodeIndex_lt hi
  have ha : s.awaits address items = true := State.awaits_iff.2 ⟨hp, h1, h12⟩
  -- `v` is the part behind the slot's end, `u` behind the node's move, `t` behind the items
  generalize hv : (s.setReplyTimer none).endSlotAmid false = v
  generalize hu : v.moveNode address.toNat NodeRun.reported = u
  have ht : s.reportTaken address.toNat items = u.asStep (u.takeItems address.toNat items) := by
    rw [← hu, ← hv]
    rfl
  generalize htu : u.asStep (u.takeItems address.toNat items) = t at ht
  have hvs : v.steady = (s.setReplyTimer none).steady := by rw [← hv]; simp
  obtain ⟨hvn, hvt, hve, -⟩ := State.seg_of_steady hvs
  have hvi : v.tables.nodeIndex address.toNat = some i := by rw [← hv]; simpa using hi
  have hus : u.seg = { v.seg with nodes := v.seg.nodes.set i (v.seg.nodes.get i).reported } := by
    rw [← hu, State.moveNode_recorded hvi]; simp
  have hts : t.steady = u.steady := by rw [← htu]; simp
  obtain ⟨htn, htt, hte, -⟩ := State.seg_of_steady hts
  have hnode : t.seg.nodes.get i = (v.seg.nodes.get i).reported := by rw [htn, hus]; simp [hlt]
  refine ⟨t, ?_, ?_, by rw [hnode]; rfl, by rw [hnode]; rfl, fun hne => ?_, ?_, ?_, ?_⟩
  · show Host.Outcome.next (s.goodReport address items) = _
    rw [State.goodReport_taken h ha, ht]
  · rw [← htu, ← hu, ← hv]; rfl
  · rw [← htu]
    refine (State.takeItems_flagsKept u _ _).kept .nodeChanged ?_
    rw [← hu, State.moveNode_recorded hvi]
    refine State.raiseIf_sets _ ?_ _
    rw [hvn]
    simpa [NodeRun.reported] using hne
  · rw [htt, hus]; exact hvt
  · rw [hte, hus]; exact hve
  · simp [← htu, ← hu, ← hv]

end Sys2Proof.Machine
end

section
/-! The start of a slot (R6, R10, R11), the pairs of a SET frame, and a start between two writes of a series (R36). -/

namespace Sys2Proof.Machine

open Sys2Proof

variable {s : State}

/-! ### The slot at the slot position -/

/-- The part with its slot position at `p`. -/
def State.atSlot (s : State) (p : Nat) : State := { s with seg := { s.seg with slotPos := p } }

theorem State.advanceSlot_eq : s.advanceSlot = s.atSlot (nextPos s.tables.scheduleHead.slotCount s.seg.slotPos) := rfl

section slotKinds
variable (n : Nat) (hold : Option Bool)

theorem slotStart_poll (h : (s.tables.slots.get s.seg.slotPos).kind = .poll) :
    Machine.startSlot (n + 1) hold s = s.transmit hold (.poll (s.tables.slots.get s.seg.slotPos).address) := by
  simp [Machine.startSlot, h]

theorem slotStart_set (h : (s.tables.slots.get s.seg.slotPos).kind = .set) :
    Machine.startSlot (n + 1) hold s = s.composeSet hold (s.tables.slots.get s.seg.slotPos).address := by
  simp [Machine.startSlot, h]

theorem slotStart_serves {e : UrgentEntry} {rest : List UrgentEntry}
    (h : (s.tables.slots.get s.seg.slotPos).kind = .free) (hq : s.seg.urgent = e :: rest) :
    Machine.startSlot (n + 1) hold s = s.composeSet hold e.address := by
  simp [Machine.startSlot, h, hq]

theorem slotStart_passes (h : (s.tables.slots.get s.seg.slotPos).kind = .free) (hq : s.seg.urgent = []) :
    Machine.startSlot (n + 1) hold s = Machine.startSlot n hold s.advanceSlot := by
  simp [Machine.startSlot, h, hq]

/-- R11: `k` FREE slots in a row that find the queue empty pass on to the slot behind them. -/
theorem slotStart_passesOn (k : Nat) (s : State) (hq : s.seg.urgent = [])
    (h : ∀ j, j < k →
      (s.tables.slots.get ((nextPos s.tables.scheduleHead.slotCount)^[j] s.seg.slotPos)).kind = .free) :
    Machine.startSlot (n + k) hold s =
      Machine.startSlot n hold (s.atSlot ((nextPos s.tables.scheduleHead.slotCount)^[k] s.seg.slotPos)) := by
  induction k generalizing s with
  | zero => rfl
  | succ k ih =>
    rw [← Nat.add_assoc, slotStart_passes _ hold (h 0 k.succ_pos) hq,
      ih s.advanceSlot hq fun j hj => h (j + 1) (Nat.succ_lt_succ hj)]
    rfl

end slotKinds

/-! ### The pairs of a SET frame (R10) -/

theorem State.mem_setPairs {n k v : Nat} : (k, v) ∈ s.setPairs n ↔ k < 16 ∧ ∃ ch, ch < 512 ∧
    (s.tables.channels.get ch).mapped = true ∧ (s.tables.channels.get ch).node = n ∧
    (s.tables.channels.get ch).nodeChannel = k ∧ (s.image.get ch).commanded = v := by
  simp only [State.setPairs, List.mem_flatMap, List.mem_range, List.mem_map, List.mem_filter, Tab.mem_list,
    Bool.and_eq_true, beq_iff_eq, Prod.mk.injEq]
  constructor
  · rintro ⟨j, hj, p, ⟨⟨⟨ch, hch, rfl⟩, hm, hn⟩, hk⟩, rfl, rfl⟩
    rw [Tab.get_zip _ _ _ hch] at hm hn hk ⊢
    exact ⟨hj, ch, hch, hm, hn, hk, rfl⟩
  · rintro ⟨hj, ch, hch, hm, hn, hk, rfl⟩
    exact ⟨k, hj, _, ⟨⟨⟨ch, hch, Tab.get_zip _ _ _ hch⟩, hm, hn⟩, hk⟩, rfl, rfl⟩

/-- The pairs come channel by channel of the node: in rising order wherever those of one channel are. -/
theorem State.setPairs_pairwise {n : Nat} {R : Nat → Nat → Prop} (hlt : ∀ j k, j < k → R j k)
    (hsame : ∀ k, (((s.tables.channels.zip s.image).list.filter fun p => p.1.mapped && p.1.node == n).filter
      fun p => p.1.nodeChannel == k).Pairwise fun _ _ => R k k) :
    (s.setPairs n).Pairwise fun p q => R p.1 q.1 := by
  rw [State.setPairs, List.pairwise_flatMap]
  refine ⟨fun k _ => List.pairwise_map.2 (hsame k), List.pairwise_lt_range.imp fun {j k} hjk p hp q hq => ?_⟩
  simp only [List.mem_map] at hp hq
  obtain ⟨_, _, rfl⟩ := hp
  obtain ⟨_, _, rfl⟩ := hq
  exact hlt j k hjk

theorem State.setPairs_ascending (n : Nat) : (s.setPairs n).Pairwise fun p q => p.1 ≤ q.1 :=
  State.setPairs_pairwise (fun _ _ h => h.le) fun k => List.pairwise_of_forall fun _ _ => le_refl k

/-- Node channels that no two channels of the node share come once each. -/
theorem State.setPairs_distinct {n : Nat}
    (h : ∀ c d, c < 512 → d < 512 → (s.tables.channels.get c).mapped = true →
      (s.tables.channels.get d).mapped = true → (s.tables.channels.get c).node = n → (s.tables.channels.get d).node = n →
      (s.tables.channels.get c).nodeChannel = (s.tables.channels.get d).nodeChannel → c = d) :
    (s.setPairs n).Pairwise fun p q => p.1 < q.1 := by
  refine State.setPairs_pairwise (fun _ _ h => h) fun k => ?_
  rw [List.pairwise_filter, List.pairwise_filter, List.pairwise_iff_getElem]
  intro c d hc hd hcd mc md kc kd
  have hc' : c < 512 := (s.tables.channels.zip s.image).len ▸ hc
  have hd' : d < 512 := (s.tables.channels.zip s.image).len ▸ hd
  rw [← Tab.get_eq (s.tables.channels.zip s.image) _ hc, Tab.get_zip _ _ _ hc'] at mc kc
  rw [← Tab.get_eq (s.tables.channels.zip s.image) _ hd, Tab.get_zip _ _ _ hd'] at md kd
  simp only [Bool.and_eq_true, beq_iff_eq] at mc md kc kd
  exact absurd (h c d hc' hd' mc.1 md.1 mc.2 md.2 (kc.trans kd.symm)) hcd.ne

/-! ### A start between two writes of a series (R36) -/

/-- The moment is one that R36 leaves open: the events behind it begin with a further write of a series, and are of
one step. -/
theorem mayFallBefore_iff (older later : List ImageEvent) : mayFallBefore later.length (older ++ later) = true ↔
    ∃ e rest, later = e :: rest ∧ e.link = .sameSeries ∧ ∀ other ∈ rest, other.link ≠ .first := by
  have hd : (older ++ later).drop ((older ++ later).length - later.length) = later := by simp
  unfold mayFallBefore
  rw [hd]
  cases later <;> simp

theorem mayFallBefore_beyond {log : List ImageEvent} {n : Nat} (h : log.length < n) : mayFallBefore n log = false := by
  simp [mayFallBefore, Nat.not_le.2 h]

/-- The image as it stood before some events holds, of a channel they changed, what the first of them found. -/
theorem foldr_set_get (image : Tab ChannelRun 512) {ch : Nat} (hch : ch < 512) (l : List (Nat × ChannelRun)) :
    (l.foldr (fun b image => image.set b.1 b.2) image).get ch =
      ((l.find? fun b => b.1 == ch).map Prod.snd).getD (image.get ch) := by
  induction l with
  | nil => rfl
  | cons b l ih =>
    rw [List.foldr_cons, Tab.get_set]
    by_cases hb : b.1 = ch
    · simp [hb, hch]
    · simp [hb, ih]

theorem offerNode_value (q : List UrgentEntry) (n : Nat) :
    offerNode q n .value = if ∃ e ∈ q, e.address = n then q else q ++ [⟨n, .value⟩] := by simp [offerNode]

/-- The offers of some events made one after the other. -/
theorem foldl_offered (later : List ImageEvent) (q : List UrgentEntry) :
    later.foldl (fun q e => e.offered q) q =
      (later.flatMap ImageEvent.offers).foldl
        (fun q n => if ∃ e ∈ q, e.address = n then q else q ++ [⟨n, .value⟩]) q := by
  simp only [List.foldl_flatMap, ImageEvent.offered, offerNode_value]

@[simp] theorem requeued_length (later : List ImageEvent) : ∀ q, (requeued q later).length = later.length := by
  induction later with
  | nil => exact fun _ => rfl
  | cons e rest ih => exact fun q => congrArg (· + 1) (ih _)

/-- Each event taken behind a composition notes the queue that those before it leave. -/
theorem requeued_getElem? (later : List ImageEvent) : ∀ (q : List UrgentEntry) (i : Nat), (requeued q later)[i]? =
    later[i]?.map fun e => { e with queued := ((later.take i).foldl (fun q e => e.offered q) q).length } := by
  induction later with
  | nil => exact fun _ _ => rfl
  | cons e rest ih =>
    intro q i
    cases i with
    | zero => rfl
    | succ i => exact ih _ i

theorem State.endSlotAmid_drawn (h : ∃ e ∈ s.seg.log, e.link = .sameSeries) (receiving : Bool) :
    s.endSlotAmid receiving = s.countDraw.endSlotBefore receiving (Config.laterEvents s.seg.draws) := by
  unfold State.endSlotAmid
  rw [if_pos (by simpa using h)]

/-! ### The next slot -/

/-- Settles O24: the kinds of slot, the pairs, the start between two writes, and the moment drawn. -/
theorem nextSlotStarts : Obligations.NextSlotStarts := by
  refine ⟨fun s receiving => ⟨fun pos hpos => ?_, fun k pos hk hq hpos hfree => ?_⟩,
    fun s n => ⟨fun k v => State.mem_setPairs, State.setPairs_ascending n, State.setPairs_distinct⟩,
    fun s receiving older later hlog => ?_,
    fun s receiving => ⟨fun n hn => State.endSlotBefore_behind (mayFallBefore_beyond hn) receiving,
      fun h => State.endSlotAmid_settled h receiving, fun h => State.endSlotAmid_drawn h receiving⟩⟩
  · subst hpos
    refine ⟨fun h => ?_, fun h => ?_, fun e rest h hq => ?_⟩
    · refine (slotStart_poll (s := s.advanceSlot.settle) 128 (holdIf receiving) h).trans ?_
      cases receiving <;> rfl
    · refine (slotStart_set (s := s.advanceSlot.settle) 128 (holdIf receiving) h).trans ?_
      cases receiving <;> rfl
    · refine (slotStart_serves (s := s.advanceSlot.settle) 128 (holdIf receiving) h hq).trans ?_
      cases receiving <;> rfl
  · have passed : s.endSlot receiving = Machine.startSlot (128 - k + 1) (holdIf receiving) (s.settle.atSlot pos) := by
      have := slotStart_passesOn (128 - k + 1) (holdIf receiving) k s.advanceSlot.settle hq fun j hj => hfree j hj
      rw [show 128 - k + 1 + k = 129 by omega] at this
      rw [hpos]
      exact this
    have emptied (n : Nat) : removeNode s.seg.urgent n = [] := by rw [hq]; rfl
    refine ⟨fun h => ?_, fun h => ?_⟩
    · rw [passed, slotStart_poll (s := s.settle.atSlot pos) _ _ h, ← hq]
      cases receiving <;> rfl
    · rw [passed, slotStart_set (s := s.settle.atSlot pos) _ _ h,
        ← emptied (s.tables.slots.get pos).address]
      cases receiving <;> rfl
  · have hdrop : s.seg.log.drop (s.seg.log.length - later.length) = later := by simp [hlog]
    refine ⟨fun h => State.endSlotBefore_behind ?_ receiving, fun e rest h hcons => ?_⟩
    · rw [← Bool.not_eq_true, hlog, mayFallBefore_iff]
      exact h
    · have hfall : mayFallBefore later.length s.seg.log = true := by rw [hlog, mayFallBefore_iff]; exact h
      refine ⟨(s.backTo later).image, (s.backTo later).endSlot receiving,
        requeued ((s.backTo later).endSlot receiving).seg.urgent later, fun ch hch => ?_, ?_,
        ⟨requeued_length _ _, fun i => ?_⟩, ?_⟩
      · refine (foldr_set_get s.image hch _).trans ?_
        cases (later.flatMap ImageEvent.before).find? fun b => b.1 == ch <;> rfl
      · subst hcons
        rfl
      · rw [requeued_getElem?]
        simp only [foldl_offered]
      · rw [State.endSlotBefore_amid hfall, hdrop, State.takeLater, foldl_offered]

end Sys2Proof.Machine
end

section
/-! What is due by itself, as a list of which the first counts, and a millisecond (log 21). -/

namespace Sys2Proof

variable {α : Type} {n : Nat} [Inhabited α]

/-! ### A table walked from its first place on -/

/-- A table's list is what its places hold. -/
theorem Tab.list_eq_map (t : Tab α n) : t.list = (List.range n).map t.get := by
  refine List.ext_getElem (by simp [t.len]) fun i hi _ => ?_
  simp [Tab.get_eq t i hi]

theorem Tab.enum_eq_map (t : Tab α n) : t.enum = (List.range n).map fun i => (i, t.get i) := by
  have hl : t.enum.length = n := (length_mapFrom ..).trans t.len
  refine List.ext_getElem? fun i => ?_
  rw [Tab.enum, getElem?_mapFrom, Tab.list_eq_map]
  by_cases h : i < n <;> simp [h]

omit [Inhabited α] in
theorem firstFrom_eq_find? (p : Nat → α → Bool) (l : List α) : ∀ k,
    firstFrom p k l = ((mapFrom Prod.mk k l).find? fun e => p e.1 e.2).map Prod.fst := by
  induction l with
  | nil => exact fun _ => rfl
  | cons a l ih =>
    intro k
    rw [firstFrom, mapFrom, List.find?_cons, ih]
    cases p k a <;> rfl

/-- The first place of which `p` holds, as a search through the numbers of the places. -/
theorem Tab.first_eq_find? (t : Tab α n) (p : Nat → α → Bool) :
    t.first p = (List.range n).find? fun i => p i (t.get i) := by
  rw [Tab.first, firstFrom_eq_find?, ← Tab.enum, Tab.enum_eq_map, List.find?_map, Option.map_map]
  simp [Function.comp_def]

end Sys2Proof

namespace Sys2Proof.Machine

open Sys2Proof

/-! ### The first of a list of events -/

/-- The command of the first event of a list that is due. -/
def firstDue (events : List (Bool × Instr)) : Option Instr := (events.find? Prod.fst).map Prod.snd

/-- A command, where its event is due. -/
def dueIf (c : Bool) (i : Instr) : Option Instr := if c then some i else none

@[simp] theorem firstDue_nil : firstDue [] = none := rfl

theorem firstDue_append (l m : List (Bool × Instr)) : firstDue (l ++ m) = (firstDue l).or (firstDue m) := by
  simp [firstDue, List.find?_append, Option.map_or]

theorem firstDue_cons (c : Bool) (i : Instr) (l : List (Bool × Instr)) :
    firstDue ((c, i) :: l) = (dueIf c i).or (firstDue l) := by cases c <;> simp [firstDue, dueIf]

/-- One kind of event at each of some places: that of the first place where it is due. -/
theorem firstDue_map {α : Type} (l : List α) (c : α → Bool) (f : α → Instr) :
    firstDue (l.map fun a => (c a, f a)) = (l.find? c).map f := by
  rw [firstDue, List.find?_map, Option.map_map]
  rfl

/-- Nothing is due exactly where no event is. -/
theorem firstDue_eq_none {l : List (Bool × Instr)} : firstDue l = none ↔ ∀ e ∈ l, e.1 = false := by simp [firstDue]

theorem ite_dueIf (c : Bool) (i : Instr) (o : Option Instr) : (if c then some i else o) = (dueIf c i).or o := by
  cases c <;> rfl

variable (s : State)

/-! ### What is due, block by block -/

theorem pointDue_eq (m : PointRec) (r : PointRun) :
    pointDue m r = decide (r.quality ≠ .never ∧ r.quality ≠ .stale ∧ 1000 * m.maxAge ≤ r.ageMs) := by
  unfold pointDue
  cases r.quality <;> simp

theorem refreshDue_eq (m : NodeRec) (r : NodeRun) :
    refreshDue m r = decide (m.takesSet = true ∧ r.refreshed = false ∧ 1000 * m.refresh ≤ r.lastSetMs) := by
  unfold refreshDue NodeRec.refreshMs
  rw [Bool.eq_iff_iff]
  simp [and_assoc]

theorem lapseDue_eq (m : NodeRec) (r : NodeRun) : lapseDue m r =
    decide (m.takesSet = true ∧ r.lapse = false ∧ min 65535 (2000 * m.refresh + 1) ≤ r.lastSetMs) := by
  unfold lapseDue NodeRec.lapseMs
  rw [Bool.eq_iff_iff]
  simp [Config.top16, and_assoc]

theorem find?_congr_range {n : Nat} {p q : Nat → Bool} (h : ∀ i, i < n → p i = q i) :
    (List.range n).find? p = (List.range n).find? q :=
  List.find?_congr fun i hi => h i (List.mem_range.1 hi)

/-- A first node of which `p` holds, as a search through the places of NODES. -/
theorem State.firstNode_eq (p : NodeRec → NodeRun → Bool) : s.firstNode p =
    ((List.range 48).find? fun i => p (s.tables.nodes.get i) (s.seg.nodes.get i)).map
      fun i => BitVec.ofNat 8 (s.tables.nodes.get i).address := by
  have hz : ∀ i ∈ List.range 48, (s.tables.nodes.zip s.seg.nodes).get i = (s.tables.nodes.get i, s.seg.nodes.get i) :=
    fun i hi => Tab.get_zip _ _ _ (List.mem_range.1 hi)
  rw [State.firstNode, Tab.list_eq_map, List.map_congr_left hz, List.find?_map, Option.map_map]
  rfl

theorem State.dueField_eq : s.dueField = (dueIf (expired s.seg.replyTimer) (.replyTimeout false)).or
    ((((List.range 256).find? fun p => pointDue (s.tables.points.get p) (s.points.runs.get p)).map
        fun p => .pointStale (Fin.ofNat 256 p)).or
      ((((List.range 48).find? fun i => refreshDue (s.tables.nodes.get i) (s.seg.nodes.get i)).map
          fun i => .refreshExpiry (BitVec.ofNat 8 (s.tables.nodes.get i).address)).or
        (((List.range 48).find? fun i => lapseDue (s.tables.nodes.get i) (s.seg.nodes.get i)).map
          fun i => .refreshLapse (BitVec.ofNat 8 (s.tables.nodes.get i).address)))) := by
  have hp : ((s.tables.points.zip s.points.runs).first fun _ x => pointDue x.1 x.2) =
      (List.range 256).find? fun p => pointDue (s.tables.points.get p) (s.points.runs.get p) := by
    rw [Tab.first_eq_find?]
    exact find?_congr_range fun i hi => by rw [Tab.get_zip _ _ _ hi]
  rw [State.dueField, ite_dueIf, hp, State.firstNode_eq, State.firstNode_eq]
  cases (List.range 256).find? fun p => pointDue (s.tables.points.get p) (s.points.runs.get p) with
  | some p => rfl
  | none =>
    cases (List.range 48).find? fun i => refreshDue (s.tables.nodes.get i) (s.seg.nodes.get i) with
    | some i => rfl
    | none => simp [Function.comp_def]

theorem State.dueWatch_eq : s.dueWatch = ((List.range 32).find? fun k => expired (s.watch.runs.get k).timer).map
    fun k => watchExpiry (s.tables.watch.get k) (s.watch.runs.get k) k := by
  have hz : ∀ k ∈ List.range 32, (k, (s.tables.watch.zip s.watch.runs).get k) =
      (k, s.tables.watch.get k, s.watch.runs.get k) :=
    fun k hk => by rw [Tab.get_zip _ _ _ (List.mem_range.1 hk)]
  rw [State.dueWatch, Tab.enum_eq_map, List.map_congr_left hz, List.find?_map, Option.map_map]
  rfl

theorem State.dueFog_eq : s.dueFog =
    (((List.range 8).find? fun i => expired (s.fog.stations.get i).timer).map
        fun i => .patternStepExpiry (Fin.ofNat 8 i)).or
      ((dueIf (expired s.fog.runTimer) .dehumidRunExpiry).or (dueIf (expired s.fog.restTimer) .dehumidRestExpiry)) := by
  rw [State.dueFog, Tab.first_eq_find?, ite_dueIf, ← dueIf]
  cases (List.range 8).find? fun i => expired (s.fog.stations.get i).timer <;> rfl

theorem State.dueHeat_eq : s.dueHeat =
    (dueIf (decide (s.zones.deliveries ≠ [])) .dispatchResultDelivery).or
      (dueIf (expired s.heat.timer) .dispatchTimerExpiry) := by
  unfold State.dueHeat
  cases s.zones.deliveries <;> rfl

theorem State.dueLighting_eq : s.dueLighting =
    (firstDue (s.store.completions.map fun b => (true, .activationDelivery (Fin.ofNat 4 b)))).or
      ((((List.range 4).find? fun b => expired (s.bank b).settle).map fun b => .settleExpiry (Fin.ofNat 4 b)).or
        (((List.range 4).find? fun b => expired (s.engine b).timer).map fun b => .fadeStepExpiry (Fin.ofNat 4 b))) := by
  rw [State.dueLighting, Tab.first_eq_find?, Tab.first_eq_find?]
  cases s.store.completions with
  | cons b rest => rfl
  | nil =>
    show _ = (Option.map _ ((List.range 4).find? fun b => expired (s.store.banks.get b).settle)).or _
    cases (List.range 4).find? fun b => expired (s.store.banks.get b).settle <;> rfl

/-! ### The events of a live part in their order -/

/-- R5, R18, R34, R35: the events of the segment master, the point table and the channel image. -/
def State.fieldEvents : List (Bool × Instr) :=
  (expired s.seg.replyTimer, .replyTimeout false) ::
    ((List.range 256).map fun p =>
      (pointDue (s.tables.points.get p) (s.points.runs.get p), .pointStale (Fin.ofNat 256 p))) ++
    ((List.range 48).map fun i => (refreshDue (s.tables.nodes.get i) (s.seg.nodes.get i),
      .refreshExpiry (BitVec.ofNat 8 (s.tables.nodes.get i).address))) ++
    ((List.range 48).map fun i => (lapseDue (s.tables.nodes.get i) (s.seg.nodes.get i),
      .refreshLapse (BitVec.ofNat 8 (s.tables.nodes.get i).address)))

/-- R46, R48, R50, R73, R76, R86, R105: the events of the surface watch, the fog monitor, the zones and the heat
dispatcher. -/
def State.controlEvents : List (Bool × Instr) :=
  ((List.range 32).map fun k => (expired (s.watch.runs.get k).timer,
    watchExpiry (s.tables.watch.get k) (s.watch.runs.get k) k)) ++
  ((List.range 8).map fun i => (expired (s.fog.stations.get i).timer, .patternStepExpiry (Fin.ofNat 8 i))) ++
  [(expired s.fog.runTimer, .dehumidRunExpiry), (expired s.fog.restTimer, .dehumidRestExpiry),
    (decide (s.zones.deliveries ≠ []), .dispatchResultDelivery), (expired s.heat.timer, .dispatchTimerExpiry)]

/-- R121, R123, R135, R154: the events of the scene store, the cue engine and the bracket unit. -/
def State.lightingEvents : List (Bool × Instr) :=
  (s.store.completions.map fun b => (true, .activationDelivery (Fin.ofNat 4 b))) ++
  ((List.range 4).map fun b => (expired (s.bank b).settle, .settleExpiry (Fin.ofNat 4 b))) ++
  ((List.range 4).map fun b => (expired (s.engine b).timer, .fadeStepExpiry (Fin.ofNat 4 b))) ++
  [(expired s.bracket.timer, .bracketTimerExpiry)]

/-- All that can be due of the part as it stands. -/
def State.events : List (Bool × Instr) :=
  if s.live then
    (expired s.trunk.silence, .trunkSilenceExpiry) ::
      if s.inRun then s.fieldEvents ++ s.controlEvents ++ s.lightingEvents else []
  else []

theorem State.due_eq_firstDue : s.due = firstDue s.events := by
  have blocks : ((((s.dueField.or s.dueWatch).or s.dueFog).or s.dueHeat).or s.dueLighting).or s.dueBracket =
      firstDue (s.fieldEvents ++ s.controlEvents ++ s.lightingEvents) := by
    simp only [State.fieldEvents, State.controlEvents, State.lightingEvents, List.cons_append, firstDue_append,
      firstDue_cons, firstDue_map _ (fun p => pointDue _ _), firstDue_map _ (fun i => refreshDue _ _),
      firstDue_map _ (fun i => lapseDue _ _), firstDue_map _ (fun i => expired _),
      s.dueField_eq, s.dueWatch_eq, s.dueFog_eq, s.dueHeat_eq, s.dueLighting_eq, State.dueBracket, ite_dueIf,
      firstDue_nil, Option.or_none, Option.or_assoc]
  rw [State.due, blocks, ite_dueIf, State.events]
  cases s.live
  · rfl
  · rw [if_pos rfl, firstDue_cons]
    cases s.inRun <;> rfl

/-! ### A millisecond -/

/-- A millisecond of a live part that is in RUN. -/
theorem State.tick_running {s : State} (hl : s.live = true) (hr : s.inRun = true) :
    s.tick = { s.passRun with trunk := { s.trunk with silence := runDown s.trunk.silence } } := by
  rw [State.tick, if_pos hl, if_pos hr]
  rfl

/-- Outside RUN a millisecond reaches the trunk interface alone. -/
theorem State.tick_idle {s : State} (hl : s.live = true) (hr : s.inRun = false) :
    s.tick = { s with trunk := { s.trunk with silence := runDown s.trunk.silence } } := by
  rw [State.tick, if_pos hl, hr]
  rfl

section idle
variable {s : State} (h : s.pending = [])
include h

theorem step_due {c : Instr} (hd : s.due = some c) : step s = exec c s := by simp [step, h, State.idle, hd]

theorem step_tick (hd : s.due = none) : step s = .next s.tick := by simp [step, h, State.idle, hd]

end idle

/-- Settles O3: what is due is the first of the events, and a millisecond moves each block on. -/
theorem idleStep : Obligations.IdleStep := by
  refine ⟨fun s => ?_, fun s hp => ⟨fun c hd => step_due hp hd, fun hd hl => ⟨s.tick, step_tick hp hd, ?_⟩⟩⟩
  · have listed : s.events = if s.live = true then
        (expired s.trunk.silence, Instr.trunkSilenceExpiry) ::
          if s.inRun = true then s.fieldEvents ++ s.controlEvents ++ s.lightingEvents else []
      else [] := rfl
    simp only [State.fieldEvents, pointDue_eq, refreshDue_eq, lapseDue_eq] at listed
    intro out address timed events
    have same : events = s.events := by
      rw [listed]
      simp only [events, timed, State.controlEvents, State.lightingEvents, List.append_assoc, List.cons_append,
        List.nil_append]
      rfl
    rw [same, s.due_eq_firstDue]
    exact ⟨rfl, firstDue_eq_none⟩
  · cases hr : s.inRun
    · rw [State.tick_idle hl hr]
      exact ⟨rfl, nofun, fun _ => rfl, rfl, rfl, rfl, rfl, rfl, rfl, rfl, rfl, nofun⟩
    · rw [State.tick_running hl hr]
      refine ⟨rfl, fun _ => ⟨rfl, rfl, rfl, rfl, rfl, rfl⟩, nofun, rfl, rfl, rfl, rfl, rfl, rfl, rfl, rfl, fun _ =>
        ⟨fun p hp => ?_, rfl, fun i hi => ?_, fun k hk => ?_, fun i hi => ?_, fun b hb => ⟨?_, ?_⟩, rfl, rfl⟩⟩
      · exact Tab.get_map _ _ _ hp
      · refine (Tab.get_map _ _ _ hi).trans ?_
        rw [Tab.get_zip _ _ _ hi]
        rfl
      · exact Tab.get_map _ _ _ hk
      · exact Tab.get_map _ _ _ hi
      · exact Tab.get_map _ _ _ hb
      · exact Tab.get_map _ _ _ hb

end Sys2Proof.Machine
end

section
/-! The point table (R15 to R21): items, loss of use, staleness and UPLINKs. -/

namespace Sys2Proof.Machine

open Sys2Proof

variable {s : State}

/-! ### An event at the surface watch and the lost marks (R54) -/

@[simp] theorem WatchRec.countEdge_lost (r : WatchRec) (w : WatchRun) : (r.countEdge w).run.lost = w.lost := by
  unfold WatchRec.countEdge
  dsimp only
  split <;> rfl

/-- R54: a loss of use sets the lost mark, whatever the policy. -/
theorem WatchRec.lossOfUse_lost (r : WatchRec) (w : WatchRun) : (r.lossOfUse w).run.lost = true := by
  unfold WatchRec.lossOfUse
  dsimp only
  (repeat' split) <;> rfl

/-- R45, R51: a count that an entry's chain brings leaves the lost mark that the event itself gives. -/
theorem chainFrom_lost (act : Nat → WatchRec → WatchRun → EntryOutcome) (l : List (WatchRec × WatchRun)) :
    ∀ (k : Nat) (count : Bool) (i : Nat), (chainFrom act k count l)[i]?.map (fun o => o.run.lost) =
      l[i]?.map fun p => (act (k + i) p.1 p.2).run.lost := by
  induction l with
  | nil => exact fun _ _ _ => rfl
  | cons p l ih =>
    obtain ⟨r, w⟩ := p
    intro k count i
    cases i with
    | zero => cases count <;> simp [chainFrom]
    | succ i =>
      rw [chainFrom, List.getElem?_cons_succ, List.getElem?_cons_succ, ih, Nat.add_right_comm, Nat.add_assoc]

theorem State.watchEvent_lost (act : Nat → WatchRec → WatchRun → EntryOutcome) {k : Nat} (hk : k < 32) :
    ((s.watchEvent act).watch.runs.get k).lost =
      (act k (s.tables.watch.get k) (s.watch.runs.get k)).run.lost := by
  have hz : (s.tables.watch.zip s.watch.runs).list[k]? = some (s.tables.watch.get k, s.watch.runs.get k) := by
    rw [Tab.list_eq_map, List.getElem?_map, List.getElem?_range hk]
    exact congrArg some (Tab.get_zip _ _ _ hk)
  have hc := chainFrom_lost act (s.tables.watch.zip s.watch.runs).list 0 false k
  rw [hz, Nat.zero_add] at hc
  obtain ⟨o, ho, hol⟩ := Option.map_eq_some_iff.1 hc
  rw [State.watchEvent_watch]
  refine Eq.trans ?_ hol
  simp [Tab.get, Tab.map, watchOutcomes, ho]

/-- R54: the unchained entries of a point that becomes unusable lose it. -/
theorem State.watchLoss_lost {k p : Nat} (hk : k < 32) (hc : s.tables.chained k = false)
    (hp : (s.tables.watch.get k).point.get = some p) : ((s.watchLoss p).watch.runs.get k).lost = true := by
  rw [State.watchLoss, State.watchEvent_lost _ hk, onPoint, if_pos (by simp [hc, hp])]
  exact WatchRec.lossOfUse_lost ..

@[simp] theorem State.lossOfUse_watch (p : Nat) : (s.lossOfUse p).watch = (s.watchLoss p).watch := by
  simp [State.lossOfUse]

/-- The surface watch reads of the part its own run fields and the tables alone. -/
theorem State.watchLoss_congr {t : State} (ht : t.tables = s.tables) (hw : t.watch = s.watch) (p : Nat) :
    (t.watchLoss p).watch = (s.watchLoss p).watch := by
  simp only [State.watchLoss, State.watchEvent_watch, ht, hw]

/-! ### Items (R15 to R17) -/

theorem PointRec.take_good {m : PointRec} {v : Int} (h1 : m.low ≤ v) (h2 : v ≤ m.high) : m.take v = (v, .good) := by
  rw [PointRec.take, if_neg (by omega), if_neg (by omega)]

theorem PointRec.take_low {m : PointRec} {v : Int} (h : v < m.low) : m.take v = (m.low, .suspect) := if_pos h

theorem PointRec.take_high {m : PointRec} {v : Int} (h1 : m.low ≤ v) (h2 : m.high < v) :
    m.take v = (m.high, .suspect) := by
  rw [PointRec.take, if_neg (by omega), if_pos h2]

/-- R16: an OK item changes its own point alone. -/
theorem State.okItem_points (p : Nat) (v : Int) : (s.okItem p v).points = { s.points with
    runs := s.points.runs.set p { s.points.runs.get p with
      value := some ((s.tables.points.get p).take v).1
      quality := ((s.tables.points.get p).take v).2
      ageMs := 0 } } := by simp [State.okItem]

theorem State.faultItem_idle {p : Nat} (h : (s.points.runs.get p).quality = .fault ∨
    (s.points.runs.get p).quality = .stale) : s.faultItem p = s := by
  obtain h | h := h <;> simp [State.faultItem, PointRec.faulted, h, Quality.usable, State.setPoint]

theorem State.faultItem_never {p : Nat} (h : (s.points.runs.get p).quality = .never) :
    s.faultItem p = s.setPoint p { s.points.runs.get p with
      ageMs := min ageTop s.points.runMs
      quality := if 1000 * (s.tables.points.get p).maxAge ≤ min ageTop s.points.runMs then .stale else .fault } := by
  simp [State.faultItem, PointRec.faulted, h, Quality.usable]

theorem State.faultItem_usable {p : Nat} (h : (s.points.runs.get p).quality = .good ∨
    (s.points.runs.get p).quality = .suspect) :
    s.faultItem p = (s.setPoint p { s.points.runs.get p with
      quality := if 1000 * (s.tables.points.get p).maxAge ≤ (s.points.runs.get p).ageMs then .stale
        else .fault }).lossOfUse p := by
  obtain h | h := h <;> simp [State.faultItem, PointRec.faulted, h, Quality.usable]

/-- R15: the lowest point with the node and the index. -/
theorem Tables.pointOf_eq (t : Tables) (n i : Nat) : t.pointOf n i = (List.range 256).find? fun p =>
    (t.points.get p).mapped && (t.points.get p).node == n && (t.points.get p).index == i :=
  Tab.first_eq_find? ..

theorem State.applyItem_ok {n p : Nat} {item : Item} (h : s.tables.pointOf n item.index.toNat = some p)
    (hq : item.quality = .ok) : s.applyItem n item = s.okItem p item.value.toInt := by
  simp [State.applyItem, h, hq]

theorem State.applyItem_fault {n p : Nat} {item : Item} (h : s.tables.pointOf n item.index.toNat = some p)
    (hq : item.quality = .fault) : s.applyItem n item = s.faultItem p := by
  simp [State.applyItem, h, hq]

theorem State.applyItem_none {n : Nat} {item : Item} (h : s.tables.pointOf n item.index.toNat = none) :
    s.applyItem n item = s := by simp [State.applyItem, h]

/-! ### UPLINKs (R20, R21) -/

/-- R20: a point that has just been sent. -/
def PointRun.sent (r : PointRun) : PointRun := { r with sentValue := r.value, sentQuality := some r.quality }

@[simp] theorem PointRun.sent_sent (r : PointRun) : r.sent.sent = r.sent := rfl

theorem State.markSent_eq (s : State) (p : Nat) : s.markSent p = s.setPoint p (s.points.runs.get p).sent := rfl

/-- Points marked as sent, one after the other. -/
def sentRuns (runs : Tab PointRun 256) (points : List Nat) : Tab PointRun 256 :=
  points.foldl (fun runs p => runs.set p (runs.get p).sent) runs

theorem State.markSents_eq (points : List Nat) : ∀ s : State, points.foldl State.markSent s =
    { s with points := { s.points with runs := sentRuns s.points.runs points } } := by
  induction points with
  | nil => exact fun _ => rfl
  | cons p points ih => exact fun s => ih (s.markSent p)

theorem sentRuns_get (points : List Nat) {q : Nat} (hq : q < 256) : ∀ runs : Tab PointRun 256,
    (sentRuns runs points).get q = if q ∈ points then (runs.get q).sent else runs.get q := by
  induction points with
  | nil => exact fun _ => rfl
  | cons p points ih =>
    intro runs
    rw [sentRuns, List.foldl_cons, ← sentRuns, ih, Tab.get_set]
    by_cases hp : p = q
    · subst hp; simp [hq]
    · simp [hp, Ne.symm hp]

theorem sentRuns_single_ne {p q : Nat} (h : q ≠ p) (runs : Tab PointRun 256) :
    (sentRuns runs [p]).get q = runs.get q := Tab.get_set_ne _ _ _ _ h.symm

/-- R20: an UPLINK that finds room. -/
theorem State.sendUplink_accepted {points : List Nat} (hp : points ≠ []) (hr : s.trunk.reports.length < 16) :
    s.sendUplink points = { s with
      trunk := s.trunk.queueReport (.uplink (points.map s.uplinkEntry))
      points := { s.points with runs := sentRuns s.points.runs points } } := by
  have room : s.trunk.reportsFull = false := decide_eq_false (Nat.not_le.2 hr)
  have accepted : s.offerUplink (points.map s.uplinkEntry) =
      ({ s with trunk := s.trunk.queueReport (.uplink (points.map s.uplinkEntry)) }, true) := by
    simp [State.offerUplink, TrunkUnit.offerUplink, room]
  rw [State.sendUplink, if_neg (by simpa using hp), accepted]
  exact State.markSents_eq points _

/-- R167, R169: an UPLINK dropped: counted, and UPLINK_DROPPED raised. -/
def TrunkUnit.dropUplink (t : TrunkUnit) (enables : Word16) : TrunkUnit :=
  TrunkUnit.raiseDropped { t with counters := { t.counters with uplinksDropped := satSucc t.counters.uplinksDropped } }
    enables

/-- R167: an UPLINK that finds the queue full. -/
theorem State.sendUplink_dropped {points : List Nat} (hp : points ≠ []) (hr : 16 ≤ s.trunk.reports.length) :
    s.sendUplink points = { s with trunk := s.trunk.dropUplink s.tables.enables } := by
  have full : s.trunk.reportsFull = true := decide_eq_true hr
  simp [State.sendUplink, hp, State.offerUplink, TrunkUnit.offerUplink, full, TrunkUnit.dropUplink]

theorem TrunkUnit.dropUplink_frame (t : TrunkUnit) (e : Word16) : (t.dropUplink e).reports = t.reports ∧
    (t.dropUplink e).counters.uplinksDropped = satSucc t.counters.uplinksDropped ∧
    EventFlag.uplinkDropped.of (t.dropUplink e).flags = true := by
  unfold TrunkUnit.dropUplink TrunkUnit.raiseDropped
  split
  · exact ⟨rfl, rfl, ‹_›⟩
  · split <;> simp [EventFlag.of_or]

/-- All that sending does to the points: nothing, or the points sent are marked. -/
theorem State.sendUplink_points (points : List Nat) : (s.sendUplink points).points = s.points ∨
    (s.sendUplink points).points = { s.points with runs := sentRuns s.points.runs points } := by
  by_cases hp : points = []
  · subst hp; exact .inl rfl
  · by_cases hr : s.trunk.reports.length < 16
    · rw [State.sendUplink_accepted hp hr]; exact .inr rfl
    · rw [State.sendUplink_dropped hp (by omega)]; exact .inl rfl

/-- R20: a point differs from what it last sent. -/
theorem PointRec.selected_iff (m : PointRec) (r : PointRun) : m.selected r = true ↔
    r.sentQuality ≠ some r.quality ∨
      (∃ v w, r.value = some v ∧ r.sentValue = some w ∧ (m.deadband : Int) < |v - w|) ∨
      r.value.isSome ≠ r.sentValue.isSome := by
  have never : r.sentQuality = none → r.sentQuality ≠ some r.quality := by simp +contextual
  unfold PointRec.selected
  cases r.value <;> cases r.sentValue <;> simp <;> tauto

theorem State.uplinkPoints_eq (n : Nat) (items : List Item) : s.uplinkPoints n items =
    (List.range 256).filter fun p => (s.tables.points.get p).mapped && isSet (s.tables.points.get p).forward &&
      (s.tables.points.get p).node == n &&
      (items.any fun i => i.index.toNat == (s.tables.points.get p).index) &&
      (s.tables.points.get p).selected (s.points.runs.get p) := by
  have hz : ∀ p ∈ List.range 256, (p, (s.tables.points.zip s.points.runs).get p) =
      (p, s.tables.points.get p, s.points.runs.get p) :=
    fun p hp => by rw [Tab.get_zip _ _ _ (List.mem_range.1 hp)]
  rw [State.uplinkPoints, Tab.enum_eq_map, List.map_congr_left hz, List.filter_map, List.map_map]
  exact List.map_id' ..

/-! ### A point whose age reaches its max age (R18, R21) -/

/-- R18: the run fields of a point that has become STALE. -/
def PointRec.staled (m : PointRec) (r : PointRun) : PointRun :=
  { r with quality := .stale, ageMs := max r.ageMs (1000 * m.maxAge) }

section stale
variable {p : Nat} (h1 : (s.points.runs.get p).quality ≠ .never) (h2 : (s.points.runs.get p).quality ≠ .stale)
include h1 h2

theorem State.goStale_eq : s.goStale p =
    (let u := s.setPoint p ((s.tables.points.get p).staled (s.points.runs.get p))
     let v := if (s.points.runs.get p).quality.usable then u.lossOfUse p else u
     if isSet (s.tables.points.get p).forward then v.sendUplink [p] else v) := by
  have hq : (s.points.runs.get p).quality = .good ∨ (s.points.runs.get p).quality = .suspect ∨
      (s.points.runs.get p).quality = .fault := by
    revert h1 h2
    cases (s.points.runs.get p).quality <;> simp
  rw [State.goStale, if_pos hq]
  rfl

/-- The points behind a staleness: the point STALE, and sent if an UPLINK took it. -/
theorem State.goStale_points :
    let runs := s.points.runs.set p ((s.tables.points.get p).staled (s.points.runs.get p))
    (s.goStale p).points = { s.points with runs := runs } ∨
      isSet (s.tables.points.get p).forward = true ∧
        (s.goStale p).points = { s.points with runs := sentRuns runs [p] } := by
  intro runs
  rw [State.goStale_eq h1 h2]
  dsimp only
  generalize hv : (if (s.points.runs.get p).quality.usable then _ else _ : State) = v
  have hvp : v.points = { s.points with runs := runs } := by
    rw [← hv]
    split
    · simp [runs]
    · rfl
  split
  · rw [← hvp]
    obtain h | h := v.sendUplink_points [p]
    · exact .inl h
    · exact .inr ⟨‹_›, h.trans (by rw [hvp])⟩
  · exact .inl hvp

/-- R54: the unchained watch entries of a point that was usable lose it. -/
theorem State.goStale_lost (hu : (s.points.runs.get p).quality.usable = true) {k : Nat} (hk : k < 32)
    (hc : s.tables.chained k = false) (hp : (s.tables.watch.get k).point.get = some p) :
    ((s.goStale p).watch.runs.get k).lost = true := by
  have lost := State.watchLoss_lost (s := s.setPoint p ((s.tables.points.get p).staled (s.points.runs.get p))) hk hc hp
  rw [State.goStale_eq h1 h2]
  dsimp only
  rw [if_pos hu]
  split <;> simpa using lost

end stale

/-! ### All of it -/

/-- Settles O28, clause by clause. -/
theorem pointsChange : Obligations.PointsChange := by
  refine ⟨fun s p v hp => ?ok, fun p s h h1 h2 => ?stale, fun s p hp => ?fault, fun s n items => ?report,
    fun s points hpts => ?send, fun p s h hf h1 h2 => ?forwarded, fun s n item => ?item, fun s p v => ⟨rfl, rfl⟩⟩
  case ok =>
    intro m r
    simp only [State.okItem_points, Tab.get_set_self _ _ _ hp]
    refine ⟨fun hl hh => ?_, fun hl => ?_, fun hl hh => ?_, fun q hq => Tab.get_set_ne _ _ _ _ (Ne.symm hq)⟩
    · rw [PointRec.take_good hl hh]
    · rw [PointRec.take_low hl]
    · rw [PointRec.take_high hl hh]
  case stale =>
    have hlt := p.isLt
    have hx : exec (.pointStale p) s = .next (s.asStep (s.goStale p)) := congrArg _ (if_pos h)
    refine ⟨_, hx, ?_⟩
    have points := State.goStale_points h1 h2
    refine ⟨?_, ?_, fun q hq => ?_, fun hf => ?_, fun hu k hk hc hp => State.goStale_lost h1 h2 hu hk hc hp,
      by simp, by simp, by simp, by simp, by simp, fun hq hf => ?_⟩
    · obtain hp | ⟨-, hp⟩ := points <;> simp [hp, sentRuns, hlt, PointRec.staled, PointRun.sent]
    · obtain hp | ⟨-, hp⟩ := points <;> simp [hp, sentRuns, hlt, PointRec.staled, PointRun.sent]
    · obtain hp | ⟨-, hp⟩ := points <;> simp [hp, sentRuns_single_ne hq, Ne.symm hq]
    · obtain hp | ⟨hf', -⟩ := points
      · simp [hp, hlt, PointRec.staled]
      · simp [hf] at hf'
    · have quiet : s.goStale p = s.setPoint p ((s.tables.points.get p).staled (s.points.runs.get p)) := by
        rw [State.goStale_eq h1 h2, hq, hf]
        rfl
      have unnoted : s.asStep (s.goStale p) = s.goStale p :=
        State.relinked_same (congrArg (fun u : State => u.seg.log) quiet) _
      rw [unnoted, quiet]
      rfl
  case fault =>
    intro m r t late
    refine ⟨fun hq => State.faultItem_idle hq, fun hq => ⟨_, rfl, State.faultItem_never hq⟩, fun hq => ?_⟩
    have ht : t = _ := State.faultItem_usable hq
    refine ⟨ht, ?_, ?_⟩
    · rw [ht, (State.lossOfUse_frame _ p).2.2.2.2.2.1]
      rfl
    · rw [ht, State.lossOfUse_watch]
      exact State.watchLoss_congr (s := s) (t := s.setPoint p _) rfl rfl p
  case report =>
    refine ⟨rfl, ?_, fun p => ?_⟩
    · rw [State.uplinkPoints_eq]
      exact List.pairwise_lt_range.filter _
    · simp [State.uplinkPoints_eq, PointRec.selected_iff, and_assoc]
  case send =>
    intro t
    refine ⟨fun hp => by rw [show t = s.sendUplink points from rfl, hp]; rfl, fun hp hr => ?_, fun hp hr => ?_⟩
    · have ht : t = _ := State.sendUplink_accepted hp hr
      rw [ht]
      refine ⟨rfl, ?_, ?_, fun q hq => sentRuns_get points hq _⟩
      · simp [TrunkUnit.queueReport]
      · simp [TrunkUnit.queueReport, State.uplinkEntry]
    · have ht : t = _ := State.sendUplink_dropped hp hr
      rw [ht]
      exact ⟨rfl, TrunkUnit.dropUplink_frame s.trunk s.tables.enables⟩
  case forwarded =>
    intro r u
    have hx : exec (.pointStale p) s = .next (s.asStep (s.goStale p)) := congrArg _ (if_pos h)
    rw [hx, State.goStale_eq h1 h2, hf]
    rfl
  case item =>
    intro names
    have named (p : Nat) (hp : p < 256) : names p ↔ ((s.tables.points.get p).mapped &&
        (s.tables.points.get p).node == n && (s.tables.points.get p).index == item.index.toNat) = true := by
      simp [names, hp, and_assoc]
    refine ⟨fun hnone => State.applyItem_none ?_, fun p hp hfirst => ?_⟩
    · rw [Tables.pointOf_eq, List.find?_eq_none]
      intro p hp
      rw [← named p (List.mem_range.1 hp)]
      exact hnone p
    · have found : s.tables.pointOf n item.index.toNat = some p := by
        rw [Tables.pointOf_eq, List.find?_range_eq_some]
        refine ⟨(named p hp.1).1 hp, List.mem_range.2 hp.1, fun q hq => ?_⟩
        rw [Bool.not_eq_true', ← Bool.not_eq_true, ← named q (hq.trans hp.1)]
        exact hfirst q hq
      exact ⟨State.applyItem_ok found, State.applyItem_fault found⟩

end Sys2Proof.Machine
end

section
/-! The ages of the points (R18): what each command leaves of the point table, and the law that every step keeps. -/

namespace Sys2Proof.Machine

open Sys2Proof

variable {s : State}

/-! ### A property that requests keep (R158 to R160) -/

section requests
variable {P : State → Prop} {serve : State → State × Option Answer}

theorem State.answer_keeps (trunk : ∀ s t, P s → P { s with trunk := t }) (h : P s) (tag code : Byte)
    (a : Option Answer) : P (s.answer tag code a) := by
  cases a
  · exact h
  · exact trunk s _ h

/-- What neither the trunk interface nor the request's own rule touches is kept by the request. -/
theorem State.passRequest_keeps (trunk : ∀ s t, P s → P { s with trunk := t }) (hs : ∀ s, P s → P (serve s).1)
    (h : P s) (tag code : Byte) : P (s.passRequest tag code serve) := by
  unfold State.passRequest
  dsimp only
  split
  · split
    · exact trunk s _ h
    · exact State.answer_keeps trunk (hs _ (trunk s _ h)) ..
  · exact h

theorem unlessLoading_keeps (hs : ∀ s, P s → P (serve s).1) (s : State) (h : P s) : P (unlessLoading serve s).1 := by
  unfold unlessLoading
  split
  · exact h
  · exact hs s h

theorem State.request_keeps (trunk : ∀ s t, P s → P { s with trunk := t }) (hs : ∀ s, P s → P (serve s).1)
    (h : P s) (tag code : Byte) : P (s.request tag code serve) :=
  State.passRequest_keeps trunk (unlessLoading_keeps hs) h tag code

theorem restricted_keeps (abort : ∀ (s : State) c o r, P s → P (s.countOrdinal.abortBracket c o r))
    (hs : ∀ s, P s → P (serve s).1) (s : State) (h : P s) : P (restricted serve s).1 := by
  unfold restricted
  split
  · exact abort s _ _ _ h
  · exact hs s h

end requests

/-! ### What the law of ages reads of the part -/

/-- The operating state, the records of POINTS and their run fields. -/
def State.pointView (s : State) : OpState × Tab PointRec 256 × PointUnit := (s.loader.op, s.tables.points, s.points)

theorem State.ageLaw_of_view {t : State} (h : s.ageLaw) (hv : t.pointView = s.pointView) : t.ageLaw := by
  simp only [State.pointView, Prod.mk.injEq] at hv
  obtain ⟨hop, hrec, hpts⟩ := hv
  simpa only [State.ageLaw, State.inRun, hop, hrec, hpts] using h

theorem State.ageLaw_outside {t : State} (h : t.inRun = false) : t.ageLaw := fun hr => absurd (h.symm.trans hr) nofun

theorem State.ageLaw_trunk (s : State) (t : TrunkUnit) (h : s.ageLaw) : State.ageLaw { s with trunk := t } := h

section views
variable (s)

@[simp] theorem foldl_pointView {β : Type} {f : State → β → State} (h : ∀ a b, (f a b).pointView = a.pointView)
    (l : List β) (a : State) : (l.foldl f a).pointView = a.pointView := foldl_keep State.pointView h l a

/-! ### The tables (R162) -/

theorem Tables.store_points {t : Tables} {id : TableId} (h : id ≠ .points) (i : Nat) (bs : List Byte) :
    (t.store id i bs).points = t.points := by
  cases id
  case points => exact absurd rfl h
  case fogMap | schedule | fogTune => simp only [Tables.store]; split <;> rfl
  all_goals rfl

/-- A write of another table leaves the records of POINTS. -/
@[simp] theorem State.storeRun_pointView {id : TableId} (h : id ≠ .points) (first n : Nat) (content : List Byte) :
    (s.storeRun id first n content).pointView = s.pointView := by
  have hp : (s.tables.storeRun id first n content).points = s.tables.points :=
    foldl_keep Tables.points (fun _ _ => Tables.store_points h _ _) _ _
  simp [State.pointView, State.storeRun, hp]

@[simp] theorem State.watchThresholds_pointView (before : Tab Int 32) :
    (s.watchThresholds before).pointView = s.pointView := by simp [State.pointView]

@[simp] theorem State.fogRetune_pointView (before : Tab FogTuneRec 8) (first n : Nat) :
    (s.fogRetune before first n).pointView = s.pointView := by simp [State.pointView]

@[simp] theorem State.zoneReset_pointView (first n : Nat) : (s.zoneReset first n).pointView = s.pointView := by
  simp [State.pointView]

@[simp] theorem State.restartDispatch_pointView (before : DispatchRec) :
    (s.restartDispatch before).pointView = s.pointView := by
  unfold State.restartDispatch
  split <;> rfl

@[simp] theorem State.applyZone_pointView (z : Nat) (o : Option Bool) (a b : Option Int) :
    (s.applyZone z o a b).pointView = s.pointView := by
  unfold State.applyZone State.pointView
  dsimp only
  split <;> simp [State.storeZone]

/-- R162 steps 5 and 7: in RUN a structural table is refused, and no tunable one is POINTS. -/
theorem State.writeRunning_pointView (id : TableId) (first n : Nat) (content : List Byte) :
    (s.writeRunning id first n content).1.pointView = s.pointView := by
  cases id
  case thresholds | fogTune | sinkTune | dispatch | zoneSet | timers | flagEnables | lightProfile =>
    simp only [State.writeRunning, State.writeThresholds, State.writeFogTune, State.writeSinkTune, State.writeDispatch,
      State.writeZoneSet, State.writeTimers, State.writeProfile]
    (repeat' split) <;> simp
  all_goals rfl

/-! ### Stageable requests and the bracket (R144 to R152) -/

@[simp] theorem State.abortBracket_pointView (c : AbortCode) (o : Option Nat) (r : Option ResultCode) :
    (s.abortBracket c o r).pointView = s.pointView := by simp [State.pointView]

@[simp] theorem State.takeItem_pointView (r : StagedReq) : (s.takeItem r).1.pointView = s.pointView := by
  cases r
  case setChannel => simp [State.takeItem, State.pointView]
  case setZone => simp [State.takeItem]
  case cue b r fade rel =>
    unfold State.takeItem State.takeCue State.pointView
    dsimp only
    split <;> (repeat' split) <;> simp
  case releaseBank b =>
    unfold State.takeItem State.takeRelease State.pointView
    dsimp only
    split <;> simp

@[simp] theorem State.commit_pointView (ordinal : Nat) : (s.commit ordinal).1.pointView = s.pointView := by
  unfold State.commit
  split
  · exact foldl_pointView (fun _ _ => State.takeItem_pointView _ _) _ s
  · exact s.abortBracket_pointView ..

@[simp] theorem State.stageItem_pointView (o : Nat) (r : StagedReq) (clamped : Bool) :
    (s.stageItem o r clamped).1.pointView = s.pointView := by
  unfold State.stageItem
  dsimp only
  split
  · exact s.abortBracket_pointView ..
  · split
    · split
      · exact State.commit_pointView _ o
      · rfl
    all_goals rfl

theorem State.takeStageable_pointView (c : Checked) : (s.takeStageable c).1.pointView = s.pointView := by
  unfold State.takeStageable
  dsimp only
  split
  · cases c
    case refused a =>
      unfold State.refuseItem
      dsimp only
      split
      · exact State.abortBracket_pointView s.countOrdinal ..
      · rfl
    case good r clamped => exact State.stageItem_pointView s.countOrdinal ..
  · cases c
    case refused a => rfl
    case good r clamped =>
      dsimp only
      split
      · rfl
      all_goals exact s.takeItem_pointView r

theorem State.takeDirect_pointView (c : Checked) : (s.takeDirect c).1.pointView = s.pointView := by
  cases c
  · rfl
  · exact s.takeItem_pointView _

theorem State.openBracket_pointView (kind : BracketKind) (count : Nat) (strict notify : Bool) :
    (s.openBracket kind count strict notify).1.pointView = s.pointView := by
  unfold State.openBracket State.pointView
  dsimp only
  split <;> (repeat' split) <;> simp

theorem State.closeBracket_pointView : s.closeBracket.1.pointView = s.pointView := by
  unfold State.closeBracket
  dsimp only
  split
  · rfl
  · split
    · rfl
    · exact State.commit_pointView s.countOrdinal _
  · exact State.abortBracket_pointView s.countOrdinal ..
  · rfl

theorem State.abandonBracket_pointView : s.abandonBracket.1.pointView = s.pointView := by
  unfold State.abandonBracket State.pointView
  dsimp only
  split <;> simp

end views

end Sys2Proof.Machine
end

section
/-! The law of ages (R18), command by command, and over a step. -/

namespace Sys2Proof.Machine

open Sys2Proof

variable {s : State}

/-! ### The requests that change the operating state or the tables (R162, R174, R177) -/

/-- R14: on entry to RUN every point is NEVER. -/
theorem State.enterRun_ages (s : State) (receiving : Bool) : (s.enterRun receiving).ageLaw := by
  intro _ p hp hu
  have hpts : (s.enterRun receiving).points = .initial := by simp [State.enterRun]
  rw [hpts, show PointUnit.initial.runs.get p = PointRun.initial from Tab.get_replicate _ _ hp] at hu
  cases hu

theorem State.tryEnterRun_ages (receiving : Bool) (s : State) (h : s.ageLaw) :
    (s.tryEnterRun receiving).1.ageLaw := by
  unfold State.tryEnterRun
  split
  · exact h
  · split
    · exact h
    · split
      · exact h
      · dsimp only
        exact s.enterRun_ages receiving

theorem State.enterConfig_ages (s : State) (h : s.ageLaw) : s.enterConfig.1.ageLaw := by
  unfold State.enterConfig
  dsimp only
  split
  · exact State.ageLaw_outside (t := s.leaveRun) (by simp [State.leaveRun, State.inRun])
  · exact h

theorem State.endLoad_ages (s : State) (receiving : Bool) : (s.endLoad receiving).ageLaw := by
  unfold State.endLoad
  split
  · exact State.enterRun_ages _ receiving
  · exact State.ageLaw_outside rfl

theorem State.writeConfig_inRun (id : TableId) (first n : Nat) (content : List Byte) :
    (s.writeConfig id first n content).1.inRun = s.inRun := by
  cases id
  case fogMap => simp only [State.writeConfig, State.resetWritten]; split <;> rfl
  all_goals rfl

theorem State.writeRow_pointView (tag : Byte) (bank row : Nat) (content : List Byte) :
    (s.writeRow tag bank row content).1.pointView = s.pointView := by
  unfold State.writeRow
  (repeat' split) <;> rfl

theorem State.writeTable_ages (tag table : Byte) (first count : Word16) (content : List Byte) (s : State)
    (h : s.ageLaw) : (s.writeTable tag table first count content).1.ageLaw := by
  unfold State.writeTable
  split
  · exact h
  case h_2 id _ =>
    split
    · exact h
    · split
      · exact h
      · split
        · split
          · exact State.ageLaw_of_view h (s.writeRow_pointView ..)
          · exact h
        · split
          · exact h
          · dsimp only
            split
            · exact State.ageLaw_of_view h (s.writeRunning_pointView ..)
            · exact State.ageLaw_outside ((s.writeConfig_inRun ..).trans (by simpa using ‹¬s.inRun = true›))

theorem State.readTable_pointView (tag table : Byte) (first count : Word16) :
    (s.readTable tag table first count).1.pointView = s.pointView := by
  unfold State.readTable State.readRow
  (repeat' split) <;> rfl

theorem State.trySave_pointView (tag : Byte) : (s.trySave tag).1.pointView = s.pointView := by
  unfold State.trySave
  (repeat' split) <;> rfl

/-! ### Points that change in RUN (R15 to R18) -/

/-- A point may take any run fields whose age is within its max age, if they are usable. -/
theorem State.setPoint_ages (h : s.ageLaw) {p : Nat} {r : PointRun}
    (hr : r.quality.usable = true → r.ageMs ≤ 1000 * (s.tables.points.get p).maxAge) : (s.setPoint p r).ageLaw := by
  intro hrun q hq
  have kept := h hrun q hq
  rw [State.setPoint_points, State.setPoint_tables, Tab.get_set]
  split
  · rename_i hpq
    exact hpq.1 ▸ hr
  · exact kept

theorem State.okItem_ages (h : s.ageLaw) (p : Nat) (v : Int) : (s.okItem p v).ageLaw := by
  have young := State.setPoint_ages (p := p) (r := { s.points.runs.get p with
    value := some ((s.tables.points.get p).take v).1, quality := ((s.tables.points.get p).take v).2, ageMs := 0 }) h
    fun _ => Nat.zero_le _
  exact State.ageLaw_of_view young (by simp [State.okItem_points, State.pointView])

theorem State.lossOfUse_ages (h : s.ageLaw) (p : Nat) : (s.lossOfUse p).ageLaw :=
  State.ageLaw_of_view h (by simp [State.pointView])

theorem stale_or_fault_unusable (c : Prop) [Decidable c] :
    (if c then Quality.stale else Quality.fault).usable = false := by split <;> rfl

theorem PointRec.faulted_unusable (m : PointRec) (runMs : Nat) (r : PointRun) :
    (m.faulted runMs r).quality.usable = false := by
  unfold PointRec.faulted
  dsimp only
  split
  case h_1 hq | h_2 hq => rw [hq]; rfl
  all_goals exact stale_or_fault_unusable _

theorem State.faultItem_ages (h : s.ageLaw) (p : Nat) : (s.faultItem p).ageLaw := by
  have faulted := State.setPoint_ages (p := p)
    (r := (s.tables.points.get p).faulted s.points.runMs (s.points.runs.get p)) h fun hu => absurd hu (by simp [PointRec.faulted_unusable])
  unfold State.faultItem
  dsimp only
  split
  · exact State.lossOfUse_ages faulted p
  · exact faulted

theorem State.applyItem_ages (h : s.ageLaw) (n : Nat) (item : Item) : (s.applyItem n item).ageLaw := by
  unfold State.applyItem
  split
  · split
    · exact State.okItem_ages h _ _
    · exact State.faultItem_ages h _
  · exact h

/-- R20: what is sent of a point is neither its quality nor its age. -/
theorem State.sendUplink_ages (h : s.ageLaw) (points : List Nat) : (s.sendUplink points).ageLaw := by
  intro hrun p hp
  have kept := h (by simpa [State.inRun] using hrun) p hp
  rw [(s.sendUplink_frame points).2.2.2.1]
  obtain hpts | hpts := s.sendUplink_points points
  · rwa [hpts]
  · rw [hpts, sentRuns_get points hp]
    split <;> exact kept

theorem State.takeItems_ages (h : s.ageLaw) (n : Nat) (items : List Item) : (s.takeItems n items).ageLaw := by
  unfold State.takeItems
  refine State.sendUplink_ages ?_ _
  induction items generalizing s with
  | nil => exact h
  | cons item items ih => exact ih (State.applyItem_ages h n item)

theorem State.goStale_ages (h : s.ageLaw) (p : Nat) : (s.goStale p).ageLaw := by
  have staled := State.setPoint_ages (p := p) (r := (s.tables.points.get p).staled (s.points.runs.get p)) h
    fun hu => absurd hu nofun
  have lost : (if (s.points.runs.get p).quality.usable then
        (s.setPoint p ((s.tables.points.get p).staled (s.points.runs.get p))).lossOfUse p
      else s.setPoint p ((s.tables.points.get p).staled (s.points.runs.get p))).ageLaw := by
    split
    · exact State.lossOfUse_ages staled p
    · exact staled
  unfold State.goStale
  dsimp only
  split
  · split
    · exact State.sendUplink_ages lost _
    · exact lost
  · exact h

theorem State.goodReport_ages (h : s.ageLaw) (address : Byte) (items : List Item) :
    (s.goodReport address items).ageLaw := by
  unfold State.goodReport
  split
  · split
    · exact State.takeItems_ages (s := ((s.setReplyTimer none).endSlotAmid false).moveNode address.toNat _)
        (State.ageLaw_of_view h (by simp [State.pointView])) address.toNat items
    · exact State.ageLaw_of_view h (by simp [State.pointView])
  · exact h

theorem State.pointStale_ages (h : s.ageLaw) (p : Nat) : (s.pointStale p).ageLaw := by
  unfold State.pointStale
  split
  · exact State.goStale_ages h p
  · exact h

/-! ### The other events: they leave the points -/

section events
variable (s)

theorem State.pollSent_pointView : s.pollSent.pointView = s.pointView := by
  unfold State.pollSent
  (repeat' split) <;> rfl

theorem State.replyTimeout_pointView (receiving : Bool) : (s.replyTimeout receiving).pointView = s.pointView := by
  unfold State.replyTimeout State.pointView
  (repeat' split) <;> simp

theorem State.fieldBadFrame_pointView : s.fieldBadFrame.pointView = s.pointView := by
  unfold State.fieldBadFrame State.pointView
  split <;> simp

theorem State.setSent_pointView (receiving : Bool) : (s.setSent receiving).pointView = s.pointView := by
  unfold State.setSent State.pointView
  (repeat' split) <;> simp

theorem State.ignoredFrameEnds_pointView : s.ignoredFrameEnds.pointView = s.pointView := by
  unfold State.ignoredFrameEnds State.pointView
  split <;> simp

theorem State.refreshExpiry_pointView (a : Nat) : (s.refreshExpiry a).pointView = s.pointView := by
  unfold State.refreshExpiry State.pointView
  dsimp only
  (repeat' split) <;> simp

theorem State.refreshLapse_pointView (a : Nat) : (s.refreshLapse a).pointView = s.pointView := by
  unfold State.refreshLapse State.pointView
  (repeat' split) <;> simp

theorem State.watchTimer_pointView (k : Nat) (act : WatchRec → WatchRun → EntryOutcome) :
    (s.watchTimer k act).pointView = s.pointView := by
  unfold State.watchTimer State.pointView
  split <;> simp

theorem State.patternStep_pointView (i : Nat) : (s.patternStep i).pointView = s.pointView := by
  unfold State.patternStep State.pointView
  split <;> simp

theorem State.dehumidRunEnds_pointView : s.dehumidRunEnds.pointView = s.pointView := by
  unfold State.dehumidRunEnds State.pointView
  split <;> simp

theorem State.dehumidRestEnds_pointView : s.dehumidRestEnds.pointView = s.pointView := by
  unfold State.dehumidRestEnds State.pointView
  split <;> simp

theorem State.dispatchTimerEnds_pointView : s.dispatchTimerEnds.pointView = s.pointView := by
  unfold State.dispatchTimerEnds State.pointView
  split <;> simp

theorem State.deliverResult_pointView : s.deliverResult.pointView = s.pointView := by
  unfold State.deliverResult State.pointView
  (repeat' split) <;> simp

theorem State.activateComplete_pointView : s.activateComplete.pointView = s.pointView := by
  unfold State.activateComplete State.pointView
  (repeat' split) <;> simp

theorem State.rowWriteComplete_pointView (flaws : List (Nat × Byte)) :
    (s.rowWriteComplete flaws).pointView = s.pointView := by
  unfold State.rowWriteComplete State.pointView
  (repeat' split) <;> simp

theorem State.rowReadComplete_pointView : s.rowReadComplete.pointView = s.pointView := by
  unfold State.rowReadComplete State.pointView
  (repeat' split) <;> simp

theorem State.saveEnds_op (tag : Byte) (copy : Tables) (flaws : List (Nat × Byte)) :
    (s.saveEnds tag copy flaws).loader.op = s.loader.op := by
  unfold State.saveEnds
  dsimp only
  split <;> rfl

theorem State.imageSaveComplete_pointView (flaws : List (Nat × Byte)) :
    (s.imageSaveComplete flaws).pointView = s.pointView := by
  unfold State.imageSaveComplete State.pointView
  (repeat' split) <;> simp [State.saveEnds_op]

theorem State.activationDelivered_pointView (b : Nat) : (s.activationDelivered b).pointView = s.pointView := by
  unfold State.activationDelivered State.pointView
  split <;> simp

theorem State.settleExpiry_pointView (b : Nat) : (s.settleExpiry b).pointView = s.pointView := by
  unfold State.settleExpiry State.pointView
  split <;> simp

theorem State.fadeStepExpiry_pointView (b : Nat) : (s.fadeStepExpiry b).pointView = s.pointView := by
  unfold State.fadeStepExpiry State.pointView
  split <;> simp

theorem State.bracketTimerEnds_pointView : s.bracketTimerEnds.pointView = s.pointView := by
  unfold State.bracketTimerEnds State.pointView
  split <;> simp

theorem State.silenceEnds_pointView : s.silenceEnds.pointView = s.pointView := by
  unfold State.silenceEnds State.pointView
  split <;> simp

theorem State.badTrunkFrame_pointView : s.badTrunkFrame.pointView = s.pointView := by
  unfold State.badTrunkFrame
  split <;> rfl

end events

/-! ### Resets and the supply (R175) -/

theorem State.powerOn_ages (s : State) (straps : Straps) (cut : Nat) : (s.powerOn straps cut).ageLaw := by
  unfold State.powerOn
  split
  · exact State.ageLaw_outside rfl
  · exact State.ageLaw_outside (State.started_inRun ..)

theorem State.releasePin_ages (h : s.ageLaw) (straps : Straps) (cut : Nat) : (s.releasePin straps cut).ageLaw := by
  unfold State.releasePin
  split
  · exact State.ageLaw_outside (State.started_inRun ..)
  · exact h

theorem State.assertPin_ages (h : s.ageLaw) (cut : Nat) : (s.assertPin cut).ageLaw := by
  unfold State.assertPin
  split
  · exact State.ageLaw_outside rfl
  · exact h

theorem State.softReset_ages (h : s.ageLaw) (straps : Straps) (cut : Nat) : (s.softReset straps cut).ageLaw := by
  unfold State.softReset
  split
  · exact State.ageLaw_outside (State.started_inRun ..)
  · exact h

theorem State.frameSent_ages (h : s.ageLaw) : s.frameSent.ageLaw := by
  unfold State.frameSent
  split
  · split
    · exact State.ageLaw_outside (State.started_inRun ..)
    · exact h
  · exact h

theorem State.imageLoad_ages (h : s.ageLaw) (receiving : Bool) : (s.imageLoad receiving).ageLaw := by
  unfold State.imageLoad
  split
  · exact s.endLoad_ages receiving
  · exact h

/-! ### Every command, and a millisecond -/

/-- An outcome with a next state at most, and that one with the property. -/
def Holds (P : State → Prop) (o : Host.Outcome State Fault Refusal) : Prop := ∀ t, o = .next t → P t

theorem holds_next {P : State → Prop} {t : State} (h : P t) : Holds P (.next t) := by
  rintro _ ⟨⟩
  exact h

section exec
variable (h : s.ageLaw)
include h

/-- A request whose own rule leaves the points keeps the law. -/
theorem State.request_ages {serve : State → State × Option Answer}
    (hs : ∀ u : State, (serve u).1.pointView = u.pointView) (tag code : Byte) : (s.request tag code serve).ageLaw :=
  State.request_keeps State.ageLaw_trunk (fun u hu => State.ageLaw_of_view hu (hs u)) h tag code

/-- R144: so does a restricted one whose own rule keeps it. -/
theorem State.restrictedRequest_ages {serve : State → State × Option Answer}
    (hs : ∀ u : State, u.ageLaw → (serve u).1.ageLaw) (tag code : Byte) :
    (s.request tag code (restricted serve)).ageLaw :=
  State.request_keeps State.ageLaw_trunk
    (restricted_keeps (fun u _ _ _ hu => State.ageLaw_of_view hu (State.abortBracket_pointView u.countOrdinal ..)) hs)
    h tag code

theorem exec_ages (c : Instr) : Holds State.ageLaw (exec c s) := by
  have leaves {t : State} (hv : t.pointView = s.pointView) : Holds State.ageLaw (.next t) :=
    holds_next (State.ageLaw_of_view h hv)
  cases c
  case powerOn straps cut => exact holds_next (s.powerOn_ages straps cut)
  case resetPin straps cut => exact holds_next (State.releasePin_ages h straps cut)
  case softReset straps cut => exact holds_next (State.softReset_ages h straps cut)
  case resetPinAsserted cut => exact holds_next (State.assertPin_ages h cut)
  case powerFails cut => exact holds_next (State.ageLaw_outside rfl)
  case trunkFrameSent => exact holds_next (State.frameSent_ages h)
  case imageLoad receiving => exact holds_next (State.imageLoad_ages h receiving)
  case readInfo tag =>
    exact holds_next (State.passRequest_keeps (serve := serveInfo) State.ageLaw_trunk (fun _ hu => hu) h _ _)
  case readStatus tag =>
    exact holds_next (State.passRequest_keeps (serve := serveStatus) State.ageLaw_trunk (fun _ hu => hu) h _ _)
  case malformedRequest tag code =>
    exact holds_next (State.passRequest_keeps State.ageLaw_trunk (fun _ hu => hu) h _ _)
  case readTable tag table first count =>
    exact holds_next (State.request_ages h (fun _ => State.readTable_pointView ..) _ _)
  case writeTable tag table first count content =>
    exact holds_next (State.restrictedRequest_ages h (State.writeTable_ages tag table first count content) _ _)
  case clearFlags tag mask value => exact holds_next (State.request_ages h (fun _ => rfl) _ _)
  case enterRun tag receiving =>
    exact holds_next (State.restrictedRequest_ages h (State.tryEnterRun_ages receiving) _ _)
  case enterConfig tag => exact holds_next (State.request_keeps State.ageLaw_trunk State.enterConfig_ages h _ _)
  case saveImage tag =>
    exact holds_next (State.restrictedRequest_ages h
      (fun _ hu => State.ageLaw_of_view hu (State.trySave_pointView tag)) _ _)
  case resetPart tag => exact holds_next (State.request_ages h (fun _ => rfl) _ _)
  case setChannel tag channel value direct =>
    refine holds_next (State.request_ages h (fun u => ?_) _ _)
    split
    · exact u.takeDirect_pointView _
    · exact u.takeStageable_pointView _
  case setZone tag zone o a b => exact holds_next (State.request_ages h (fun u => u.takeStageable_pointView _) _ _)
  case cue tag bank row fade rel => exact holds_next (State.request_ages h (fun u => u.takeStageable_pointView _) _ _)
  case releaseBank tag bank => exact holds_next (State.request_ages h (fun u => u.takeStageable_pointView _) _ _)
  case releaseWatch tag mask =>
    exact holds_next (State.request_ages h (fun u => by simp [State.pointView, serveRelease]) _ _)
  case openBracket tag kind count strict notify =>
    exact holds_next (State.request_ages h (fun u => u.openBracket_pointView ..) _ _)
  case closeBracket tag => exact holds_next (State.request_ages h State.closeBracket_pointView _ _)
  case abandonBracket tag => exact holds_next (State.request_ages h State.abandonBracket_pointView _ _)
  case goodReport address items => exact holds_next (State.goodReport_ages h address items)
  case pointStale p => exact holds_next (State.pointStale_ages h p)
  case trunkBadFrame => exact leaves s.badTrunkFrame_pointView
  case trunkSilenceExpiry => exact leaves s.silenceEnds_pointView
  case pollSent => exact leaves s.pollSent_pointView
  case replyTimeout receiving => exact leaves (s.replyTimeout_pointView receiving)
  case fieldBadFrame => exact leaves s.fieldBadFrame_pointView
  case setSent receiving => exact leaves (s.setSent_pointView receiving)
  case ignoredFieldFrameEnd => exact leaves s.ignoredFrameEnds_pointView
  case refreshExpiry address => exact leaves (s.refreshExpiry_pointView address.toNat)
  case refreshLapse address => exact leaves (s.refreshLapse_pointView address.toNat)
  case qualifyExpiry k => exact leaves (s.watchTimer_pointView k _)
  case releaseExpiry k => exact leaves (s.watchTimer_pointView k _)
  case holdExpiry k => exact leaves (s.watchTimer_pointView k _)
  case windowExpiry k => exact leaves (s.watchTimer_pointView k _)
  case patternStepExpiry i => exact leaves (s.patternStep_pointView i)
  case dehumidRunExpiry => exact leaves s.dehumidRunEnds_pointView
  case dehumidRestExpiry => exact leaves s.dehumidRestEnds_pointView
  case dispatchTimerExpiry => exact leaves s.dispatchTimerEnds_pointView
  case dispatchResultDelivery => exact leaves s.deliverResult_pointView
  case activateComplete => exact leaves s.activateComplete_pointView
  case rowWriteComplete flaws => exact leaves (s.rowWriteComplete_pointView flaws)
  case rowReadComplete => exact leaves s.rowReadComplete_pointView
  case imageSaveComplete flaws => exact leaves (s.imageSaveComplete_pointView flaws)
  case activationDelivery b => exact leaves (s.activationDelivered_pointView b)
  case settleExpiry b => exact leaves (s.settleExpiry_pointView b)
  case fadeStepExpiry b => exact leaves (s.fadeStepExpiry_pointView b)
  case bracketTimerExpiry => exact leaves s.bracketTimerEnds_pointView

end exec

/-- R18: while nothing is due of a part in RUN, every usable point is younger than its max age. -/
theorem State.usable_young (hd : s.due = none) (hl : s.live = true) (hr : s.inRun = true) {p : Nat} (hp : p < 256)
    (hu : (s.points.runs.get p).quality.usable = true) :
    (s.points.runs.get p).ageMs < 1000 * (s.tables.points.get p).maxAge := by
  have quiet : pointDue (s.tables.points.get p) (s.points.runs.get p) = false := by
    rw [State.due_eq_firstDue, firstDue_eq_none] at hd
    refine hd (pointDue (s.tables.points.get p) (s.points.runs.get p), .pointStale (Fin.ofNat 256 p)) ?_
    rw [State.events, if_pos hl, if_pos hr]
    refine List.mem_cons_of_mem _ ?_
    simp only [State.fieldEvents, List.mem_append, List.mem_cons, List.mem_map, List.mem_range]
    exact .inl (.inl (.inl (.inl (.inr ⟨p, hp, rfl⟩))))
  rw [pointDue_eq, decide_eq_false_iff_not] at quiet
  by_contra hold
  refine quiet ⟨?_, ?_, by omega⟩ <;> (intro hq; rw [hq] at hu; cases hu)

/-- A millisecond with nothing due takes no usable point past its max age. -/
theorem State.tick_ages (h : s.ageLaw) (hd : s.due = none) : s.tick.ageLaw := by
  by_cases hl : s.live = true
  · cases hr : s.inRun
    · rw [State.tick_idle hl hr]
      exact State.ageLaw_trunk s _ h
    · rw [State.tick_running hl hr]
      refine State.ageLaw_trunk s.passRun _ fun _ p hp hu => ?_
      have hpt : s.passRun.points.runs.get p = agePoint (s.points.runs.get p) := Tab.get_map _ _ _ hp
      rw [hpt] at hu ⊢
      unfold agePoint at hu ⊢
      split at hu
      · rename_i hq
        rw [hq] at hu
        cases hu
      · rename_i hq
        rw [if_neg hq]
        have young := State.usable_young hd hl hr hp hu
        exact (Nat.min_le_right _ _).trans young
  · rw [State.tick, if_neg hl]
    exact h

/-- Settles O59: a command that waits, one that is due, or a millisecond. -/
theorem agesKept : Obligations.AgesKept := by
  intro s t h ht
  unfold step at ht
  split at ht
  · rename_i c rest _
    exact exec_ages (s := { s with pending := rest }) h c t ht
  · unfold State.idle at ht
    split at ht
    · rename_i c _
      exact exec_ages h c t ht
    · rename_i hd
      cases ht
      exact State.tick_ages h hd

end Sys2Proof.Machine
end

section
/-! The channel image (R26 to R35): what a demand write does, the writes of a series, and a node's refresh. -/

namespace Sys2Proof.Machine

open Sys2Proof

variable {s : State}

/-! ### A demand write (R26) -/

/-- R26: the node that a demand write offers, if it changes the commanded value. -/
def State.demandOffers (s : State) (ch level : Nat) : List Nat :=
  if (s.tables.channels.get ch).commandedFor s.watch.guard level = (s.image.get ch).commanded then []
  else [(s.tables.channels.get ch).node]

theorem State.demandOffers_same {ch level : Nat}
    (h : (s.tables.channels.get ch).commandedFor s.watch.guard level = (s.image.get ch).commanded) :
    s.demandOffers ch level = [] := if_pos h

theorem State.demandOffers_changed {ch level : Nat}
    (h : (s.tables.channels.get ch).commandedFor s.watch.guard level ≠ (s.image.get ch).commanded) :
    s.demandOffers ch level = [(s.tables.channels.get ch).node] := if_neg h

theorem foldl_offerUrgent (offers : List Nat) (r : JoinReason) : ∀ s : State,
    offers.foldl (fun s n => s.offerUrgent n r) s =
      { s with seg := { s.seg with urgent := offers.foldl (fun q n => offerNode q n r) s.seg.urgent } } := by
  induction offers with
  | nil => exact fun _ => rfl
  | cons n offers ih => exact fun s => ih (s.offerUrgent n r)

/-- All that a demand write does: the channel's run fields, its offers and its note. -/
theorem State.writeDemand_mapped {ch : Nat} (hr : s.inRun = true) (hm : (s.tables.channels.get ch).mapped = true)
    (level : Nat) : s.writeDemand ch level = { s with
      image := s.image.set ch ⟨level, (s.tables.channels.get ch).commandedFor s.watch.guard level⟩
      seg := { s.seg with
        urgent := (s.demandOffers ch level).foldl (fun q n => offerNode q n .value) s.seg.urgent
        log := s.seg.log ++
          [⟨[(ch, s.image.get ch)], s.seg.urgent.length, s.demandOffers ch level, .first⟩] } } := by
  unfold State.writeDemand
  dsimp only
  rw [if_pos ⟨hr, hm⟩, foldl_offerUrgent]
  rfl

/-! ### A series of writes (R29) -/

/-- Each write of a list to mapped channels, in RUN, is noted once. -/
theorem writeDemands_log (writes : List (Nat × Nat)) : ∀ s : State, s.inRun = true →
    (∀ w ∈ writes, (s.tables.channels.get w.1).mapped = true) →
    ∃ events, (writes.foldl (fun t w => t.writeDemand w.1 w.2) s).seg.log = s.seg.log ++ events ∧
      events.length = writes.length := by
  induction writes with
  | nil => exact fun s _ _ => ⟨[], (List.append_nil _).symm, rfl⟩
  | cons w writes ih =>
    intro s hr hm
    obtain ⟨hw, hrest⟩ := List.forall_mem_cons.1 hm
    obtain ⟨events, hlog, hlen⟩ := ih (s.writeDemand w.1 w.2) (by simpa [State.inRun] using hr) (by simpa using hrest)
    refine ⟨⟨[(w.1, s.image.get w.1)], s.seg.urgent.length, s.demandOffers w.1 w.2, .first⟩ :: events, ?_,
      congrArg (· + 1) hlen⟩
    rw [List.foldl_cons, hlog, State.writeDemand_mapped hr hw]
    simp

/-- Of several writes to one channel the last stands. -/
theorem writeDemands_image (writes : List (Nat × Nat)) {ch : Nat} (hch : ch < 512) : ∀ s : State, s.inRun = true →
    (∀ w ∈ writes, (s.tables.channels.get w.1).mapped = true) →
    (writes.foldl (fun t w => t.writeDemand w.1 w.2) s).image.get ch =
      ((writes.filter fun w => w.1 == ch).getLast?.map fun w =>
        ⟨w.2, (s.tables.channels.get ch).commandedFor s.watch.guard w.2⟩).getD (s.image.get ch) := by
  induction writes with
  | nil => exact fun _ _ _ => rfl
  | cons w writes ih =>
    intro s hr hm
    obtain ⟨hw, hrest⟩ := List.forall_mem_cons.1 hm
    rw [List.foldl_cons, ih (s.writeDemand w.1 w.2) (by simpa [State.inRun] using hr) (by simpa using hrest)]
    by_cases hwc : w.1 = ch
    · have written : (s.writeDemand w.1 w.2).image.get ch =
          ⟨w.2, (s.tables.channels.get ch).commandedFor s.watch.guard w.2⟩ := by
        rw [State.writeDemand_mapped hr hw, hwc, Tab.get_set_self _ _ _ hch]
      rw [written, List.filter_cons_of_pos (by simpa using hwc), List.getLast?_cons]
      cases (writes.filter fun w => w.1 == ch).getLast? <;> simp
    · rw [State.writeDemand_other hwc, List.filter_cons_of_neg (by simpa using hwc)]
      simp

theorem relink_drop (f : EventLink → EventLink) (l : List ImageEvent) :
    (relink f l).drop 1 = (l.drop 1).map fun e => { e with link := f e.link } := by
  cases l <;> rfl

/-- The events that were added, and their links. -/
theorem State.relinked_log {t : State} {events : List ImageEvent} (h : t.seg.log = s.seg.log ++ events)
    (f : EventLink → EventLink) : (s.relinked t f).seg.log = s.seg.log ++ relink f events := by
  simp [State.relinked, h]

/-- Settles O29: the write, the series and the marks. -/
theorem demandWritten : Obligations.DemandWritten := by
  refine ⟨fun s ch level hr hm => ⟨fun hc => ?same, fun hc => ?changed⟩,
    fun s writes => ⟨rfl, fun hr hw => ⟨fun ch hch => ?image, ?log⟩⟩, fun s t => ⟨fun h => ?unmarked, ?marked⟩⟩
  case same =>
    rw [State.writeDemand_mapped hr hm, State.demandOffers_same hc]
    rfl
  case changed =>
    rw [State.writeDemand_mapped hr hm, State.demandOffers_changed hc, List.foldl_cons, List.foldl_nil,
      offerNode_value]
  case image =>
    refine (writeDemands_image writes hch s hr fun w h => (hw w h).2).trans ?_
    cases (writes.filter fun w => w.1 == ch).getLast? <;> rfl
  case log =>
    obtain ⟨events, hlog, hlen⟩ := writeDemands_log writes s hr fun w h => (hw w h).2
    refine ⟨relink (fun _ => .sameSeries) events, State.relinked_log hlog _, (relink_length _ _).trans hlen, ?_⟩
    intro e he
    rw [relink_drop] at he
    obtain ⟨_, _, rfl⟩ := List.mem_map.1 he
    rfl
  case unmarked => exact ⟨State.relinked_same h _, State.relinked_same h _, State.relinked_same h _⟩
  case marked =>
    intro e rest h
    simp [State.asSeries, State.asCommit, State.asStep, State.relinked, h, relink]

/-! ### Refresh expiry and lapse (R34, R35) -/

/-- The record of a node that takes SET frames is found by its address. -/
theorem State.setNode_recorded {a i : Nat} (h : s.tables.nodeIndex a = some i)
    (ht : (s.tables.nodes.get i).takesSet = true) : s.setNode a = some (s.tables.nodes.get i) := by
  simp [State.setNode, Tables.nodeOf, h, ht]

section refresh
variable {a i : Nat} (h : s.running = true) (hi : s.tables.nodeIndex a = some i)
  (ht : (s.tables.nodes.get i).takesSet = true)
include h hi ht

theorem State.refreshExpiry_due (hf : (s.seg.nodes.get i).refreshed = false) : s.refreshExpiry a =
    (let t := s.updateNode a fun r =>
      { r with refreshed := true, lastSetMs := max r.lastSetMs (s.tables.nodes.get i).refreshMs }
     if s.inTransmission a then t else (t.offerUrgent a .refresh).settle) := by
  simp [State.refreshExpiry, h, State.setNode_recorded hi ht, State.nodeRun_recorded hi, hf]

theorem State.refreshLapse_due (hf : (s.seg.nodes.get i).lapse = false) : s.refreshLapse a =
    State.raise (s.updateNode a fun r =>
      { r with lapse := true, lastSetMs := max r.lastSetMs (s.tables.nodes.get i).lapseMs }) .refreshLapse := by
  simp [State.refreshLapse, h, State.setNode_recorded hi ht, State.nodeRun_recorded hi, hf]

end refresh

/-- Settles O32: the expiry, in transmission and not, and the lapse. -/
theorem refreshAndLapse : Obligations.RefreshAndLapse := by
  rintro a m i s h hi rfl ht
  refine ⟨fun hf => ⟨_, rfl, ?expiry⟩, fun hf => ⟨_, rfl, ?lapse⟩⟩
  case expiry =>
    show Host.Outcome.next (s.refreshExpiry a.toNat) = _
    rw [State.refreshExpiry_due h hi ht hf, State.updateNode_recorded hi]
    by_cases sending : s.inTransmission a.toNat = true
    · simp only [sending, if_true]
      rfl
    · simp only [sending]
      rfl
  case lapse =>
    show Host.Outcome.next (s.refreshLapse a.toNat) = _
    rw [State.refreshLapse_due h hi ht hf, State.updateNode_recorded hi]
    rfl

end Sys2Proof.Machine
end

section
/-! The laws of the channel image (R27) and of the urgent queue (R31): what keeps them, from a demand write to an event
of a whole block. -/

namespace Sys2Proof.Machine

open Sys2Proof

/-! ### The limit of a channel (R27) -/

/-- R27: the limit prevails where it falls below the floor. -/
theorem ChannelRec.commandedFor_eq (r : ChannelRec) (g : GuardLevel) (demand : Nat) :
    r.commandedFor g demand = min (r.limit g) (max r.floor demand) := by
  unfold ChannelRec.commandedFor
  split <;> omega

/-- The guard level reaches heat-bearing channels alone. -/
theorem ChannelRec.commandedFor_cool {r : ChannelRec} (h : isSet r.heatBearing = false) (g g' : GuardLevel)
    (demand : Nat) : r.commandedFor g demand = r.commandedFor g' demand := by
  simp [ChannelRec.commandedFor, ChannelRec.limit, h]

/-! ### Offers (R31) -/

theorem offerNode_queued {q : List UrgentEntry} {a : Nat} (h : ∃ e ∈ q, e.address = a) (r : JoinReason) :
    offerNode q a r = q := if_pos (by simpa using h)

theorem offerNode_new {q : List UrgentEntry} {a : Nat} (h : ∀ e ∈ q, e.address ≠ a) (r : JoinReason) :
    offerNode q a r = q ++ [⟨a, r⟩] := if_neg (by simpa using h)

/-- R31: the queue holds no node twice, as `State.urgentLaw` says of the part's own. -/
def DistinctNodes (q : List UrgentEntry) : Prop := (q.map UrgentEntry.address).Nodup

theorem DistinctNodes.sublist {q q' : List UrgentEntry} (h : DistinctNodes q) (hs : q'.Sublist q) :
    DistinctNodes q' := List.Nodup.sublist (hs.map _) h

theorem DistinctNodes.offer {q : List UrgentEntry} (h : DistinctNodes q) (a : Nat) (r : JoinReason) :
    DistinctNodes (offerNode q a r) := by
  by_cases hq : ∃ e ∈ q, e.address = a
  · rwa [offerNode_queued hq]
  · have new : ∀ e ∈ q, e.address ≠ a := fun e he hea => hq ⟨e, he, hea⟩
    rw [offerNode_new new, DistinctNodes, List.map_append, List.nodup_append]
    refine ⟨h, List.nodup_singleton _, fun b hb c hc => ?_⟩
    obtain ⟨e, he, rfl⟩ := List.mem_map.1 hb
    rw [List.mem_singleton.1 hc]
    exact new e he

theorem DistinctNodes.offers {q : List UrgentEntry} (h : DistinctNodes q) (l : List Nat) (r : JoinReason) :
    DistinctNodes (l.foldl (fun q a => offerNode q a r) q) := by
  induction l generalizing q with
  | nil => exact h
  | cons a l ih => exact ih (h.offer a r)

theorem DistinctNodes.offered {q : List UrgentEntry} (h : DistinctNodes q) (later : List ImageEvent) :
    DistinctNodes (later.foldl (fun q e => e.offered q) q) := by
  induction later generalizing q with
  | nil => exact h
  | cons e later ih => exact ih (h.offers e.offers .value)

/-! ### From one part to a later one -/

/-- What the two laws read of the part. -/
def State.imageView (s : State) : OpState × Tab ChannelRec 512 × GuardLevel × Tab ChannelRun 512 × List UrgentEntry :=
  (s.loader.op, s.tables.channels, s.watch.guard, s.image, s.seg.urgent)

/-- Each of the two laws that `s` keeps, `t` keeps. -/
structure State.ImageKept (s t : State) : Prop where
  commanded : s.commandedLaw → t.commandedLaw
  urgent : s.urgentLaw → t.urgentLaw

variable {s t u : State}

theorem State.ImageKept.rfl : s.ImageKept s := ⟨id, id⟩

theorem State.ImageKept.trans (h : s.ImageKept t) (h' : t.ImageKept u) : s.ImageKept u :=
  ⟨h'.commanded ∘ h.commanded, h'.urgent ∘ h.urgent⟩

/-- The image stays, whatever becomes of the queue. -/
theorem State.imageKept_of_queue
    (h : (t.loader.op, t.tables.channels, t.watch.guard, t.image) =
      (s.loader.op, s.tables.channels, s.watch.guard, s.image))
    (hq : DistinctNodes s.seg.urgent → DistinctNodes t.seg.urgent) : s.ImageKept t := by
  simp only [Prod.mk.injEq] at h
  obtain ⟨hop, hchannels, hguard, himage⟩ := h
  refine ⟨?_, hq⟩
  simp only [State.commandedLaw, State.inRun, hop, hchannels, hguard, himage, imp_self]

theorem State.imageKept_of_view (h : t.imageView = s.imageView) : s.ImageKept t := by
  simp only [State.imageView, Prod.mk.injEq] at h
  obtain ⟨hop, hchannels, hguard, himage, hurgent⟩ := h
  exact State.imageKept_of_queue (by rw [hop, hchannels, hguard, himage]) (by rw [hurgent]; exact id)

/-- A chain that starts at a part that looks the same. -/
theorem State.ImageKept.after (h : t.ImageKept u) (hv : t.imageView = s.imageView) : s.ImageKept u :=
  (State.imageKept_of_view hv).trans h

theorem State.ImageKept.ite {c : Prop} [Decidable c] (ht : s.ImageKept t) (hu : s.ImageKept u) :
    s.ImageKept (if c then t else u) := by
  split
  · exact ht
  · exact hu

/-- The links of the image's events are no matter of the laws. -/
theorem State.ImageKept.relinked (h : s.ImageKept t) (f : EventLink → EventLink) : s.ImageKept (u.relinked t f) :=
  h.trans (State.imageKept_of_view (Eq.refl t.imageView))

/-- Outside RUN the image is free. -/
theorem State.imageKept_outside (h : t.inRun = false)
    (hq : DistinctNodes s.seg.urgent → DistinctNodes t.seg.urgent) : s.ImageKept t :=
  ⟨fun _ hr => absurd (h.symm.trans hr) nofun, hq⟩

theorem foldl_imageKept {β : Type} {f : State → β → State} (h : ∀ (s : State) b, s.ImageKept (f s b)) (l : List β)
    (s : State) : s.ImageKept (l.foldl f s) := by
  induction l generalizing s with
  | nil => exact .rfl
  | cons b l ih => exact (h s b).trans (ih (f s b))

section blocks
variable (s)

theorem State.raiseIf_imageKept (c : Bool) (f : EventFlag) : s.ImageKept (s.raiseIf c f) :=
  State.imageKept_of_view (by simp [State.imageView])

/-! ### The channel image itself (R26 to R29) -/

theorem State.writeDemand_imageKept (ch level : Nat) : s.ImageKept (s.writeDemand ch level) := by
  cases hr : s.inRun
  · rw [State.writeDemand_idle hr]
    exact .rfl
  cases hm : (s.tables.channels.get ch).mapped
  · rw [State.writeDemand_unmapped hm]
    exact .rfl
  rw [State.writeDemand_mapped hr hm]
  refine ⟨fun law _ c hc => ?_, fun law => DistinctNodes.offers law _ _⟩
  obtain ⟨hmapped, hfree⟩ := law hr c hc
  simp only [Tab.get_set]
  split
  · rename_i written
    obtain ⟨rfl, -⟩ := written
    exact ⟨fun _ => Eq.refl _, fun h => absurd (hm.symm.trans h) nofun⟩
  · exact ⟨hmapped, hfree⟩

theorem State.writeDemandTo_imageKept (ch : Option Nat) (level : Nat) : s.ImageKept (s.writeDemandTo ch level) := by
  cases ch
  · exact .rfl
  · exact s.writeDemand_imageKept _ level

theorem State.writeSeries_imageKept (writes : List (Nat × Nat)) : s.ImageKept (s.writeSeries writes) :=
  (foldl_imageKept (fun (t : State) (w : Nat × Nat) => t.writeDemand_imageKept w.1 w.2) writes s).relinked ..

theorem State.reclamp_image_get (g : GuardLevel) {ch : Nat} (hch : ch < 512) :
    (s.reclamp g).image.get ch = reclampChannel g (s.tables.channels.get ch, s.image.get ch) := by
  simp [hch]

/-- R28: the channel's commanded value under the new level. -/
theorem reclampChannel_lawful {g g' : GuardLevel} {r : ChannelRec} {c : ChannelRun}
    (h : r.mapped = true → c.commanded = r.commandedFor g' c.demand) (hm : r.mapped = true) :
    (reclampChannel g (r, c)).commanded = r.commandedFor g (reclampChannel g (r, c)).demand := by
  cases hb : isSet r.heatBearing
  · simpa [reclampChannel, hb] using (h hm).trans (r.commandedFor_cool hb g' g c.demand)
  · simp [reclampChannel, hb, hm]

/-- R58: a change of the guard level reaches the image with it. -/
theorem State.setGuard_imageKept (g : GuardLevel) : s.ImageKept (s.setGuard g) := by
  have clamped : s.ImageKept
      (State.reclamp (State.raise { s with watch := { s.watch with guard := g } } .guardChanged) g) := by
    refine ⟨fun law hr c hc => ?_, fun law => DistinctNodes.offers law _ _⟩
    obtain ⟨hmapped, hfree⟩ := law hr c hc
    rw [State.reclamp_image_get _ g hc]
    refine ⟨reclampChannel_lawful hmapped, fun (hm : (s.tables.channels.get c).mapped = false) => ?_⟩
    simpa [reclampChannel, hm] using hfree hm
  unfold State.setGuard
  dsimp only
  split
  · exact .rfl
  · split
    · exact clamped.trans (State.imageKept_of_view (by simp [State.imageView]))
    · exact clamped

theorem State.watchEvent_imageKept (act : Nat → WatchRec → WatchRun → EntryOutcome) :
    s.ImageKept (s.watchEvent act) :=
  .after ((State.raiseIf_imageKept _ _ _).trans (State.setGuard_imageKept _ _)) rfl

/-! ### The fog monitor (R66 to R77) -/

theorem State.putStep_imageKept (i k : Nat) : s.ImageKept (s.putStep i k) :=
  .after (State.writeDemandTo_imageKept _ _ _) rfl

theorem State.putFogState_imageKept (i : Nat) (n : FogState) : s.ImageKept (s.putFogState i n) :=
  .ite .rfl (.after (State.putStep_imageKept _ _ _) rfl)

theorem State.evaluateStation_imageKept (i : Nat) : s.ImageKept (s.evaluateStation i) := by
  unfold State.evaluateStation
  dsimp only
  split <;> exact .after (State.putFogState_imageKept _ _ _) rfl

theorem State.dehumidRun_imageKept : s.ImageKept s.dehumidRun :=
  .after (State.writeDemandTo_imageKept _ _ _) rfl

theorem State.dehumidRest_imageKept : s.ImageKept s.dehumidRest :=
  .after (State.writeDemandTo_imageKept _ _ _) rfl

theorem State.dehumidDemand_imageKept (before : Nat) : s.ImageKept (s.dehumidDemand before) := by
  unfold State.dehumidDemand
  split
  · exact .ite s.dehumidRun_imageKept .rfl
  · exact .ite s.dehumidRest_imageKept .rfl
  · exact .rfl

theorem State.publishFog_imageKept : s.ImageKept s.publishFog :=
  .ite (State.imageKept_of_view rfl) (.after (State.dehumidDemand_imageKept _ _) rfl)

theorem State.fogPoint_imageKept (p : Nat) : s.ImageKept (s.fogPoint p) := by
  unfold State.fogPoint
  split
  · exact .rfl
  · exact ((foldl_imageKept State.evaluateStation_imageKept _ s).trans (State.publishFog_imageKept _)).relinked ..

theorem State.fogStep_imageKept (i : Nat) : s.ImageKept (s.fogStep i) :=
  ((s.putStep_imageKept i _).trans (State.publishFog_imageKept _)).relinked ..

theorem State.runTimerEnds_imageKept : s.ImageKept s.runTimerEnds := by
  unfold State.runTimerEnds
  dsimp only
  refine .trans (.ite ?_ ?_) (State.publishFog_imageKept _)
  · exact .after (State.dehumidRest_imageKept _) rfl
  · exact State.imageKept_of_view rfl

theorem State.restTimerEnds_imageKept : s.ImageKept s.restTimerEnds := by
  unfold State.restTimerEnds
  dsimp only
  refine .trans (.ite ?_ ?_) (State.publishFog_imageKept _)
  · exact State.imageKept_of_view rfl
  · exact .after (State.dehumidRun_imageKept _) rfl

theorem State.retuneStation_imageKept (i : Nat) (before : FogTuneRec) : s.ImageKept (s.retuneStation i before) :=
  .ite (s.putFogState_imageKept ..) (.ite (s.writeDemandTo_imageKept ..) .rfl)

theorem State.fogRetune_imageKept (before : Tab FogTuneRec 8) (first n : Nat) :
    s.ImageKept (s.fogRetune before first n) :=
  ((foldl_imageKept (fun s i => s.retuneStation_imageKept i _) _ s).trans (State.publishFog_imageKept _)).relinked ..

theorem State.fogEnterRun_imageKept : s.ImageKept s.fogEnterRun := by
  have rest : s.ImageKept { s with fog := .initial } := State.imageKept_of_view rfl
  exact rest.trans (((foldl_imageKept (fun s i => s.putStep_imageKept i 0) _ _).trans
    (State.publishFog_imageKept _)).relinked ..)

/-! ### The heat dispatcher and the zones (R88, R101 to R110) -/

theorem State.dispatchPass_imageKept : s.ImageKept s.dispatchPass :=
  (((s.writeSeries_imageKept _).trans (State.raiseIf_imageKept _ _ _)).trans (State.raiseIf_imageKept _ _ _)).trans
    (State.imageKept_of_view rfl)

theorem State.heatArrival_imageKept (p : Nat) : s.ImageKept (s.heatArrival p) :=
  .ite (.ite s.dispatchPass_imageKept (State.imageKept_of_view rfl)) .rfl

theorem State.recomputeZone_imageKept (z : Nat) : s.ImageKept (s.recomputeZone z) :=
  .after (State.writeDemand_imageKept _ _ _) rfl

theorem State.zonePoint_imageKept (p : Nat) : s.ImageKept (s.zonePoint p) :=
  (foldl_imageKept State.recomputeZone_imageKept _ s).relinked ..

theorem State.zoneReset_imageKept (first n : Nat) : s.ImageKept (s.zoneReset first n) :=
  (foldl_imageKept State.recomputeZone_imageKept _ s).relinked ..

theorem State.zoneSplit_imageKept (o : Tab Nat 16) (shares : List Nat) (z : Nat) :
    s.ImageKept (s.zoneSplit o shares z) := by
  have noted (r : ZoneRun) : s.ImageKept (s.setZoneRun z r) := State.imageKept_of_view rfl
  exact ((noted _).trans (State.writeDemand_imageKept _ _ _)).trans (State.writeDemand_imageKept _ _ _)

theorem State.splitGrant_imageKept (d : Delivery) : s.ImageKept (s.splitGrant d) :=
  .after (.relinked (foldl_imageKept (fun s z => s.zoneSplit_imageKept _ _ z) _ _) _) rfl

theorem State.applyZone_imageKept (z : Nat) (o : Option Bool) (a b : Option Int) :
    s.ImageKept (s.applyZone z o a b) :=
  .after (t := s.storeZone z o a b) (.ite (State.recomputeZone_imageKept _ z) .rfl) rfl

theorem State.zonesEnterRun_imageKept : s.ImageKept s.zonesEnterRun :=
  .after (State.writeSeries_imageKept _ _) rfl

/-! ### The point table (R15 to R21) -/

theorem State.lossOfUse_imageKept (p : Nat) : s.ImageKept (s.lossOfUse p) :=
  ((s.watchEvent_imageKept _).trans (State.fogPoint_imageKept _ p)).trans (State.zonePoint_imageKept _ p)

theorem State.valueUpdate_imageKept (p : Nat) (v : Int) : s.ImageKept (s.valueUpdate p v) :=
  (((s.watchEvent_imageKept _).trans (State.fogPoint_imageKept _ p)).trans
    (State.zonePoint_imageKept _ p)).trans (State.heatArrival_imageKept _ p)

theorem State.setPoint_imageKept (p : Nat) (r : PointRun) : s.ImageKept (s.setPoint p r) :=
  State.imageKept_of_view rfl

theorem State.okItem_imageKept (p : Nat) (v : Int) : s.ImageKept (s.okItem p v) :=
  (s.setPoint_imageKept p _).trans (State.valueUpdate_imageKept _ p _)

theorem State.faultItem_imageKept (p : Nat) : s.ImageKept (s.faultItem p) :=
  .trans (s.setPoint_imageKept p _) (.ite (State.lossOfUse_imageKept _ p) .rfl)

theorem State.applyItem_imageKept (n : Nat) (item : Item) : s.ImageKept (s.applyItem n item) := by
  unfold State.applyItem
  split
  · split
    · exact s.okItem_imageKept ..
    · exact s.faultItem_imageKept _
  · exact .rfl

theorem State.sendUplink_imageKept (points : List Nat) : s.ImageKept (s.sendUplink points) :=
  State.imageKept_of_view (by simp [State.imageView])

theorem State.takeItems_imageKept (n : Nat) (items : List Item) : s.ImageKept (s.takeItems n items) :=
  (foldl_imageKept (fun s i => s.applyItem_imageKept n i) items s).trans (State.sendUplink_imageKept _ _)

theorem State.goStale_imageKept (p : Nat) : s.ImageKept (s.goStale p) :=
  .ite (.trans (.trans (s.setPoint_imageKept p _) (.ite (State.lossOfUse_imageKept _ p) .rfl))
    (.ite (State.sendUplink_imageKept _ _) .rfl)) .rfl

/-! ### The fade engines (R131 to R136) -/

theorem State.endFade_imageKept (b : Nat) : s.ImageKept (s.endFade b) :=
  State.imageKept_of_view (by simp [State.imageView])

theorem State.firstMove_imageKept (b : Nat) : s.ImageKept (s.firstMove b) :=
  .ite (s.endFade_imageKept b)
    (.ite ((s.writeSeries_imageKept _).trans (State.endFade_imageKept _ b)) (State.imageKept_of_view rfl))

theorem State.startFade_imageKept (b : Nat) : s.ImageKept (s.startFade b) := by
  have taken : s.ImageKept (s.takeOver b) := State.imageKept_of_view rfl
  exact (taken.trans (foldl_imageKept State.endFade_imageKept _ _)).trans (State.firstMove_imageKept _ b)

theorem State.cueFade_imageKept (b : Nat) (fade : Option Nat) (rel : Bool) : s.ImageKept (s.cueFade b fade rel) :=
  .after (State.startFade_imageKept _ b) rfl

theorem State.fadeStep_imageKept (b : Nat) : s.ImageKept (s.fadeStep b) := by
  have stepped (e : Engine) (writes : List (Nat × Nat)) : s.ImageKept ((s.setEngine b e).writeSeries writes) :=
    .after (State.writeSeries_imageKept _ _) rfl
  exact .ite ((stepped _ _).trans (State.endFade_imageKept _ b)) (stepped _ _)

theorem State.deliverActivation_imageKept (b : Nat) : s.ImageKept (s.deliverActivation b) := by
  unfold State.deliverActivation
  dsimp only
  split
  · exact .after (State.startFade_imageKept _ b) rfl
  · exact State.imageKept_of_view rfl
  · exact .rfl

theorem State.takeCue_imageKept (b r : Nat) (fade : Option Nat) (rel : Bool) :
    s.ImageKept (s.takeCue b r fade rel).1 := by
  unfold State.takeCue
  split
  case h_1 | h_2 => exact s.cueFade_imageKept b fade rel
  case h_6 =>
    split
    · exact .rfl
    · exact State.imageKept_of_view rfl
  case h_5 => exact State.imageKept_of_view (by simp [State.imageView])
  all_goals exact State.imageKept_of_view rfl

theorem State.takeRelease_imageKept (b : Nat) : s.ImageKept (s.takeRelease b).1 := by
  unfold State.takeRelease
  split <;> exact State.imageKept_of_view (by simp [State.imageView])

end blocks

end Sys2Proof.Machine
end

section
/-! The laws of the channel image and of the urgent queue, command by command, and over a step. -/

namespace Sys2Proof.Machine

open Sys2Proof

/-! ### The start of a slot (R10, R11, R36) -/

/-- R32: a start takes at most one node off the queue. -/
theorem slotStart_distinct (n : Nat) (hold : Option Bool) {s : State} (h : DistinctNodes s.seg.urgent) :
    DistinctNodes (Machine.startSlot n hold s).seg.urgent := by
  induction n generalizing s with
  | zero => exact h
  | succ n ih =>
    unfold startSlot
    dsimp only
    split
    case h_1 => exact h
    case h_2 | h_3 => exact h.sublist List.filter_sublist
    case h_4 | h_5 => exact ih (s := s.advanceSlot) h

theorem State.endSlot_distinct {s : State} (h : DistinctNodes s.seg.urgent) (receiving : Bool) :
    DistinctNodes (s.endSlot receiving).seg.urgent :=
  slotStart_distinct 129 (holdIf receiving) (s := s.advanceSlot.settle) h

/-- R36: the nodes that join again join a queue that the start found as it was before them. -/
theorem State.endSlotBefore_distinct {s : State} (h : DistinctNodes s.seg.urgent) (receiving : Bool) (late : Nat) :
    DistinctNodes (s.endSlotBefore receiving late).seg.urgent := by
  cases hf : mayFallBefore late s.seg.log
  · rw [State.endSlotBefore_behind hf]
    exact State.endSlot_distinct h receiving
  · rw [State.endSlotBefore_amid hf]
    refine DistinctNodes.offered ?_ (s.seg.log.drop (s.seg.log.length - late))
    exact State.endSlot_distinct (s := s.backTo _) (h.sublist (List.take_sublist _ _)) receiving

section commands
variable (s : State)

theorem State.startSlot_imageKept (hold : Option Bool) : s.ImageKept (s.startSlot hold) :=
  State.imageKept_of_queue (by simp) fun h => slotStart_distinct 129 hold (s := s.settle) h

theorem State.endSlotAmid_imageKept (receiving : Bool) : s.ImageKept (s.endSlotAmid receiving) := by
  refine State.imageKept_of_queue (by simp) fun h => ?_
  unfold State.endSlotAmid
  split
  · exact State.endSlotBefore_distinct (s := s.countDraw) h receiving _
  · exact State.endSlot_distinct h receiving

/-! ### The events of the field segment (R5, R7 to R11, R34, R35) -/

theorem State.updateNode_imageKept (a : Nat) (f : NodeRun → NodeRun) : s.ImageKept (s.updateNode a f) := by
  unfold State.updateNode
  split <;> exact State.imageKept_of_view rfl

theorem State.moveNode_imageKept (a : Nat) (f : NodeRun → NodeRun) : s.ImageKept (s.moveNode a f) :=
  (s.updateNode_imageKept a f).trans (State.raiseIf_imageKept _ _ _)

theorem State.missNode_imageKept (n : Nat) : s.ImageKept (s.missNode n) := by
  unfold State.missNode
  split
  · exact s.moveNode_imageKept ..
  · exact .rfl

theorem State.releaseHold_imageKept (stale : Bool) : s.ImageKept (s.releaseHold stale) := by
  unfold State.releaseHold
  split
  · exact .ite (State.imageKept_of_view rfl) .rfl
  all_goals exact .rfl

theorem State.frameDiscarded_imageKept : s.ImageKept s.frameDiscarded :=
  .after (State.releaseHold_imageKept _ _) rfl

theorem State.pollSent_imageKept : s.ImageKept s.pollSent := by
  unfold State.pollSent
  refine .ite ?_ .rfl
  split <;> exact State.imageKept_of_view rfl

theorem State.goodReport_imageKept (address : Byte) (items : List Item) : s.ImageKept (s.goodReport address items) := by
  have moved : s.ImageKept (((s.setReplyTimer none).endSlotAmid false).moveNode address.toNat NodeRun.reported) :=
    .after ((State.endSlotAmid_imageKept _ _).trans (State.moveNode_imageKept _ _ _)) rfl
  exact .ite (.ite ((moved.trans (State.takeItems_imageKept _ _ items)).relinked _) s.frameDiscarded_imageKept) .rfl

theorem State.replyTimeout_imageKept (receiving : Bool) : s.ImageKept (s.replyTimeout receiving) := by
  unfold State.replyTimeout
  refine .ite ?_ .rfl
  split
  case h_1 => exact .after ((State.missNode_imageKept _ _).trans (State.endSlotAmid_imageKept _ _)) rfl
  all_goals exact .rfl

theorem State.setSent_imageKept (receiving : Bool) : s.ImageKept (s.setSent receiving) := by
  unfold State.setSent
  refine .ite ?_ .rfl
  split
  case h_1 => exact (s.updateNode_imageKept _ _).trans (State.endSlotAmid_imageKept _ _)
  all_goals exact .rfl

theorem State.offerUrgent_imageKept (a : Nat) (r : JoinReason) : s.ImageKept (s.offerUrgent a r) :=
  State.imageKept_of_queue rfl fun h => h.offer a r

theorem State.refreshExpiry_imageKept (a : Nat) : s.ImageKept (s.refreshExpiry a) := by
  unfold State.refreshExpiry
  refine .ite ?_ .rfl
  split
  · refine .ite .rfl ((s.updateNode_imageKept _ _).trans (.ite .rfl ?_))
    exact (State.offerUrgent_imageKept _ _ _).trans (State.imageKept_of_view rfl)
  · exact .rfl

theorem State.refreshLapse_imageKept (a : Nat) : s.ImageKept (s.refreshLapse a) := by
  unfold State.refreshLapse
  refine .ite ?_ .rfl
  split
  · exact .ite .rfl ((s.updateNode_imageKept _ _).trans (State.imageKept_of_view rfl))
  · exact .rfl

/-! ### Stageable requests and the bracket (R144 to R152) -/

theorem State.abortBracket_imageKept (c : AbortCode) (o : Option Nat) (r : Option ResultCode) :
    s.ImageKept (s.abortBracket c o r) := State.imageKept_of_view (by simp [State.imageView])

theorem State.countedAbort_imageKept (c : AbortCode) (o : Option Nat) (r : Option ResultCode) :
    s.ImageKept (s.countOrdinal.abortBracket c o r) := .after (State.abortBracket_imageKept _ c o r) rfl

theorem State.takeItem_imageKept (r : StagedReq) : s.ImageKept (s.takeItem r).1 := by
  cases r with
  | setChannel ch v => exact s.writeDemand_imageKept ch v
  | setZone z o a b => exact s.applyZone_imageKept z o a b
  | cue b r fade rel => exact s.takeCue_imageKept b r fade rel
  | releaseBank b => exact s.takeRelease_imageKept b

theorem State.commit_imageKept (ordinal : Nat) : s.ImageKept (s.commit ordinal).1 := by
  unfold State.commit
  split
  · have applied := foldl_imageKept (f := fun s i => (State.takeItem s i.request).1)
      (fun s i => s.takeItem_imageKept i.request) s.bracket.stage s
    exact (applied.relinked _).trans (State.imageKept_of_view rfl)
  · exact s.abortBracket_imageKept ..

theorem State.stageItem_imageKept (o : Nat) (r : StagedReq) (clamped : Bool) :
    s.ImageKept (s.stageItem o r clamped).1 := by
  unfold State.stageItem
  dsimp only
  split
  · exact s.abortBracket_imageKept ..
  · split
    · split
      · exact .after (State.commit_imageKept _ o) rfl
      · exact State.imageKept_of_view rfl
    all_goals exact State.imageKept_of_view rfl

theorem State.takeStageable_imageKept (c : Checked) : s.ImageKept (s.takeStageable c).1 := by
  unfold State.takeStageable
  dsimp only
  split
  · cases c with
    | refused a => exact .ite (s.countedAbort_imageKept ..) (State.imageKept_of_view rfl)
    | good r clamped => exact .after (State.stageItem_imageKept s.countOrdinal _ r clamped) rfl
  · cases c with
    | refused a => exact .rfl
    | good r clamped =>
      dsimp only
      split
      · exact .rfl
      all_goals exact s.takeItem_imageKept r

theorem State.takeDirect_imageKept (c : Checked) : s.ImageKept (s.takeDirect c).1 := by
  cases c with
  | refused a => exact .rfl
  | good r clamped => exact s.takeItem_imageKept r

theorem State.openBracket_imageKept (kind : BracketKind) (count : Nat) (strict notify : Bool) :
    s.ImageKept (s.openBracket kind count strict notify).1 := by
  refine State.imageKept_of_view ?_
  unfold State.openBracket State.imageView
  dsimp only
  split <;> (repeat' split) <;> simp

theorem State.closeBracket_imageKept : s.ImageKept s.closeBracket.1 := by
  unfold State.closeBracket
  dsimp only
  split
  · exact .rfl
  · split
    · exact State.imageKept_of_view rfl
    · exact .after (State.commit_imageKept s.countOrdinal _) rfl
  · exact s.countedAbort_imageKept ..
  · exact State.imageKept_of_view rfl

theorem State.abandonBracket_imageKept : s.ImageKept s.abandonBracket.1 := by
  unfold State.abandonBracket
  dsimp only
  split
  · exact .rfl
  · exact s.countedAbort_imageKept ..
  · exact s.countedAbort_imageKept ..
  · exact State.imageKept_of_view rfl

/-! ### The tables (R162) -/

theorem Tables.store_channels {t : Tables} {id : TableId} (h : id ≠ .channels) (i : Nat) (bs : List Byte) :
    (t.store id i bs).channels = t.channels := by
  cases id
  case channels => exact absurd rfl h
  case fogMap | schedule | fogTune => simp only [Tables.store]; split <;> rfl
  all_goals rfl

/-- A write of another table leaves the records of CHANNELS. -/
theorem State.storeRun_imageKept {id : TableId} (h : id ≠ .channels) (first n : Nat) (content : List Byte) :
    s.ImageKept (s.storeRun id first n content) := by
  have hc : (s.tables.storeRun id first n content).channels = s.tables.channels :=
    foldl_keep Tables.channels (fun _ _ => Tables.store_channels h _ _) _ _
  exact State.imageKept_of_view (by simp [State.imageView, State.storeRun, hc])

theorem State.restartDispatch_imageKept (before : DispatchRec) : s.ImageKept (s.restartDispatch before) :=
  .ite (State.imageKept_of_view rfl) .rfl

/-- R162 steps 5 and 7: in RUN a structural table is refused, and no tunable one is CHANNELS. -/
theorem State.writeRunning_imageKept (id : TableId) (first n : Nat) (content : List Byte) :
    s.ImageKept (s.writeRunning id first n content).1 := by
  have stored (id : TableId) (h : id ≠ .channels) := s.storeRun_imageKept h first n content
  cases id
  case thresholds =>
    simp only [State.writeRunning, State.writeThresholds]
    split <;> dsimp only
    · exact .rfl
    · exact (stored .thresholds nofun).trans (State.watchEvent_imageKept _ _)
  case fogTune =>
    simp only [State.writeRunning, State.writeFogTune]
    split <;> dsimp only
    · exact .rfl
    · exact (stored .fogTune nofun).trans (State.fogRetune_imageKept _ _ _ _)
  case dispatch =>
    simp only [State.writeRunning, State.writeDispatch]
    split <;> dsimp only
    · exact .rfl
    · exact (stored .dispatch nofun).trans (State.restartDispatch_imageKept _ _)
  case zoneSet =>
    simp only [State.writeRunning, State.writeZoneSet]
    split <;> dsimp only
    · exact .rfl
    · exact (stored .zoneSet nofun).trans (State.zoneReset_imageKept _ _ _)
  case sinkTune =>
    simp only [State.writeRunning, State.writeSinkTune]
    split
    · exact .rfl
    · exact stored .sinkTune nofun
  case timers =>
    simp only [State.writeRunning, State.writeTimers]
    split
    · exact .rfl
    · exact stored .timers nofun
  case lightProfile =>
    simp only [State.writeRunning, State.writeProfile]
    split
    · exact .rfl
    · split
      · exact .rfl
      · exact stored .lightProfile nofun
  case flagEnables => exact stored .flagEnables nofun
  all_goals exact .rfl

theorem State.writeConfig_urgent (id : TableId) (first n : Nat) (content : List Byte) :
    (s.writeConfig id first n content).1.seg.urgent = s.seg.urgent := by
  cases id
  case fogMap => simp only [State.writeConfig, State.resetWritten]; split <;> rfl
  all_goals rfl

theorem State.writeRow_imageKept (tag : Byte) (bank row : Nat) (content : List Byte) :
    s.ImageKept (s.writeRow tag bank row content).1 := by
  refine State.imageKept_of_view ?_
  unfold State.writeRow
  (repeat' split) <;> rfl

theorem State.writeTable_imageKept (tag table : Byte) (first count : Word16) (content : List Byte) :
    s.ImageKept (s.writeTable tag table first count content).1 := by
  unfold State.writeTable
  split
  · exact .rfl
  · rename_i id _
    split
    · exact .rfl
    · split
      · exact .rfl
      · split
        · split
          · exact s.writeRow_imageKept ..
          · exact .rfl
        · split
          · exact .rfl
          · dsimp only
            split
            · exact s.writeRunning_imageKept ..
            · rename_i outside
              refine State.imageKept_outside ((s.writeConfig_inRun ..).trans (by simpa using outside)) ?_
              rw [State.writeConfig_urgent]
              exact fun h => h

theorem State.readTable_imageKept (tag table : Byte) (first count : Word16) :
    s.ImageKept (s.readTable tag table first count).1 := by
  refine State.imageKept_of_view ?_
  unfold State.readTable State.readRow
  (repeat' split) <;> rfl

/-! ### The operating state (R30, R174, R177, R179) -/

/-- R25: the run fields at the start values stand under guard level NORMAL. -/
theorem ChannelRec.startRun_lawful (r : ChannelRec) :
    (r.mapped = true → r.startRun.commanded = r.commandedFor .normal r.startRun.demand) ∧
      (r.mapped = false → r.startRun = ⟨0, 0⟩) := by
  constructor <;> intro h <;> simp [ChannelRec.startRun, h]

/-- R12, R30, R59: a part whose image, guard level and queue are those of an entry to RUN. -/
theorem State.imageKept_of_entry {s t : State} (hi : t.image = t.tables.channels.map ChannelRec.startRun)
    (hg : t.watch.guard = .normal)
    (hu : t.seg.urgent = t.tables.setAddresses.foldl (fun q a => offerNode q a .start) []) : s.ImageKept t := by
  refine ⟨fun _ _ ch hch => ?_, fun _ => ?_⟩
  · rw [hi, hg, Tab.get_map _ _ _ hch]
    exact ChannelRec.startRun_lawful _
  · rw [State.urgentLaw, hu]
    exact DistinctNodes.offers (q := []) List.nodup_nil _ _

theorem State.enterRun_imageKept (u : State) (receiving : Bool) : s.ImageKept (u.enterRun receiving) := by
  unfold State.enterRun
  dsimp only
  -- `v` is the part before the fog monitor writes
  generalize hv : State.bracketEnterRun _ = v
  have entered : s.ImageKept v := by
    subst hv
    refine State.imageKept_of_entry ?_ ?_ ?_ <;> simp [State.applyStart, State.segEnterRun, State.watchEnterRun]
  exact ((entered.trans v.fogEnterRun_imageKept).trans (State.zonesEnterRun_imageKept _)).trans
    (State.startSlot_imageKept _ _)

theorem State.tryEnterRun_imageKept (receiving : Bool) : s.ImageKept (s.tryEnterRun receiving).1 := by
  unfold State.tryEnterRun
  split
  · exact .rfl
  · split
    · exact .rfl
    · split
      · exact .rfl
      · dsimp only
        exact s.enterRun_imageKept s receiving

theorem State.leaveRun_imageKept : s.ImageKept s.leaveRun := by
  have outside : s.leaveRun.inRun = false := by simp [State.leaveRun, State.inRun]
  have emptied : s.leaveRun.seg.urgent = [] := by simp [State.leaveRun, State.segEnterConfig]
  exact State.imageKept_outside outside (emptied ▸ fun _ => List.nodup_nil)

theorem State.enterConfig_imageKept : s.ImageKept s.enterConfig.1 := .ite s.leaveRun_imageKept .rfl

theorem State.endLoad_imageKept (receiving : Bool) : s.ImageKept (s.endLoad receiving) := by
  unfold State.endLoad
  split
  · exact s.enterRun_imageKept _ receiving
  · exact State.imageKept_outside rfl id

theorem State.imageLoad_imageKept (receiving : Bool) : s.ImageKept (s.imageLoad receiving) :=
  .ite (s.endLoad_imageKept receiving) .rfl

theorem State.trySave_imageKept (tag : Byte) : s.ImageKept (s.trySave tag).1 := by
  refine State.imageKept_of_view ?_
  unfold State.trySave
  (repeat' split) <;> rfl

/-! ### The memory port and the banks (R116, R121, R123, R132, R135, R179) -/

theorem State.activateComplete_imageKept : s.ImageKept s.activateComplete := by
  refine State.imageKept_of_view ?_
  unfold State.activateComplete State.imageView
  (repeat' split) <;> simp

theorem State.rowWriteComplete_imageKept (flaws : List (Nat × Byte)) : s.ImageKept (s.rowWriteComplete flaws) := by
  refine State.imageKept_of_view ?_
  unfold State.rowWriteComplete State.imageView
  (repeat' split) <;> simp

theorem State.rowReadComplete_imageKept : s.ImageKept s.rowReadComplete := by
  refine State.imageKept_of_view ?_
  unfold State.rowReadComplete State.imageView
  (repeat' split) <;> simp

theorem State.imageSaveComplete_imageKept (flaws : List (Nat × Byte)) : s.ImageKept (s.imageSaveComplete flaws) := by
  refine State.imageKept_of_view ?_
  unfold State.imageSaveComplete State.imageView
  (repeat' split) <;> simp [State.saveEnds_op]

theorem State.activationDelivered_imageKept (b : Nat) : s.ImageKept (s.activationDelivered b) :=
  .ite (.after (State.deliverActivation_imageKept _ b) rfl) .rfl

theorem State.settleExpiry_imageKept (b : Nat) : s.ImageKept (s.settleExpiry b) := by
  refine .ite (State.imageKept_of_view ?_) .rfl
  simp [State.imageView]

theorem State.fadeStepExpiry_imageKept (b : Nat) : s.ImageKept (s.fadeStepExpiry b) :=
  .ite (s.fadeStep_imageKept b) .rfl

/-! ### The timers of the control blocks and of the bracket -/

theorem State.watchTimer_imageKept (k : Nat) (act : WatchRec → WatchRun → EntryOutcome) :
    s.ImageKept (s.watchTimer k act) := .ite (s.watchEvent_imageKept _) .rfl

theorem State.deliverResult_imageKept : s.ImageKept s.deliverResult := by
  unfold State.deliverResult
  refine .ite ?_ .rfl
  split
  · exact .after (State.splitGrant_imageKept _ _) rfl
  · exact .rfl

theorem State.silenceEnds_imageKept : s.ImageKept s.silenceEnds :=
  .ite (.after (State.abortBracket_imageKept _ _ _ _) rfl) .rfl

/-! ### Resets and the supply (R175) -/

theorem State.start_imageKept (straps : Straps) (cause : ResetCause) (cut : Nat) :
    s.ImageKept (s.start straps cause cut) :=
  State.imageKept_outside (State.started_inRun ..) fun _ => List.nodup_nil

theorem State.stopped_imageKept (cut : Nat) (p : Power) : s.ImageKept (s.stopped cut p) :=
  State.imageKept_outside rfl fun _ => List.nodup_nil

theorem State.frameSent_imageKept : s.ImageKept s.frameSent :=
  .ite (.ite (s.start_imageKept ..) (State.imageKept_of_view rfl)) .rfl

/-! ### Every command, and a millisecond -/

theorem State.passRequest_imageKept {serve : State → State × Option Answer} (hs : ∀ u : State, u.ImageKept (serve u).1)
    (tag code : Byte) : s.ImageKept (s.passRequest tag code serve) :=
  State.passRequest_keeps (P := s.ImageKept) (fun _ _ hu => hu.trans (State.imageKept_of_view rfl))
    (fun u hu => hu.trans (hs u)) .rfl tag code

theorem State.request_imageKept {serve : State → State × Option Answer} (hs : ∀ u : State, u.ImageKept (serve u).1)
    (tag code : Byte) : s.ImageKept (s.request tag code serve) :=
  State.request_keeps (P := s.ImageKept) (fun _ _ hu => hu.trans (State.imageKept_of_view rfl))
    (fun u hu => hu.trans (hs u)) .rfl tag code

/-- R144: a restricted request that meets an open bracket aborts it. -/
theorem State.restrictedRequest_imageKept {serve : State → State × Option Answer}
    (hs : ∀ u : State, u.ImageKept (serve u).1) (tag code : Byte) :
    s.ImageKept (s.request tag code (restricted serve)) :=
  s.request_imageKept (fun u => restricted_keeps (P := u.ImageKept)
    (fun v _ _ _ hv => hv.trans (v.countedAbort_imageKept ..)) (fun v hv => hv.trans (hs v)) u .rfl) tag code

theorem exec_imageKept (c : Instr) : Holds s.ImageKept (exec c s) := by
  cases c
  case powerOn straps cut => exact holds_next (.ite (s.stopped_imageKept ..) (s.start_imageKept ..))
  case resetPin straps cut => exact holds_next (.ite (s.start_imageKept ..) (State.imageKept_of_view rfl))
  case softReset straps cut => exact holds_next (.ite (s.start_imageKept ..) .rfl)
  case resetPinAsserted cut => exact holds_next (.ite (s.stopped_imageKept ..) (State.imageKept_of_view rfl))
  case powerFails cut => exact holds_next (s.stopped_imageKept ..)
  case imageLoad receiving => exact holds_next (s.imageLoad_imageKept receiving)
  case trunkFrameSent => exact holds_next s.frameSent_imageKept
  case trunkBadFrame => exact holds_next (.ite (State.imageKept_of_view rfl) .rfl)
  case trunkSilenceExpiry => exact holds_next s.silenceEnds_imageKept
  case readInfo tag => exact holds_next (s.passRequest_imageKept (serve := serveInfo) (fun _ => .rfl) _ _)
  case readStatus tag => exact holds_next (s.passRequest_imageKept (serve := serveStatus) (fun _ => .rfl) _ _)
  case malformedRequest tag code =>
    exact holds_next (s.passRequest_imageKept (serve := serveMalformed) (fun _ => .rfl) _ _)
  case readTable tag table first count =>
    exact holds_next (s.request_imageKept (fun u => u.readTable_imageKept ..) _ _)
  case writeTable tag table first count content =>
    exact holds_next (s.restrictedRequest_imageKept (fun u => u.writeTable_imageKept ..) _ _)
  case clearFlags tag mask value =>
    exact holds_next (s.request_imageKept (serve := serveClear mask value) (fun _ => State.imageKept_of_view rfl) _ _)
  case enterRun tag receiving =>
    exact holds_next (s.restrictedRequest_imageKept (fun u => u.tryEnterRun_imageKept receiving) _ _)
  case enterConfig tag => exact holds_next (s.request_imageKept State.enterConfig_imageKept _ _)
  case saveImage tag => exact holds_next (s.restrictedRequest_imageKept (fun u => u.trySave_imageKept tag) _ _)
  case resetPart tag => exact holds_next (s.request_imageKept (serve := serveResetPart) (fun _ => .rfl) _ _)
  case setChannel tag channel value direct =>
    refine holds_next (s.request_imageKept (fun u => ?_) _ _)
    split
    · exact u.takeDirect_imageKept _
    · exact u.takeStageable_imageKept _
  case setZone tag zone o a b => exact holds_next (s.request_imageKept (fun u => u.takeStageable_imageKept _) _ _)
  case cue tag bank row fade rel => exact holds_next (s.request_imageKept (fun u => u.takeStageable_imageKept _) _ _)
  case releaseBank tag bank => exact holds_next (s.request_imageKept (fun u => u.takeStageable_imageKept _) _ _)
  case releaseWatch tag mask =>
    exact holds_next (s.request_imageKept (serve := serveRelease mask) (fun u => u.watchEvent_imageKept _) _ _)
  case openBracket tag kind count strict notify =>
    exact holds_next (s.request_imageKept (fun u => u.openBracket_imageKept ..) _ _)
  case closeBracket tag => exact holds_next (s.request_imageKept State.closeBracket_imageKept _ _)
  case abandonBracket tag => exact holds_next (s.request_imageKept State.abandonBracket_imageKept _ _)
  case bracketTimerExpiry => exact holds_next (.ite (s.abortBracket_imageKept ..) .rfl)
  case pollSent => exact holds_next s.pollSent_imageKept
  case goodReport address items => exact holds_next (s.goodReport_imageKept address items)
  case replyTimeout receiving => exact holds_next (s.replyTimeout_imageKept receiving)
  case fieldBadFrame => exact holds_next (.ite s.frameDiscarded_imageKept .rfl)
  case setSent receiving => exact holds_next (s.setSent_imageKept receiving)
  case ignoredFieldFrameEnd => exact holds_next (.ite (s.releaseHold_imageKept true) .rfl)
  case pointStale p => exact holds_next (.ite ((s.goStale_imageKept p).relinked _) .rfl)
  case refreshExpiry address => exact holds_next (s.refreshExpiry_imageKept address.toNat)
  case refreshLapse address => exact holds_next (s.refreshLapse_imageKept address.toNat)
  case qualifyExpiry k => exact holds_next (s.watchTimer_imageKept k _)
  case releaseExpiry k => exact holds_next (s.watchTimer_imageKept k _)
  case holdExpiry k => exact holds_next (s.watchTimer_imageKept k _)
  case windowExpiry k => exact holds_next (s.watchTimer_imageKept k _)
  case patternStepExpiry i => exact holds_next (.ite (s.fogStep_imageKept i) .rfl)
  case dehumidRunExpiry => exact holds_next (.ite s.runTimerEnds_imageKept .rfl)
  case dehumidRestExpiry => exact holds_next (.ite s.restTimerEnds_imageKept .rfl)
  case dispatchTimerExpiry => exact holds_next (.ite s.dispatchPass_imageKept .rfl)
  case dispatchResultDelivery => exact holds_next s.deliverResult_imageKept
  case activateComplete => exact holds_next s.activateComplete_imageKept
  case rowWriteComplete flaws => exact holds_next (s.rowWriteComplete_imageKept flaws)
  case rowReadComplete => exact holds_next s.rowReadComplete_imageKept
  case imageSaveComplete flaws => exact holds_next (s.imageSaveComplete_imageKept flaws)
  case activationDelivery b => exact holds_next (s.activationDelivered_imageKept b)
  case settleExpiry b => exact holds_next (s.settleExpiry_imageKept b)
  case fadeStepExpiry b => exact holds_next (s.fadeStepExpiry_imageKept b)

theorem State.tick_imageKept : s.ImageKept s.tick := by
  refine .ite (.trans (.ite ?_ .rfl) (State.imageKept_of_view rfl)) .rfl
  exact State.imageKept_of_view rfl

end commands

/-- A command that waits, one that is due, or a millisecond. -/
theorem step_imageKept {s t : State} (h : step s = .next t) : s.ImageKept t := by
  unfold step at h
  split at h
  · rename_i c rest _
    exact .after (exec_imageKept { s with pending := rest } c t h) rfl
  · unfold State.idle at h
    split at h
    · exact exec_imageKept s _ t h
    · cases h
      exact s.tick_imageKept

/-- Settles O30: the limit guard level by guard level, and every step. -/
theorem commandedIsClamped : Obligations.CommandedIsClamped := by
  refine ⟨fun r g demand => ?_, fun s t law h => (step_imageKept h).commanded law⟩
  rw [ChannelRec.commandedFor_eq]
  cases g <;> rfl

/-- Settles O31. -/
theorem urgentQueueHolds : Obligations.UrgentQueueHolds :=
  ⟨fun _ _ r => ⟨fun h => offerNode_queued h r, fun h => offerNode_new h r⟩,
    fun _ _ law h => (step_imageKept h).urgent law⟩

end Sys2Proof.Machine
end

section
/-! An event at the surface watch (R45, R51, R58): its outcome entry by entry, and what it leaves of the rest of the
part. -/

namespace Sys2Proof.Machine

open Sys2Proof

/-! ### The outcome at one entry (R45, R51) -/

/-- R51: the outcome at an entry that counts, behind what the event itself does to it, a trip of the entry before. -/
def WatchRec.countedAfter (r : WatchRec) (direct : EntryOutcome) : EntryOutcome :=
  let c := r.countEdge direct.run
  ⟨c.run, direct.trip || c.trip, direct.latched⟩

/-- R49, R51: the run fields of an entry that counts one edge. -/
def WatchRec.counted (r : WatchRec) (w : WatchRun) : WatchRun :=
  { w with
    count := min 255 (w.count + 1)
    state := if w.state = .idle ∧ r.limit ≤ min 255 (w.count + 1) then .tripped else w.state }

theorem WatchRec.countEdge_run (r : WatchRec) (w : WatchRun) : (r.countEdge w).run = r.counted w := by
  unfold WatchRec.countEdge WatchRec.counted satAdd
  dsimp only
  split <;> rfl

theorem WatchRec.countEdge_trip (r : WatchRec) (w : WatchRun) :
    (r.countEdge w).trip = true ↔ w.state = .idle ∧ (r.counted w).state = .tripped := by
  unfold WatchRec.countEdge WatchRec.counted satAdd
  dsimp only
  split
  · simp_all
  · simp_all [EntryOutcome.quiet]

/-- What an event does to entry `k` by itself. -/
def State.directAt (s : State) (act : Nat → WatchRec → WatchRun → EntryOutcome) (k : Nat) : EntryOutcome :=
  act k (s.tables.watch.get k) (s.watch.runs.get k)

/-- R45, R51: the outcome of an event at entry `k`, in the order of the entries. -/
def State.outcomeAt (s : State) (act : Nat → WatchRec → WatchRun → EntryOutcome) : Nat → EntryOutcome
  | 0 => s.directAt act 0
  | k + 1 =>
    if (s.outcomeAt act k).trip && isSet (s.tables.watch.get k).chain then
      (s.tables.watch.get (k + 1)).countedAfter (s.directAt act (k + 1))
    else s.directAt act (k + 1)

section chain
variable (act : Nat → WatchRec → WatchRun → EntryOutcome)

theorem chainFrom_zero {l : List (WatchRec × WatchRun)} {p : WatchRec × WatchRun} (h : l[0]? = some p) (k : Nat) :
    (chainFrom act k false l)[0]? = some (act k p.1 p.2) := by
  cases l with
  | nil => cases h
  | cons a l =>
    obtain rfl : a = p := by simpa using h
    rfl

theorem chainFrom_succ (l : List (WatchRec × WatchRun)) : ∀ (k : Nat) (count : Bool) (i : Nat) (p q : WatchRec × WatchRun),
    l[i]? = some p → l[i + 1]? = some q → ∃ o, (chainFrom act k count l)[i]? = some o ∧
      (chainFrom act k count l)[i + 1]? =
        some (if o.trip && isSet p.1.chain then q.1.countedAfter (act (k + (i + 1)) q.1 q.2)
          else act (k + (i + 1)) q.1 q.2) := by
  induction l with
  | nil => exact fun _ _ _ _ _ hp => nomatch hp
  | cons a l ih =>
    intro k count i p q hp hq
    rw [List.getElem?_cons_succ] at hq
    cases i with
    | succ i =>
      rw [List.getElem?_cons_succ] at hp
      simp only [chainFrom, List.getElem?_cons_succ]
      rw [show k + (i + 1 + 1) = k + 1 + (i + 1) by omega]
      exact ih (k + 1) _ i p q hp hq
    | zero =>
      obtain rfl : a = p := by simpa using hp
      obtain ⟨b, rest, rfl⟩ : ∃ b rest, l = b :: rest := by
        cases l with
        | nil => cases hq
        | cons b rest => exact ⟨b, rest, rfl⟩
      obtain rfl : b = q := by simpa using hq
      exact ⟨_, rfl, rfl⟩

variable (s : State)

theorem watchZip_getElem? {k : Nat} (hk : k < 32) :
    (s.tables.watch.zip s.watch.runs).list[k]? = some (s.tables.watch.get k, s.watch.runs.get k) := by
  rw [Tab.list_eq_map, List.getElem?_map, List.getElem?_range hk]
  exact congrArg some (Tab.get_zip _ _ _ hk)

theorem watchOutcomes_getElem? : ∀ {k : Nat}, k < 32 →
    (watchOutcomes s.tables s.watch.runs act).list[k]? = some (s.outcomeAt act k)
  | 0, hk => chainFrom_zero act (watchZip_getElem? s hk) 0
  | k + 1, hk => by
    obtain ⟨o, ho, hnext⟩ := chainFrom_succ act _ 0 false k _ _ (watchZip_getElem? s (by omega)) (watchZip_getElem? s hk)
    have before : o = s.outcomeAt act k :=
      Option.some.inj (ho.symm.trans (watchOutcomes_getElem? (k := k) (by omega)))
    rw [watchOutcomes, hnext, Nat.zero_add, before]
    rfl

/-- The run fields of an entry behind the event. -/
theorem State.watchEvent_get {k : Nat} (hk : k < 32) :
    (s.watchEvent act).watch.runs.get k = (s.outcomeAt act k).run := by
  rw [State.watchEvent_watch]
  simp [Tab.get, Tab.map, watchOutcomes_getElem? act s hk]

end chain

/-! ### Chained and unchained entries -/

section outcome
variable {s : State} {act : Nat → WatchRec → WatchRun → EntryOutcome} {k : Nat}

theorem Tables.chained_succ (t : Tables) (k : Nat) : t.chained (k + 1) = isSet (t.watch.get k).chain := by
  simp [Tables.chained]

theorem State.outcomeAt_unchained (h : s.tables.chained k = false) : s.outcomeAt act k = s.directAt act k := by
  cases k with
  | zero => rfl
  | succ k => simp [State.outcomeAt, ← Tables.chained_succ, h]

theorem State.outcomeAt_uncounted (h : (s.outcomeAt act k).trip = false) :
    s.outcomeAt act (k + 1) = s.directAt act (k + 1) := by simp [State.outcomeAt, h]

theorem State.outcomeAt_counted (h : (s.outcomeAt act k).trip = true)
    (hc : isSet (s.tables.watch.get k).chain = true) :
    s.outcomeAt act (k + 1) = (s.tables.watch.get (k + 1)).countedAfter (s.directAt act (k + 1)) := by
  simp [State.outcomeAt, h, hc]

/-- An outcome tells of its entry whether it went into TRIPPED. -/
def EntryOutcome.TellsTrip (w : WatchRun) (o : EntryOutcome) : Prop :=
  o.trip = true ↔ w.state ≠ .tripped ∧ o.run.state = .tripped

theorem EntryOutcome.tellsTrip_quiet (w : WatchRun) : (EntryOutcome.quiet w).TellsTrip w := by
  simp [EntryOutcome.TellsTrip, EntryOutcome.quiet]

/-- A count tells it of the entry, unless the event has just taken it from TRIPPED to IDLE. -/
theorem EntryOutcome.TellsTrip.countedAfter {w : WatchRun} {o : EntryOutcome} (h : o.TellsTrip w)
    (stay : w.state = .tripped → o.run.state ≠ .idle) (r : WatchRec) : (r.countedAfter o).TellsTrip w := by
  have count := r.countEdge_trip o.run
  have hrun : (r.counted o.run).state = .tripped ↔
      o.run.state = .tripped ∨ (o.run.state = .idle ∧ (r.counted o.run).state = .tripped) := by
    unfold WatchRec.counted
    dsimp only
    split <;> simp_all
  unfold EntryOutcome.TellsTrip at h ⊢
  simp only [WatchRec.countedAfter, Bool.or_eq_true, WatchRec.countEdge_run, count, h]
  by_cases hw : w.state = .tripped
  · simp [hw, stay hw]
  · simp only [ne_eq, hw, not_false_eq_true, true_and]
    exact hrun.symm

/-- Each outcome tells of its trip when what the event does by itself does. -/
theorem State.outcomeAt_tellsTrip (direct : ∀ k, (s.directAt act k).TellsTrip (s.watch.runs.get k))
    (stay : ∀ k, (s.outcomeAt act k).trip = true → isSet (s.tables.watch.get k).chain = true →
      (s.watch.runs.get (k + 1)).state = .tripped → (s.directAt act (k + 1)).run.state ≠ .idle) (k : Nat) :
    (s.outcomeAt act k).TellsTrip (s.watch.runs.get k) := by
  cases k with
  | zero => exact direct 0
  | succ k =>
    unfold State.outcomeAt
    split
    · rename_i h
      obtain ⟨ht, hc⟩ := Bool.and_eq_true_iff.1 h
      exact (direct (k + 1)).countedAfter (stay k ht hc) _
    · exact direct (k + 1)

/-- R51: an entry behind one that chains counts its trips, in the same event. -/
theorem State.watchEvent_chained (hk : k + 1 < 32) (hc : isSet (s.tables.watch.get k).chain = true)
    (tells : (s.outcomeAt act k).TellsTrip (s.watch.runs.get k)) :
    let t := s.watchEvent act
    let trips := (s.watch.runs.get k).state ≠ .tripped ∧ (t.watch.runs.get k).state = .tripped
    let w := (s.directAt act (k + 1)).run
    (trips → t.watch.runs.get (k + 1) = (s.tables.watch.get (k + 1)).counted w) ∧
      (¬ trips → t.watch.runs.get (k + 1) = w) := by
  intro t trips w
  have told : (s.outcomeAt act k).trip = true ↔ trips := by
    have h := tells
    rwa [EntryOutcome.TellsTrip, ← State.watchEvent_get act s (by omega)] at h
  rw [State.watchEvent_get act s hk, ← told]
  refine ⟨fun h => ?_, fun h => ?_⟩
  · rw [State.outcomeAt_counted h hc]
    exact WatchRec.countEdge_run ..
  · rw [State.outcomeAt_uncounted (by simpa using h)]

theorem State.watchEvent_unchained (hk : k < 32) (h : s.tables.chained k = false) :
    (s.watchEvent act).watch.runs.get k = (s.directAt act k).run := by
  rw [State.watchEvent_get act s hk, State.outcomeAt_unchained h]

/-- An event that does nothing to the entries up to `k`. -/
theorem State.outcomeAt_quiet (h : ∀ j, j ≤ k → s.directAt act j = .quiet (s.watch.runs.get j)) :
    s.outcomeAt act k = .quiet (s.watch.runs.get k) := by
  induction k with
  | zero => exact h 0 le_rfl
  | succ k ih =>
    have before := ih fun j hj => h j (by omega)
    rw [State.outcomeAt_uncounted (by rw [before]; rfl)]
    exact h (k + 1) le_rfl

theorem State.watchEvent_past (hk : 32 ≤ k) : (s.watchEvent act).watch.runs.get k = s.watch.runs.get k := by
  rw [Tab.get_past _ _ hk, Tab.get_past _ _ hk]

/-! ### The rest of the part (R45, R52, R58) -/

/-- R52: an entry that goes into LATCHED raises WATCH_LATCHED. -/
theorem State.watchEvent_latched (hk : k < 32) (h : (s.outcomeAt act k).latched = true) :
    EventFlag.watchLatched.of (s.watchEvent act).trunk.flags = true := by
  have any : (watchOutcomes s.tables s.watch.runs act).list.any EntryOutcome.latched = true :=
    List.any_eq_true.2 ⟨_, List.mem_of_getElem? (watchOutcomes_getElem? act s hk), h⟩
  unfold State.watchEvent
  dsimp only
  exact (State.setGuard_flagsKept _ _).kept _ (State.raiseIf_sets _ any _)

end outcome

variable {s t : State}

/-- A change of level reaches the image, the queue, the bracket and the trunk interface, and nothing else. -/
theorem State.setGuard_eq (s : State) (g : GuardLevel) : s.setGuard g = { s with
    watch := (s.setGuard g).watch
    image := (s.setGuard g).image
    seg := { s.seg with urgent := (s.setGuard g).seg.urgent, log := (s.setGuard g).seg.log }
    bracket := (s.setGuard g).bracket
    trunk := (s.setGuard g).trunk } := by
  unfold State.setGuard
  dsimp only
  split
  · rfl
  · split
    · unfold State.abortBracket
      dsimp only
      split <;> rfl
    · rfl

/-- R58: a level found again from a part whose surface watch and trunk interface alone have changed. -/
theorem State.setGuard_besideGuard (h : t = { s with watch := t.watch, trunk := t.trunk })
    (hg : t.watch.guard = s.watch.guard) (g : GuardLevel) : s.besideGuard (t.setGuard g) := by
  have guard : (t.setGuard g).watch.guard = g := by rw [State.setGuard_guard]
  refine ⟨(t.setGuard_eq g).trans ?_, fun hsame => ?_⟩
  · rw [h]
  · rw [guard, ← hg] at hsame
    rw [hsame, State.setGuard_same]
    exact h

theorem State.watchEvent_besideGuard (s : State) (act : Nat → WatchRec → WatchRun → EntryOutcome) :
    s.besideGuard (s.watchEvent act) := by
  unfold State.watchEvent
  dsimp only
  refine State.setGuard_besideGuard ?_ ?_ _
  · unfold State.raiseIf
    split <;> rfl
  · simp

/-- The level found at the end is that of the entries. -/
theorem State.watchEvent_guard (s : State) (act : Nat → WatchRec → WatchRun → EntryOutcome) :
    (s.watchEvent act).watch.guard = guardOf s.tables (s.watchEvent act).watch.runs := by
  rw [State.watchEvent_watch]

/-- What the trunk interface does around it is no matter. -/
theorem State.besideGuard.aroundTrunk {a : TrunkUnit} (h : State.besideGuard { s with trunk := a } t) (b : TrunkUnit) :
    s.besideGuard { t with trunk := b } := by
  obtain ⟨rest, same⟩ := h
  refine ⟨?_, fun hg => ?_⟩
  · rw [rest]
  · rw [same hg]

end Sys2Proof.Machine
end

section
/-! The guard level (R57): the highest severity among the TRIPPED and LATCHED entries, and what keeps it so. -/

namespace Sys2Proof.Machine

open Sys2Proof

/-! ### The level of a table (R57) -/

theorem GuardLevel.max_critical_iff (g h : GuardLevel) : g.max h = .critical ↔ g = .critical ∨ h = .critical := by
  cases g <;> cases h <;> decide

theorem GuardLevel.max_normal_iff (g h : GuardLevel) : g.max h = .normal ↔ g = .normal ∧ h = .normal := by
  cases g <;> cases h <;> decide

theorem foldl_level_critical (l : List (WatchRec × WatchRun)) : ∀ g : GuardLevel,
    l.foldl (fun g p => g.max (entryLevel p)) g = .critical ↔ g = .critical ∨ ∃ p ∈ l, entryLevel p = .critical := by
  induction l with
  | nil => simp
  | cons p l ih => simp [ih, GuardLevel.max_critical_iff, or_assoc]

theorem foldl_level_normal (l : List (WatchRec × WatchRun)) : ∀ g : GuardLevel,
    l.foldl (fun g p => g.max (entryLevel p)) g = .normal ↔ g = .normal ∧ ∀ p ∈ l, entryLevel p = .normal := by
  induction l with
  | nil => simp
  | cons p l ih => simp [ih, GuardLevel.max_normal_iff, and_assoc]

/-- R57: an entry that counts for the level: TRIPPED or LATCHED, and of this severity. -/
def alarmed (t : Tables) (runs : Tab WatchRun 32) (v : Severity) (k : Nat) : Prop :=
  (k < 32 ∧ ((runs.get k).state = .tripped ∨ (runs.get k).state = .latched)) ∧ (t.watch.get k).severity = v

theorem entryLevel_critical_iff (p : WatchRec × WatchRun) : entryLevel p = .critical ↔
    (p.2.state = .tripped ∨ p.2.state = .latched) ∧ p.1.severity = .critical := by
  unfold entryLevel
  split
  · rename_i h
    cases p.1.severity <;> simp [h]
  · simp [*]

theorem entryLevel_warm_iff (p : WatchRec × WatchRun) : entryLevel p = .warm ↔
    (p.2.state = .tripped ∨ p.2.state = .latched) ∧ p.1.severity = .warm := by
  unfold entryLevel
  split
  · rename_i h
    cases p.1.severity <;> simp [h]
  · simp [*]

section level
variable (t : Tables) (runs : Tab WatchRun 32)

theorem watchZip_mem (p : WatchRec × WatchRun) : p ∈ (t.watch.zip runs).list ↔
    ∃ k, k < 32 ∧ (t.watch.get k, runs.get k) = p := by
  rw [Tab.list_eq_map, List.mem_map]
  refine exists_congr fun k => ?_
  rw [List.mem_range]
  exact and_congr_right fun hk => by rw [Tab.get_zip _ _ _ hk]

theorem guardOf_critical_iff : guardOf t runs = .critical ↔ ∃ k, alarmed t runs .critical k := by
  simp [guardOf, foldl_level_critical, watchZip_mem, entryLevel_critical_iff, alarmed, and_assoc]

theorem guardOf_normal_iff : guardOf t runs = .normal ↔
    (¬ ∃ k, alarmed t runs .critical k) ∧ ¬ ∃ k, alarmed t runs .warm k := by
  have level (k : Nat) (hk : k < 32) : entryLevel (t.watch.get k, runs.get k) = .normal ↔
      ¬ alarmed t runs .critical k ∧ ¬ alarmed t runs .warm k := by
    have hc := entryLevel_critical_iff (t.watch.get k, runs.get k)
    have hw := entryLevel_warm_iff (t.watch.get k, runs.get k)
    simp only [alarmed, hk, true_and, ← hc, ← hw]
    cases entryLevel (t.watch.get k, runs.get k) <;> simp
  have past {v : Severity} {k : Nat} (h : alarmed t runs v k) : k < 32 := h.1.1
  simp only [guardOf, foldl_level_normal, true_and, watchZip_mem, not_exists]
  constructor
  · intro h
    have h' (k : Nat) (hk : k < 32) := (level k hk).1 (h _ ⟨k, hk, rfl⟩)
    exact ⟨fun k hk => (h' k (past hk)).1 hk, fun k hk => (h' k (past hk)).2 hk⟩
  · rintro ⟨hc, hw⟩ _ ⟨k, hk, rfl⟩
    exact (level k hk).2 ⟨hc k, hw k⟩

/-- The level reads of the run fields the states alone. -/
theorem guardOf_map {f : WatchRun → WatchRun} (h : ∀ w, (f w).state = w.state) :
    guardOf t (runs.map f) = guardOf t runs := by
  have level (p : WatchRec × WatchRun) : entryLevel (Prod.map id f p) = entryLevel p := by simp [entryLevel, h]
  have hz : (t.watch.zip (runs.map f)).list = (t.watch.zip runs).list.map (Prod.map id f) := List.zip_map_right ..
  simp only [guardOf, hz, List.foldl_map, level]

end level

/-- The level reads of the tables the records of WATCH alone. -/
theorem guardOf_congr {t u : Tables} (h : t.watch = u.watch) (runs : Tab WatchRun 32) :
    guardOf t runs = guardOf u runs := by simp only [guardOf, h]

/-! ### The law, from one part to another -/

/-- What the law reads of the part. -/
def State.watchView (s : State) : OpState × Tab WatchRec 32 × WatchUnit := (s.loader.op, s.tables.watch, s.watch)

/-- The level that stands is the one the entries make. -/
def State.guardFollows (s : State) : Prop := s.watch.guard = guardOf s.tables s.watch.runs

variable {s t : State}

theorem State.guardFollows_of_watch (h : t.guardFollows) (ht : s.tables = t.tables) (hw : s.watch = t.watch) :
    s.guardFollows := by
  unfold State.guardFollows
  rw [ht, hw]
  exact h

theorem State.guardLaw_of_view (h : s.guardLaw) (hv : t.watchView = s.watchView) : t.guardLaw := by
  simp only [State.watchView, Prod.mk.injEq] at hv
  obtain ⟨hop, hrec, hwatch⟩ := hv
  simpa only [State.guardLaw, State.inRun, hop, hwatch, guardOf_congr hrec] using h

theorem State.guardLaw_running (hr : t.inRun = true) (h : t.guardFollows) : t.guardLaw :=
  ⟨h, fun ho => absurd (ho.symm.trans hr) nofun⟩

/-- R43, R59: the surface watch at rest, as a reset, the entry to RUN and the way out leave it. -/
def State.watchAtRest (t : State) : Prop := t.watch.guard = .normal ∧ ∀ w ∈ t.watch.runs.list, w.state = .idle

theorem State.watchAtRest.guardLaw (h : t.watchAtRest) : t.guardLaw :=
  ⟨h.1.trans (guardOf_idle h.2).symm, fun _ => h⟩

theorem State.watchAtRest.of_watch (h : s.watchAtRest) (hw : t.watch = s.watch) : t.watchAtRest := by
  rw [State.watchAtRest, hw]
  exact h

theorem State.guardLaw.atRest (h : s.guardLaw) (hr : s.inRun = false) : s.watchAtRest := h.2 hr

theorem State.guardLaw_trunk (s : State) (t : TrunkUnit) (h : s.guardLaw) : State.guardLaw { s with trunk := t } := h

theorem Tables.watchRests_idle (t : Tables) (windows : Bool) : ∀ w ∈ (t.watchRests windows).list, w.state = .idle := by
  intro w hw
  obtain ⟨k, hk, rfl⟩ := (Tab.mem_list ..).1 hw
  rw [Tables.watchRests, Tab.get_mapIdx _ _ _ hk]
  rfl

/-- R43: entries at rest under level NORMAL. -/
theorem State.atRest_of_rests {tables : Tables} {windows : Bool} (h : t.watch = ⟨tables.watchRests windows, .normal⟩) :
    t.watchAtRest := by
  rw [State.watchAtRest, h]
  exact ⟨rfl, tables.watchRests_idle windows⟩

theorem State.started_atRest (pending : List Instr) (memory : SerialMemory) (straps : Straps) (cause : ResetCause) :
    (State.started pending memory straps cause).watchAtRest := ⟨rfl, WatchUnit.initial_idle⟩

theorem State.enterRun_atRest (s : State) (receiving : Bool) : (s.enterRun receiving).watchAtRest := by
  refine State.atRest_of_rests (tables := s.tables) (windows := true) ?_
  simp [State.enterRun, State.applyStart, State.segEnterRun]

theorem State.leaveRun_atRest (s : State) : s.leaveRun.watchAtRest := by
  refine State.atRest_of_rests (tables := s.tables) (windows := false) ?_
  simp [State.leaveRun, State.watchEnterConfig]

/-! ### Events of the surface watch -/

/-- Each event ends in the level that its entries make. -/
theorem State.watchEvent_follows (s : State) (act : Nat → WatchRec → WatchRun → EntryOutcome) :
    (s.watchEvent act).guardFollows := by
  rw [State.guardFollows, State.watchEvent_watch]
  exact guardOf_congr (by simp) _

theorem State.valueUpdate_follows (s : State) (p : Nat) (v : Int) : (s.valueUpdate p v).guardFollows :=
  State.guardFollows_of_watch (t := s.watchValue p v) (s.watchEvent_follows _) (by simp [State.valueUpdate])
    (by simp [State.valueUpdate])

theorem State.lossOfUse_follows (s : State) (p : Nat) : (s.lossOfUse p).guardFollows :=
  State.guardFollows_of_watch (t := s.watchLoss p) (s.watchEvent_follows _) (by simp) (by simp)

theorem State.okItem_follows (s : State) (p : Nat) (v : Int) : (s.okItem p v).guardFollows :=
  State.valueUpdate_follows _ p _

section points
variable (h : s.guardFollows)
include h

theorem State.faultItem_follows (p : Nat) : (s.faultItem p).guardFollows := by
  unfold State.faultItem
  dsimp only
  split
  · exact State.lossOfUse_follows _ p
  · exact h

theorem State.applyItem_follows (n : Nat) (item : Item) : (s.applyItem n item).guardFollows := by
  unfold State.applyItem
  split
  · split
    · exact s.okItem_follows ..
    · exact State.faultItem_follows h _
  · exact h

theorem State.sendUplink_follows (points : List Nat) : (s.sendUplink points).guardFollows :=
  State.guardFollows_of_watch h (by simp) (by simp)

theorem State.takeItems_follows (n : Nat) (items : List Item) : (s.takeItems n items).guardFollows := by
  unfold State.takeItems
  refine State.sendUplink_follows ?_ _
  induction items generalizing s with
  | nil => exact h
  | cons item items ih => exact ih (State.applyItem_follows h n item)

theorem State.goStale_follows (p : Nat) : (s.goStale p).guardFollows := by
  have lost (t : State) (ht : t.guardFollows) (c : Bool) : (if c then t.lossOfUse p else t).guardFollows := by
    cases c
    · exact ht
    · exact t.lossOfUse_follows p
  have stale (r : PointRun) := lost (s.setPoint p r) h (s.points.runs.get p).quality.usable
  unfold State.goStale
  dsimp only
  split
  · split
    · exact State.sendUplink_follows (stale _) _
    · exact stale _
  · exact h

end points

/-- R53: with every entry IDLE there is nothing to release. -/
theorem State.watchRelease_atRest (h : s.watchAtRest) (mask : BitVec 32) : (s.watchRelease mask).watchAtRest := by
  have idle {k : Nat} (hk : k < 32) : (s.watch.runs.get k).state = .idle := h.2 _ ((Tab.mem_list ..).2 ⟨k, hk, rfl⟩)
  have stays : ∀ w ∈ (s.watchRelease mask).watch.runs.list, w.state = .idle := by
    intro w hw
    obtain ⟨k, hk, rfl⟩ := (Tab.mem_list ..).1 hw
    rw [State.watchRelease, State.watchEvent_get _ s hk, State.outcomeAt_quiet]
    · exact idle hk
    · intro j hj
      simp [State.directAt, WatchRec.releaseLatch, idle (Nat.lt_of_le_of_lt hj hk)]
  exact ⟨(s.watchEvent_follows _).trans (guardOf_idle stays), stays⟩

end Sys2Proof.Machine
end

section
/-! The guard level command by command, and over a step. -/

namespace Sys2Proof.Machine

open Sys2Proof

section views
variable (s : State)

@[simp] theorem foldl_watchView {β : Type} {f : State → β → State} (h : ∀ a b, (f a b).watchView = a.watchView)
    (l : List β) (a : State) : (l.foldl f a).watchView = a.watchView := foldl_keep State.watchView h l a

@[simp] theorem State.abortBracket_watchView (c : AbortCode) (o : Option Nat) (r : Option ResultCode) :
    (s.abortBracket c o r).watchView = s.watchView := by simp [State.watchView]

/-! ### The tables (R162) -/

theorem Tables.store_watch {t : Tables} {id : TableId} (h : id ≠ .watch) (i : Nat) (bs : List Byte) :
    (t.store id i bs).watch = t.watch := by
  cases id
  case watch => exact absurd rfl h
  case fogMap | schedule | fogTune => simp only [Tables.store]; split <;> rfl
  all_goals rfl

/-- A write of another table leaves the records of WATCH. -/
@[simp] theorem State.storeRun_watchView {id : TableId} (h : id ≠ .watch) (first n : Nat) (content : List Byte) :
    (s.storeRun id first n content).watchView = s.watchView := by
  have hw : (s.tables.storeRun id first n content).watch = s.tables.watch :=
    foldl_keep Tables.watch (fun _ _ => Tables.store_watch h _ _) _ _
  simp [State.watchView, State.storeRun, hw]

@[simp] theorem State.fogRetune_watchView (before : Tab FogTuneRec 8) (first n : Nat) :
    (s.fogRetune before first n).watchView = s.watchView := by simp [State.watchView]

@[simp] theorem State.zoneReset_watchView (first n : Nat) : (s.zoneReset first n).watchView = s.watchView := by
  simp [State.watchView]

@[simp] theorem State.restartDispatch_watchView (before : DispatchRec) :
    (s.restartDispatch before).watchView = s.watchView := by
  unfold State.restartDispatch
  split <;> rfl

/-- R162 step 7: of the tunable tables THRESHOLDS alone reaches the surface watch. -/
theorem State.writeRunning_watchView {id : TableId} (h : id ≠ .thresholds) (first n : Nat) (content : List Byte) :
    (s.writeRunning id first n content).1.watchView = s.watchView := by
  cases id
  case thresholds => exact absurd rfl h
  case fogTune | sinkTune | dispatch | zoneSet | timers | flagEnables | lightProfile =>
    simp only [State.writeRunning, State.writeFogTune, State.writeSinkTune, State.writeDispatch,
      State.writeZoneSet, State.writeTimers, State.writeProfile]
    (repeat' split) <;> simp
  all_goals rfl

/-! ### Stageable requests and the bracket (R144 to R152) -/

@[simp] theorem State.takeItem_watchView (r : StagedReq) : (s.takeItem r).1.watchView = s.watchView := by
  unfold State.watchView
  cases r
  case setChannel => simp [State.takeItem]
  case setZone z o a b =>
    unfold State.takeItem State.applyZone
    dsimp only
    split <;> simp [State.storeZone]
  case cue b r fade rel =>
    unfold State.takeItem State.takeCue
    dsimp only
    split <;> (repeat' split) <;> simp
  case releaseBank b =>
    unfold State.takeItem State.takeRelease
    dsimp only
    split <;> simp

@[simp] theorem State.commit_watchView (ordinal : Nat) : (s.commit ordinal).1.watchView = s.watchView := by
  unfold State.commit
  split
  · exact foldl_watchView (fun _ _ => State.takeItem_watchView _ _) _ s
  · exact s.abortBracket_watchView ..

theorem State.stageItem_watchView (o : Nat) (r : StagedReq) (clamped : Bool) :
    (s.stageItem o r clamped).1.watchView = s.watchView := by
  unfold State.stageItem
  dsimp only
  split
  · exact s.abortBracket_watchView ..
  · split
    · split
      · exact State.commit_watchView _ o
      · rfl
    all_goals rfl

theorem State.refuseItem_watchView (o : Nat) (a : Answer) : (s.refuseItem o a).1.watchView = s.watchView := by
  unfold State.refuseItem
  dsimp only
  split
  · exact s.abortBracket_watchView ..
  · rfl

theorem State.takeStageable_watchView (c : Checked) : (s.takeStageable c).1.watchView = s.watchView := by
  unfold State.takeStageable
  dsimp only
  split
  · cases c
    case refused a => exact State.refuseItem_watchView s.countOrdinal ..
    case good r clamped => exact State.stageItem_watchView s.countOrdinal ..
  · cases c
    case refused a => rfl
    case good r clamped =>
      dsimp only
      split
      · rfl
      all_goals exact s.takeItem_watchView r

theorem State.takeDirect_watchView (c : Checked) : (s.takeDirect c).1.watchView = s.watchView := by
  cases c
  · rfl
  · exact s.takeItem_watchView _

theorem State.openBracket_watchView (kind : BracketKind) (count : Nat) (strict notify : Bool) :
    (s.openBracket kind count strict notify).1.watchView = s.watchView := by
  unfold State.openBracket State.watchView
  dsimp only
  split <;> (repeat' split) <;> simp

theorem State.closeBracket_watchView : s.closeBracket.1.watchView = s.watchView := by
  unfold State.closeBracket
  dsimp only
  split
  · rfl
  · split
    · rfl
    · exact State.commit_watchView s.countOrdinal _
  · exact State.abortBracket_watchView s.countOrdinal ..
  · rfl

theorem State.abandonBracket_watchView : s.abandonBracket.1.watchView = s.watchView := by
  unfold State.abandonBracket State.watchView
  dsimp only
  split <;> simp

/-! ### Memory requests -/

theorem State.writeRow_watchView (tag : Byte) (bank row : Nat) (content : List Byte) :
    (s.writeRow tag bank row content).1.watchView = s.watchView := by
  unfold State.writeRow
  (repeat' split) <;> rfl

theorem State.readTable_watchView (tag table : Byte) (first count : Word16) :
    (s.readTable tag table first count).1.watchView = s.watchView := by
  unfold State.readTable State.readRow
  (repeat' split) <;> rfl

theorem State.trySave_watchView (tag : Byte) : (s.trySave tag).1.watchView = s.watchView := by
  unfold State.trySave
  (repeat' split) <;> rfl

end views

/-! ### The requests that change the operating state or the tables (R162, R174, R177) -/

variable {s : State}

theorem State.writeRunning_guardLaw (hr : s.inRun = true) (h : s.guardLaw) (id : TableId) (first n : Nat)
    (content : List Byte) : (s.writeRunning id first n content).1.guardLaw := by
  by_cases hid : id = .thresholds
  · subst hid
    simp only [State.writeRunning, State.writeThresholds]
    split
    · exact h
    · refine State.guardLaw_running ?_ (State.watchEvent_follows (s.storeRun ..) _)
      simpa [State.inRun, State.watchThresholds] using hr
  · exact State.guardLaw_of_view h (s.writeRunning_watchView hid ..)

theorem State.writeConfig_watch {id : TableId} (h : id ≠ .watch) (first n : Nat) (content : List Byte) :
    (s.writeConfig id first n content).1.watch = s.watch := by
  cases id
  case watch => exact absurd rfl h
  case fogMap => simp only [State.writeConfig, State.resetWritten]; split <;> rfl
  all_goals rfl

/-- R43: a write of WATCH in CONFIG puts every entry to rest; another leaves them so. -/
theorem State.writeConfig_atRest (h : s.watchAtRest) (id : TableId) (first n : Nat) (content : List Byte) :
    (s.writeConfig id first n content).1.watchAtRest := by
  by_cases hid : id = .watch
  · subst hid
    exact ⟨h.1, Tables.watchRests_idle _ _⟩
  · exact h.of_watch (s.writeConfig_watch hid ..)

theorem State.writeTable_guardLaw (tag table : Byte) (first count : Word16) (content : List Byte) (s : State)
    (h : s.guardLaw) : (s.writeTable tag table first count content).1.guardLaw := by
  unfold State.writeTable
  split
  · exact h
  · split
    · exact h
    · split
      · exact h
      · split
        · split
          · exact State.guardLaw_of_view h (s.writeRow_watchView ..)
          · exact h
        · split
          · exact h
          · dsimp only
            split
            · exact State.writeRunning_guardLaw ‹_› h ..
            · exact (State.writeConfig_atRest (h.atRest (by simpa using ‹¬s.inRun = true›)) ..).guardLaw

theorem State.tryEnterRun_guardLaw (receiving : Bool) (s : State) (h : s.guardLaw) :
    (s.tryEnterRun receiving).1.guardLaw := by
  unfold State.tryEnterRun
  split
  · exact h
  · split
    · exact h
    · split
      · exact h
      · dsimp only
        exact (s.enterRun_atRest receiving).guardLaw

theorem State.enterConfig_guardLaw (s : State) (h : s.guardLaw) : s.enterConfig.1.guardLaw := by
  unfold State.enterConfig
  dsimp only
  split
  · exact s.leaveRun_atRest.guardLaw
  · exact h

/-- R177: a load that fails leaves the surface watch as it stood in LOADING, at rest. -/
theorem State.endLoad_guardLaw (h : s.watchAtRest) (receiving : Bool) : (s.endLoad receiving).guardLaw := by
  unfold State.endLoad
  split
  · exact (State.enterRun_atRest _ receiving).guardLaw
  · exact (h.of_watch (t := s.loadFails _) rfl).guardLaw

theorem State.imageLoad_guardLaw (h : s.guardLaw) (receiving : Bool) : (s.imageLoad receiving).guardLaw := by
  unfold State.imageLoad
  split
  · rename_i loading
    refine State.endLoad_guardLaw (h.atRest ?_) receiving
    have hop : s.loader.op = .loading := by simpa using (Bool.and_eq_true_iff.1 loading).2
    simp [State.inRun, hop]
  · exact h

theorem State.watchRelease_guardLaw (mask : BitVec 32) (s : State) (h : s.guardLaw) :
    (s.watchRelease mask).guardLaw := by
  cases hr : s.inRun
  · exact (State.watchRelease_atRest (h.atRest hr) mask).guardLaw
  · exact State.guardLaw_running (by simpa [State.inRun] using hr) (s.watchEvent_follows _)

/-! ### The events of RUN that reach the surface watch -/

theorem State.inRun_of_running (h : s.running = true) : s.inRun = true := (Bool.and_eq_true_iff.1 h).2

theorem State.watchTimer_guardLaw (h : s.guardLaw) (k : Nat) (act : WatchRec → WatchRun → EntryOutcome) :
    (s.watchTimer k act).guardLaw := by
  unfold State.watchTimer
  split
  · rename_i hr
    have run := State.inRun_of_running (Bool.and_eq_true_iff.1 hr).1
    exact State.guardLaw_running (by simpa [State.inRun] using run) (s.watchEvent_follows _)
  · exact h

theorem State.goodReport_guardLaw (h : s.guardLaw) (address : Byte) (items : List Item) :
    (s.goodReport address items).guardLaw := by
  unfold State.goodReport
  split
  · rename_i hr
    split
    · refine State.guardLaw_running ?_ (State.takeItems_follows (s := State.moveNode _ _ _) ?_ _ items)
      · simpa [State.inRun, State.reportTaken] using State.inRun_of_running hr
      · exact State.guardFollows_of_watch h.1 (by simp) (by simp)
    · exact State.guardLaw_of_view h (by simp [State.watchView])
  · exact h

theorem State.pointStale_guardLaw (h : s.guardLaw) (p : Nat) : (s.pointStale p).guardLaw := by
  unfold State.pointStale
  split
  · rename_i hr
    refine State.guardLaw_running ?_ (State.goStale_follows h.1 p)
    simpa [State.inRun] using State.inRun_of_running hr
  · exact h

/-! ### Resets and the supply (R175) -/

theorem State.start_guardLaw (s : State) (straps : Straps) (cause : ResetCause) (cut : Nat) :
    (s.start straps cause cut).guardLaw := (State.started_atRest ..).guardLaw

theorem State.stopped_guardLaw (s : State) (cut : Nat) (p : Power) : (s.stopped cut p).guardLaw :=
  State.watchAtRest.guardLaw ⟨rfl, WatchUnit.initial_idle⟩

/-! ### Every command, and a millisecond -/

theorem State.guardLaw_ite {c : Prop} [Decidable c] {t u : State} (ht : t.guardLaw) (hu : u.guardLaw) :
    State.guardLaw (if c then t else u) := by
  split
  · exact ht
  · exact hu

section exec
variable (h : s.guardLaw)
include h

/-- A request whose own rule leaves the surface watch keeps the law. -/
theorem State.request_guardLaw {serve : State → State × Option Answer}
    (hs : ∀ u : State, (serve u).1.watchView = u.watchView) (tag code : Byte) : (s.request tag code serve).guardLaw :=
  State.request_keeps State.guardLaw_trunk (fun u hu => State.guardLaw_of_view hu (hs u)) h tag code

/-- R144: so does a restricted one whose own rule keeps it. -/
theorem State.restrictedRequest_guardLaw {serve : State → State × Option Answer}
    (hs : ∀ u : State, u.guardLaw → (serve u).1.guardLaw) (tag code : Byte) :
    (s.request tag code (restricted serve)).guardLaw :=
  State.request_keeps State.guardLaw_trunk
    (restricted_keeps (fun u _ _ _ hu => State.guardLaw_of_view hu (State.abortBracket_watchView u.countOrdinal ..)) hs)
    h tag code

theorem exec_guardLaw (c : Instr) : Holds State.guardLaw (exec c s) := by
  cases c
  case powerOn straps cut => exact holds_next (State.guardLaw_ite (s.stopped_guardLaw ..) (s.start_guardLaw ..))
  case resetPin straps cut => exact holds_next (State.guardLaw_ite (s.start_guardLaw ..) h)
  case softReset straps cut => exact holds_next (State.guardLaw_ite (s.start_guardLaw ..) h)
  case resetPinAsserted cut => exact holds_next (State.guardLaw_ite (s.stopped_guardLaw ..) h)
  case powerFails cut => exact holds_next (s.stopped_guardLaw ..)
  case trunkFrameSent => exact holds_next (State.guardLaw_ite (State.guardLaw_ite (s.start_guardLaw ..) h) h)
  case imageLoad receiving => exact holds_next (State.imageLoad_guardLaw h receiving)
  case readInfo tag =>
    exact holds_next (State.passRequest_keeps (serve := serveInfo) State.guardLaw_trunk (fun _ hu => hu) h _ _)
  case readStatus tag =>
    exact holds_next (State.passRequest_keeps (serve := serveStatus) State.guardLaw_trunk (fun _ hu => hu) h _ _)
  case malformedRequest tag code =>
    exact holds_next (State.passRequest_keeps State.guardLaw_trunk (fun _ hu => hu) h _ _)
  case readTable tag table first count =>
    exact holds_next (State.request_guardLaw h (fun _ => State.readTable_watchView ..) _ _)
  case writeTable tag table first count content =>
    exact holds_next (State.restrictedRequest_guardLaw h (State.writeTable_guardLaw tag table first count content) _ _)
  case clearFlags tag mask value => exact holds_next (State.request_guardLaw h (fun _ => rfl) _ _)
  case enterRun tag receiving =>
    exact holds_next (State.restrictedRequest_guardLaw h (State.tryEnterRun_guardLaw receiving) _ _)
  case enterConfig tag =>
    exact holds_next (State.request_keeps State.guardLaw_trunk State.enterConfig_guardLaw h _ _)
  case saveImage tag =>
    exact holds_next (State.restrictedRequest_guardLaw h
      (fun _ hu => State.guardLaw_of_view hu (State.trySave_watchView _ tag)) _ _)
  case resetPart tag => exact holds_next (State.request_guardLaw h (fun _ => rfl) _ _)
  case setChannel tag channel value direct =>
    refine holds_next (State.request_guardLaw h (fun u => ?_) _ _)
    split
    · exact u.takeDirect_watchView _
    · exact u.takeStageable_watchView _
  case setZone | cue | releaseBank =>
    exact holds_next (State.request_guardLaw h (fun u => u.takeStageable_watchView _) _ _)
  case releaseWatch tag mask =>
    exact holds_next (State.request_keeps State.guardLaw_trunk (State.watchRelease_guardLaw mask) h _ _)
  case openBracket tag kind count strict notify =>
    exact holds_next (State.request_guardLaw h (fun u => u.openBracket_watchView ..) _ _)
  case closeBracket tag => exact holds_next (State.request_guardLaw h State.closeBracket_watchView _ _)
  case abandonBracket tag => exact holds_next (State.request_guardLaw h State.abandonBracket_watchView _ _)
  case goodReport address items => exact holds_next (State.goodReport_guardLaw h address items)
  case pointStale p => exact holds_next (State.pointStale_guardLaw h p)
  case qualifyExpiry | releaseExpiry | holdExpiry | windowExpiry => exact holds_next (State.watchTimer_guardLaw h _ _)
  -- the events that have no part in the surface watch
  case trunkBadFrame | trunkSilenceExpiry | pollSent | replyTimeout | fieldBadFrame | setSent | ignoredFieldFrameEnd
      | refreshExpiry | refreshLapse | patternStepExpiry | dehumidRunExpiry | dehumidRestExpiry | dispatchTimerExpiry
      | dispatchResultDelivery | activateComplete | rowWriteComplete | rowReadComplete | imageSaveComplete
      | activationDelivery | settleExpiry | fadeStepExpiry | bracketTimerExpiry =>
    refine holds_next (State.guardLaw_of_view h ?_)
    simp only [State.watchView, State.badTrunkFrame, State.silenceEnds, State.pollSent, State.replyTimeout,
      State.fieldBadFrame, State.setSent, State.ignoredFrameEnds, State.refreshExpiry, State.refreshLapse,
      State.patternStep, State.dehumidRunEnds, State.dehumidRestEnds, State.dispatchTimerEnds, State.deliverResult,
      State.activateComplete, State.rowWriteComplete, State.rowReadComplete, State.imageSaveComplete,
      State.activationDelivered, State.settleExpiry, State.fadeStepExpiry, State.bracketTimerEnds]
    (repeat' split) <;> simp [State.saveEnds_op]

end exec

/-- A millisecond moves timers, and no state of an entry. -/
theorem State.tick_guardLaw (h : s.guardLaw) : s.tick.guardLaw := by
  have passed (hr : s.inRun = true) : s.passRun.guardLaw := by
    refine State.guardLaw_running hr (h.1.trans (guardOf_map s.tables s.watch.runs ?_).symm)
    exact fun _ => rfl
  refine State.guardLaw_ite (State.guardLaw_trunk _ _ ?_) h
  split
  · exact passed ‹_›
  · exact h

theorem step_guardLaw : KeptByStep State.guardLaw := by
  intro s t h ht
  unfold step at ht
  split at ht
  · rename_i c rest _
    exact exec_guardLaw (s := { s with pending := rest }) h c t ht
  · unfold State.idle at ht
    split at ht
    · exact exec_guardLaw h _ t ht
    · cases ht
      exact State.tick_guardLaw h

/-- Settles O35: the level of a table, every step, and the parts at rest. -/
theorem guardLevelFollows : Obligations.GuardLevelFollows := by
  refine ⟨fun t runs => ?level, step_guardLaw, fun t ht => ?rest⟩
  case level =>
    intro tripped
    refine ⟨(guardOf_critical_iff t runs).2, fun hc => ⟨fun hw => ?_, fun hw => (guardOf_normal_iff t runs).2 ⟨hc, hw⟩⟩⟩
    have notCritical := mt (guardOf_critical_iff t runs).1 hc
    have notNormal : guardOf t runs ≠ .normal := fun hn => ((guardOf_normal_iff t runs).1 hn).2 hw
    cases hg : guardOf t runs
    · exact absurd hg notNormal
    · rfl
    · exact absurd hg notCritical
  case rest =>
    have resting : t.watchAtRest := by
      obtain ⟨pending, memory, straps, cause, h⟩ | ⟨s, receiving, h⟩ | ⟨s, h⟩ := ht
      · exact h ▸ State.started_atRest pending memory straps cause
      · exact h ▸ s.enterRun_atRest receiving
      · exact h ▸ s.leaveRun_atRest
    obtain ⟨level, idle⟩ := resting
    exact ⟨level, fun k hk => idle _ ((Tab.mem_list ..).2 ⟨k, hk, rfl⟩)⟩

end Sys2Proof.Machine
end

section
/-! A change of the guard level (R58): the re-clamp, the nodes it offers and the bracket it aborts. -/

namespace Sys2Proof.Machine

open Sys2Proof

/-! ### The channels that the re-clamp changes (R28) -/

/-- R28: the channels whose commanded value the re-clamp to `g` changes, ascending. -/
def State.reclampChanges (s : State) (g : GuardLevel) : List Nat :=
  (List.range 512).filter fun ch =>
    (reclampChannel g (s.tables.channels.get ch, s.image.get ch)).commanded != (s.image.get ch).commanded

section changes
variable (s : State) (g : GuardLevel)

theorem State.channelZip_get {ch : Nat} (h : ch ∈ List.range 512) :
    (s.tables.channels.zip s.image).get ch = (s.tables.channels.get ch, s.image.get ch) :=
  Tab.get_zip _ _ _ (List.mem_range.1 h)

theorem State.reclampedNodes_eq : reclampedNodes g (s.tables.channels.zip s.image).list =
    (s.reclampChanges g).map fun ch => (s.tables.channels.get ch).node := by
  rw [reclampedNodes, Tab.list_eq_map, List.map_congr_left fun ch h => s.channelZip_get h, List.filter_map,
    List.map_map]
  rfl

theorem State.reclampedRuns_eq : reclampedRuns g (s.tables.channels.zip s.image) =
    (s.reclampChanges g).map fun ch => (ch, s.image.get ch) := by
  have hz : ∀ ch ∈ List.range 512, (ch, (s.tables.channels.zip s.image).get ch) =
      (ch, s.tables.channels.get ch, s.image.get ch) := fun ch h => by rw [s.channelZip_get h]
  rw [reclampedRuns, Tab.enum_eq_map, List.map_congr_left hz, List.filter_map, List.map_map]
  rfl

/-- R28: what a re-clamp does to the segment master: its offers and its note. -/
theorem State.reclamp_seg : (s.reclamp g).seg = { s.seg with
    urgent := ((s.reclampChanges g).map fun ch => (s.tables.channels.get ch).node).foldl
      (fun q n => offerNode q n .value) s.seg.urgent
    log := s.seg.log ++ [⟨(s.reclampChanges g).map fun ch => (ch, s.image.get ch), s.seg.urgent.length,
      (s.reclampChanges g).map fun ch => (s.tables.channels.get ch).node, .first⟩] } := by
  rw [← s.reclampedNodes_eq, ← s.reclampedRuns_eq]
  rfl

end changes

/-- R28: the demand stays, and the commanded value is computed anew of a mapped heat-bearing channel alone. -/
theorem reclampChannel_eq (g : GuardLevel) (r : ChannelRec) (c : ChannelRun) : reclampChannel g (r, c) =
    ⟨c.demand, if r.mapped = true ∧ isSet r.heatBearing = true then r.commandedFor g c.demand else c.commanded⟩ := by
  cases hm : r.mapped <;> cases hb : isSet r.heatBearing <;> simp [reclampChannel, hm, hb]

/-- R31: behind a series of offers every node offered stands in the queue. -/
theorem mem_offers {l : List Nat} {n : Nat} (h : n ∈ l) (r : JoinReason) : ∀ q : List UrgentEntry,
    ∃ e ∈ l.foldl (fun q n => offerNode q n r) q, e.address = n := by
  induction l with
  | nil => cases h
  | cons a l ih =>
    intro q
    obtain rfl | h := List.mem_cons.1 h
    · obtain ⟨joined, hq, -⟩ := offers_extend (offerNode q n r) l r
      have first : ∃ e ∈ offerNode q n r, e.address = n := by
        by_cases hn : ∃ e ∈ q, e.address = n
        · rwa [offerNode_queued hn]
        · rw [offerNode_new fun e he ha => hn ⟨e, he, ha⟩]
          exact ⟨⟨n, r⟩, by simp, rfl⟩
      obtain ⟨e, he, ha⟩ := first
      exact ⟨e, by rw [List.foldl_cons, hq]; exact List.mem_append_left _ he, ha⟩
    · exact ih h (offerNode q a r)

/-! ### The change delivered (R58, R154) -/

/-- R58: the part with the new level stored and raised, and the image clamped under it. -/
def State.levelStored (s : State) (g : GuardLevel) : State :=
  (State.raise { s with watch := { s.watch with guard := g } } .guardChanged).reclamp g

section changed
variable {s : State} {g : GuardLevel} (h : g ≠ s.watch.guard)
include h

theorem State.setGuard_changed : s.setGuard g =
    if g = .critical then (s.levelStored g).abortBracket .guard none none else s.levelStored g := if_neg h

theorem State.setGuard_seg : (s.setGuard g).seg = (s.reclamp g).seg := by
  rw [State.setGuard_changed h]
  split
  · simp only [State.abortBracket_frame]
    rfl
  · rfl

theorem State.setGuard_image_get {ch : Nat} (hch : ch < 512) :
    (s.setGuard g).image.get ch = reclampChannel g (s.tables.channels.get ch, s.image.get ch) := by
  have image : (s.setGuard g).image = (s.reclamp g).image := by
    rw [State.setGuard_changed h]
    split
    · simp only [State.abortBracket_frame]
      rfl
    · rfl
  rw [image, State.reclamp_image_get _ _ hch]

theorem State.setGuard_changes : ((List.range 512).filter fun ch =>
    ((s.setGuard g).image.get ch).commanded != (s.image.get ch).commanded) = s.reclampChanges g :=
  List.filter_congr fun ch hch => by rw [State.setGuard_image_get h (List.mem_range.1 hch)]

theorem State.setGuard_queues {ch : Nat} (hc : ch ∈ s.reclampChanges g) :
    ∃ e ∈ (s.setGuard g).seg.urgent, e.address = (s.tables.channels.get ch).node := by
  have offered := mem_offers (List.mem_map_of_mem (f := fun ch => (s.tables.channels.get ch).node) hc) .value
    s.seg.urgent
  simpa only [State.setGuard_seg h, s.reclamp_seg] using offered

theorem State.setGuard_flag : EventFlag.guardChanged.of (s.setGuard g).trunk.flags = true := by
  have raised : EventFlag.guardChanged.of (s.levelStored g).trunk.flags = true := TrunkUnit.raise_sets ..
  rw [State.setGuard_changed h]
  split
  · exact (State.abortBracket_flagsKept (s.levelStored g) ..).kept _ raised
  · exact raised

/-- R154: the bracket stays but for an open one at CRITICAL. -/
theorem State.setGuard_bracket (hb : g ≠ .critical ∨ s.bracket.state.isOpen = false) :
    (s.setGuard g).bracket = s.bracket := by
  rw [State.setGuard_changed h]
  split
  · rw [State.abortBracket_closed (s := s.levelStored g) (hb.resolve_left (absurd ‹_›))]
    rfl
  · rfl

end changed

theorem State.setGuard_aborts {s : State} (h : .critical ≠ s.watch.guard) (hb : s.bracket.state.isOpen = true) :
    (s.setGuard .critical).bracket.state = .aborted s.bracket.state.depth ∧
      (s.setGuard .critical).bracket.stage = [] ∧
      (s.setGuard .critical).bracket.record = some (s.bracket.abortRecord .critical .guard none none) := by
  have opened : (s.levelStored .critical).bracket.state.isOpen = true := hb
  rw [State.setGuard_changed h, if_pos rfl, State.abortBracket, if_pos opened]
  exact ⟨rfl, rfl, rfl⟩

/-- Settles O36. -/
theorem guardChangeDelivered : Obligations.GuardChangeDelivered := by
  intro s g h t
  refine ⟨s.setGuard_guard g, State.setGuard_flag h, fun ch hch => ?image, ?joined, ?offers, fun ch hch hc => ?queued,
    State.setGuard_bracket h, fun hg hb => ?aborted, State.setGuard_besideGuard rfl rfl g⟩
  case image =>
    rw [State.setGuard_image_get h hch, reclampChannel_eq]
    exact ⟨rfl, rfl⟩
  case joined =>
    obtain ⟨joined, hq, reasons⟩ := offers_extend s.seg.urgent
      ((s.reclampChanges g).map fun ch => (s.tables.channels.get ch).node) .value
    refine ⟨joined, ?_, reasons⟩
    rw [State.setGuard_seg h, s.reclamp_seg, hq]
  case offers =>
    rw [State.setGuard_changes h, State.setGuard_seg h, s.reclamp_seg]
    refine ⟨?_, rfl⟩
    simp only [offerNode_value]
  case queued =>
    refine State.setGuard_queues h ?_
    rw [← State.setGuard_changes h]
    exact List.mem_filter.2 ⟨List.mem_range.2 hch, by simpa using hc⟩
  case aborted =>
    subst hg
    exact State.setGuard_aborts h hb

end Sys2Proof.Machine
end

section
/-! RELEASE_WATCH (R53): the entries that leave LATCHED, those that trip anew, and the mask of the reply. -/

namespace Sys2Proof.Machine

open Sys2Proof

/-! ### Replies stay behind an event of the surface watch -/

theorem TrunkUnit.raiseAborted_replies (t : TrunkUnit) (notify : Bool) (e : Word16) (r : Option AbortRecord) :
    (t.raiseAborted notify e r).replies = t.replies := by
  unfold TrunkUnit.raiseAborted
  split <;> simp

section replies
variable (s : State)

@[simp] theorem State.abortBracket_replies (c : AbortCode) (o : Option Nat) (r : Option ResultCode) :
    (s.abortBracket c o r).trunk.replies = s.trunk.replies := by
  unfold State.abortBracket
  split
  · exact TrunkUnit.raiseAborted_replies ..
  · rfl

@[simp] theorem State.raiseIf_replies (c : Bool) (f : EventFlag) :
    (s.raiseIf c f).trunk.replies = s.trunk.replies := by
  unfold State.raiseIf
  split <;> simp

@[simp] theorem State.setGuard_replies (g : GuardLevel) : (s.setGuard g).trunk.replies = s.trunk.replies := by
  unfold State.setGuard
  dsimp only
  split
  · rfl
  · split <;> simp

theorem State.watchEvent_replies (act : Nat → WatchRec → WatchRun → EntryOutcome) :
    (s.watchEvent act).trunk.replies = s.trunk.replies := by simp [State.watchEvent]

end replies

/-! ### The mask of the reply -/

theorem foldl_setBit_getLsbD (p : Nat → Bool) {k : Nat} (hk : k < 32) (l : List Nat) : ∀ m : BitVec 32,
    (l.foldl (fun m i => if p i then m ||| (1#32 <<< i) else m) m).getLsbD k =
      (m.getLsbD k || (decide (k ∈ l) && p k)) := by
  induction l with
  | nil => simp
  | cons i l ih =>
    intro m
    have bit : (1#32 <<< i).getLsbD k = decide (k = i) := by
      rw [Bool.eq_iff_iff]
      simp [hk]
      omega
    rw [List.foldl_cons, ih]
    by_cases hki : k = i
    · subst hki
      cases hp : p k <;> simp [bit]
    · cases hp : p i <;> simp [bit, hki]

/-- R53: the reply names the masked entries that were LATCHED. -/
theorem releasedMask_getLsbD (runs : Tab WatchRun 32) (mask : BitVec 32) {k : Nat} (hk : k < 32) :
    (releasedMask runs mask).getLsbD k = (mask.getLsbD k && (runs.get k).state == .latched) := by
  rw [releasedMask, Tab.enum_eq_map, List.foldl_map]
  have bits := foldl_setBit_getLsbD (fun i => mask.getLsbD i && (runs.get i).state == .latched) hk (List.range 32) 0#32
  simpa [hk] using bits

/-! ### The entries (R53) -/

/-- R53: what RELEASE_WATCH does to the entry by itself. -/
def releaseAct (t : Tables) (mask : BitVec 32) (k : Nat) (r : WatchRec) (w : WatchRun) : EntryOutcome :=
  if mask.getLsbD k then r.releaseLatch (t.chained k) w else .quiet w

theorem State.watchRelease_eq (s : State) (mask : BitVec 32) :
    s.watchRelease mask = s.watchEvent (releaseAct s.tables mask) := rfl

/-- R53: the run fields of entry `k` when the mask has released it. -/
def State.releasedRun (s : State) (mask : BitVec 32) (k : Nat) : WatchRun :=
  let w := s.watch.runs.get k
  let trips := s.tables.chained k = false ∧ (s.tables.watch.get k).stale = .trip ∧ w.lost = true
  if mask.getLsbD k = true ∧ w.state = .latched then
    { w with
      state := if trips then .tripped else .idle
      cond := if trips then true else false
      count := 0 }
  else w

variable (s : State) (mask : BitVec 32) (k : Nat)

theorem State.releaseAct_run : (s.directAt (releaseAct s.tables mask) k).run = s.releasedRun mask k := by
  unfold State.directAt releaseAct State.releasedRun WatchRec.releaseLatch
  dsimp only
  cases mask.getLsbD k
  · simp [EntryOutcome.quiet]
  · by_cases hl : (s.watch.runs.get k).state = .latched
    · simp only [hl, if_true, and_self, Bool.not_eq_true']
      split
      · rfl
      · rfl
    · simp [hl, EntryOutcome.quiet]

theorem State.releaseAct_tellsTrip :
    (s.directAt (releaseAct s.tables mask) k).TellsTrip (s.watch.runs.get k) := by
  unfold State.directAt releaseAct WatchRec.releaseLatch
  split
  · split
    · rename_i hl
      split <;> simp [EntryOutcome.TellsTrip, EntryOutcome.quiet, hl]
    · exact EntryOutcome.tellsTrip_quiet _
  · exact EntryOutcome.tellsTrip_quiet _

/-- R53: an entry that is TRIPPED is none of RELEASE_WATCH's. -/
theorem State.releasedRun_tripped (h : (s.watch.runs.get k).state = .tripped) :
    s.releasedRun mask k = s.watch.runs.get k := by simp [State.releasedRun, h]

theorem State.watchRelease_tellsTrip :
    (s.outcomeAt (releaseAct s.tables mask) k).TellsTrip (s.watch.runs.get k) := by
  refine State.outcomeAt_tellsTrip (s.releaseAct_tellsTrip mask) (fun k _ _ ht => ?_) k
  rw [State.releaseAct_run, State.releasedRun_tripped _ _ _ ht, ht]
  exact nofun

/-- Settles O34. -/
theorem watchReleased : Obligations.WatchReleased := by
  intro tag mask s h
  have served : exec (.releaseWatch tag mask) s = .next ((s.goodFrame.watchRelease mask).place tag codeReleaseWatch .done
      (u32 (releasedMask s.watch.runs mask).toNat)) := congrArg Host.Outcome.next (State.request_served h ..)
  refine ⟨_, served, ⟨fun k hk hc => ?unchained, fun k hk hc => ?chained⟩, ?guard, ?rest,
    releasedMask s.watch.runs mask, ?reply, fun k hk => releasedMask_getLsbD _ _ hk⟩
  case unchained =>
    refine (State.watchEvent_unchained (s := s.goodFrame) hk hc).trans ?_
    exact s.goodFrame.releaseAct_run mask k
  case chained =>
    have counted := State.watchEvent_chained (s := s.goodFrame) hk hc (s.goodFrame.watchRelease_tellsTrip mask k)
    rw [s.goodFrame.releaseAct_run mask (k + 1)] at counted
    exact ⟨counted.2, counted.1⟩
  case guard => exact s.goodFrame.watchEvent_guard _
  case rest => exact (s.goodFrame.watchEvent_besideGuard _).aroundTrunk _
  case reply =>
    rw [State.place_trunk, (TrunkUnit.place_frame ..).2.1, State.watchRelease_eq, State.watchEvent_replies]
    rfl

end Sys2Proof.Machine
end

section
/-! The surface watch at the edges of a condition (R44, R46, R48, R49), at a loss of use and when the input is regained
(R54, R55): what happens to one entry. -/

namespace Sys2Proof.Machine

open Sys2Proof

/-! ### What an outcome tells of its entry (R51, R52) -/

/-- An outcome tells of its entry whether it went into TRIPPED, and when it went into LATCHED. -/
structure EntryOutcome.Tells (w : WatchRun) (o : EntryOutcome) : Prop where
  trip : o.TellsTrip w
  latched : o.run.state = .latched → w.state ≠ .latched → o.latched = true

theorem EntryOutcome.Tells.of_state {w w' : WatchRun} {o : EntryOutcome} (h : o.Tells w') (hs : w'.state = w.state) :
    o.Tells w := ⟨by rw [EntryOutcome.TellsTrip, ← hs]; exact h.trip, fun hl hw => h.latched hl (hs ▸ hw)⟩

/-- An outcome that leaves the state tells it by saying nothing. -/
theorem EntryOutcome.tells_quiet {w w' : WatchRun} (h : w'.state = w.state) : (EntryOutcome.quiet w').Tells w :=
  ⟨by simp [EntryOutcome.TellsTrip, EntryOutcome.quiet, h], fun hl hw => absurd (h.symm.trans hl) hw⟩

/-- An entry that goes into a state that is neither TRIPPED nor LATCHED has nothing to tell. -/
theorem EntryOutcome.tells_calm {w w' : WatchRun} (ht : w'.state ≠ .tripped) (hl : w'.state ≠ .latched) :
    (EntryOutcome.quiet w').Tells w :=
  ⟨by simp [EntryOutcome.TellsTrip, EntryOutcome.quiet, ht], fun h => absurd h hl⟩

theorem EntryOutcome.tells_tripped {w w' : WatchRun} (h : w.state ≠ .tripped) (ht : w'.state = .tripped) :
    EntryOutcome.Tells w ⟨w', true, false⟩ :=
  ⟨by simp [EntryOutcome.TellsTrip, h, ht], fun hl => absurd (ht.symm.trans hl) nofun⟩

theorem EntryOutcome.tells_latched {w w' : WatchRun} (hl : w'.state = .latched) :
    EntryOutcome.Tells w ⟨w', false, true⟩ :=
  ⟨by simp [EntryOutcome.TellsTrip, hl], fun _ _ => rfl⟩

section entry
variable (r : WatchRec) (w : WatchRun) (c : Bool)

theorem WatchRec.countEdge_tells : (r.countEdge w).Tells w := by
  unfold WatchRec.countEdge
  dsimp only
  split
  · rename_i h
    exact EntryOutcome.tells_tripped (by simp [h.1]) rfl
  · exact EntryOutcome.tells_quiet rfl

theorem WatchRec.rise_tells : (r.rise w).Tells w := by
  unfold WatchRec.rise
  split
  · split
    · rename_i hs
      split
      · exact EntryOutcome.tells_calm nofun nofun
      · exact EntryOutcome.tells_tripped (by simp [hs]) rfl
    · rename_i hs
      exact EntryOutcome.tells_tripped (by simp [hs]) rfl
    all_goals exact EntryOutcome.tells_quiet rfl
  · split
    · rename_i hs
      exact EntryOutcome.tells_tripped (by simp [hs]) rfl
    all_goals exact EntryOutcome.tells_quiet rfl
  · exact r.countEdge_tells w
  · exact r.countEdge_tells w
  · exact EntryOutcome.tells_quiet rfl

theorem WatchRec.fall_tells : (r.fall w).Tells w := by
  unfold WatchRec.fall
  split
  · split
    · exact EntryOutcome.tells_calm nofun nofun
    · split
      · exact EntryOutcome.tells_latched rfl
      · split <;> exact EntryOutcome.tells_calm nofun nofun
    all_goals exact EntryOutcome.tells_quiet rfl
  all_goals exact EntryOutcome.tells_quiet rfl

theorem WatchRec.takeCond_tells : (r.takeCond w c).Tells w := by
  unfold WatchRec.takeCond
  split
  · exact EntryOutcome.tells_quiet rfl
  · split
    · exact (r.rise_tells { w with cond := true }).of_state rfl
    · exact (r.fall_tells { w with cond := false }).of_state rfl

theorem WatchRec.regain_tells : (r.regain w c).Tells w := by
  unfold WatchRec.regain
  dsimp only
  split
  · exact EntryOutcome.tells_quiet rfl
  · split
    · split
      · exact (r.takeCond_tells { w with lost := false } c).of_state rfl
      all_goals exact EntryOutcome.tells_quiet rfl
    · exact (r.takeCond_tells { w with lost := false } c).of_state rfl

theorem WatchRec.valueUpdate_tells (l : Limits) (v : Int) : (r.valueUpdate l v w).Tells w := by
  unfold WatchRec.valueUpdate
  split
  · exact r.regain_tells w _
  · exact r.takeCond_tells w _

theorem WatchRec.lossOfUse_tells : (r.lossOfUse w).Tells w := by
  unfold WatchRec.lossOfUse
  dsimp only
  split
  · split
    · exact EntryOutcome.tells_quiet rfl
    · exact ⟨by simp [EntryOutcome.TellsTrip], nofun⟩
  · split
    · exact EntryOutcome.tells_quiet rfl
    · split
      · exact EntryOutcome.tells_latched rfl
      · exact EntryOutcome.tells_calm nofun nofun
  all_goals exact EntryOutcome.tells_quiet rfl

/-! ### The edge of a condition (R46, R48, R49) -/

theorem WatchRec.qualifySide_iff : r.qualifySide = true ↔ (r.edge = .enter ∨ r.edge = .both) ∧ 0 < r.qualify := by
  simp [WatchRec.qualifySide]

theorem WatchRec.qualifySide_eq_false_iff :
    r.qualifySide = false ↔ (r.edge ≠ .enter ∧ r.edge ≠ .both) ∨ r.qualify = 0 := by
  simp [WatchRec.qualifySide]
  tauto

theorem WatchRec.releaseSide_iff : r.releaseSide = true ↔ (r.edge = .leave ∨ r.edge = .both) ∧ 0 < r.release := by
  simp [WatchRec.releaseSide]

theorem WatchRec.releaseSide_eq_false_iff :
    r.releaseSide = false ↔ (r.edge ≠ .leave ∧ r.edge ≠ .both) ∨ r.release = 0 := by
  simp [WatchRec.releaseSide]
  tauto

theorem WatchRec.takeCond_same (h : c = w.cond) : (r.takeCond w c).run = w := by
  rw [WatchRec.takeCond, if_pos h]
  rfl

theorem WatchRec.takeCond_rise (h : w.cond = false) : r.takeCond w true = r.rise { w with cond := true } := by
  simp [WatchRec.takeCond, h]

theorem WatchRec.takeCond_fall (h : w.cond = true) : r.takeCond w false = r.fall { w with cond := false } := by
  simp [WatchRec.takeCond, h]

section modes
variable {r w}

theorem WatchRec.rise_delay (h : r.mode = .delay) :
    (w.state = .idle → r.qualifySide = true →
      (r.rise w).run = { w with state := .qualifying, timer := some (1000 * r.qualify) }) ∧
    (w.state = .idle → r.qualifySide = false → (r.rise w).run = { w with state := .tripped }) ∧
    (w.state = .releasing → (r.rise w).run = { w with state := .tripped, timer := none }) ∧
    (w.state = .latched → (r.rise w).run = w) := by
  refine ⟨fun hs hq => ?_, fun hs hq => ?_, fun hs => ?_, fun hs => ?_⟩ <;>
    simp [WatchRec.rise, EntryOutcome.quiet, *]

theorem WatchRec.rise_pulse (h : r.mode = .pulse) :
    (w.state = .idle ∨ w.state = .tripped →
      (r.rise w).run = { w with state := .tripped, timer := some (1000 * r.hold) }) ∧
    (w.state = .latched → (r.rise w).run = w) := by
  refine ⟨?_, fun hs => ?_⟩
  · rintro (hs | hs)
    · simp [WatchRec.rise, h, hs]
    · simp only [WatchRec.rise, h, hs, EntryOutcome.quiet]
  · simp [WatchRec.rise, EntryOutcome.quiet, h, hs]

theorem WatchRec.rise_counting (h : r.mode = .rate ∨ r.mode = .count) : (r.rise w).run = r.counted w := by
  rw [← WatchRec.countEdge_run]
  obtain h | h := h <;> simp [WatchRec.rise, h]

theorem WatchRec.fall_delay (h : r.mode = .delay) :
    (w.state = .qualifying → (r.fall w).run = { w with state := .idle, timer := none }) ∧
    (w.state = .tripped → isSet r.latch = true → (r.fall w).run = { w with state := .latched, timer := none }) ∧
    (w.state = .tripped → isSet r.latch = false → r.releaseSide = true →
      (r.fall w).run = { w with state := .releasing, timer := some (1000 * r.release) }) ∧
    (w.state = .tripped → isSet r.latch = false → r.releaseSide = false →
      (r.fall w).run = { w with state := .idle, timer := none }) ∧
    (w.state = .latched → (r.fall w).run = w) := by
  refine ⟨fun hs => ?_, fun hs hl => ?_, fun hs hl hr => ?_, fun hs hl hr => ?_, fun hs => ?_⟩ <;>
    simp [WatchRec.fall, EntryOutcome.quiet, *]

theorem WatchRec.fall_timeless (h : r.mode = .pulse ∨ r.mode = .rate ∨ r.mode = .count) : (r.fall w).run = w := by
  obtain h | h | h := h <;> simp [WatchRec.fall, EntryOutcome.quiet, h]

end modes

/-- The flag takes a value: what its edge does in each mode. -/
theorem WatchRec.takeCond_edgeGives : r.edgeGives w c (r.takeCond w c).run := by
  refine ⟨r.takeCond_same w c, fun hw hc => ?rise, fun hw hc => ?fall⟩
  case rise =>
    subst hc
    rw [r.takeCond_rise w hw]
    refine ⟨fun hm => ?_, fun hm => WatchRec.rise_pulse (w := { w with cond := true }) hm,
      fun hm => WatchRec.rise_counting (w := { w with cond := true }) hm⟩
    obtain ⟨qualifies, trips, returns, stays⟩ := WatchRec.rise_delay (w := { w with cond := true }) hm
    exact ⟨fun hs he hq => qualifies hs (r.qualifySide_iff.2 ⟨he, hq⟩),
      fun hs hq => trips hs (r.qualifySide_eq_false_iff.2 hq), returns, stays⟩
  case fall =>
    subst hc
    rw [r.takeCond_fall w hw]
    refine ⟨fun hm => ?_, fun hm => WatchRec.fall_timeless (w := { w with cond := false }) hm⟩
    obtain ⟨ends, latches, releases, clears, stays⟩ := WatchRec.fall_delay (w := { w with cond := false }) hm
    exact ⟨ends, latches, fun hs hl he hr => releases hs hl (r.releaseSide_iff.2 ⟨he, hr⟩),
      fun hs hl hr => clears hs hl (r.releaseSide_eq_false_iff.2 hr), stays⟩

end entry
end Sys2Proof.Machine
end

section
/-! The events of the surface watch in RUN: the timers (R46, R48, R50), value updates (R44, R55) and losses of use (R54),
with the chains behind them (R51). -/

namespace Sys2Proof.Machine

open Sys2Proof

/-! ### The expiry of an entry's timer (R46, R48, R50, R54) -/

section expiry
variable {r : WatchRec} {w : WatchRun}

theorem WatchRec.qualifyEnds_qualifying (hm : r.mode = .delay) (hs : w.state = .qualifying) :
    r.qualifyEnds w = ⟨{ w with state := .tripped, timer := none }, true, false⟩ := if_pos ⟨hm, hs⟩

theorem WatchRec.releaseEnds_releasing (hm : r.mode = .delay) (hs : w.state = .releasing) :
    r.releaseEnds w = .quiet { w with state := .idle, timer := none } := if_pos ⟨hm, hs⟩

theorem WatchRec.holdEnds_tripped (hm : r.mode = .pulse) (hs : w.state = .tripped) (ht : w.timer.isSome = true) :
    r.holdEnds w = if isSet r.latch then ⟨{ w with state := .latched, timer := none }, false, true⟩
      else .quiet { w with state := .idle, timer := none } := if_pos ⟨hm, hs, ht⟩

theorem WatchRec.tripHeld_iff (r : WatchRec) (chained : Bool) (w : WatchRun) :
    r.tripHeld chained w = true ↔ chained = false ∧ r.stale = .trip ∧ w.lost = true := by
  simp [WatchRec.tripHeld, and_assoc]

theorem WatchRec.tripHeld_eq_false_iff (r : WatchRec) (chained : Bool) (w : WatchRun) :
    r.tripHeld chained w = false ↔ chained = true ∨ r.stale ≠ .trip ∨ w.lost = false := by
  cases chained <;> simp [WatchRec.tripHeld, imp_iff_not_or]

theorem WatchRec.windowEnds_stays (hm : r.mode = .rate ∨ r.mode = .count) (ht : w.timer.isSome = true) {chained : Bool}
    (h : w.state ≠ .tripped ∨ r.limit ≤ w.count ∨ r.tripHeld chained w = true) :
    r.windowEnds chained w = .quiet { w with count := 0, timer := some (1000 * r.window) } := by
  have stays : ¬ (w.state = .tripped ∧ w.count < r.limit ∧ (!r.tripHeld chained w) = true) := by
    rintro ⟨hs, hc, hh⟩
    obtain h | h | h := h
    · exact h hs
    · omega
    · simp [h] at hh
  rw [WatchRec.windowEnds, if_pos ⟨hm, ht⟩]
  exact if_neg stays

theorem WatchRec.windowEnds_ends (hm : r.mode = .rate ∨ r.mode = .count) (ht : w.timer.isSome = true) {chained : Bool}
    (hs : w.state = .tripped) (hc : w.count < r.limit) (hh : r.tripHeld chained w = false) :
    r.windowEnds chained w =
      (if isSet r.latch then
        ⟨{ w with count := 0, timer := some (1000 * r.window), state := .latched }, false, true⟩
      else .quiet { w with count := 0, timer := some (1000 * r.window), state := .idle }) := by
  rw [WatchRec.windowEnds, if_pos ⟨hm, ht⟩]
  exact if_pos ⟨hs, hc, by simp [hh]⟩

variable (r w)

theorem WatchRec.qualifyEnds_tells : (r.qualifyEnds w).Tells w := by
  unfold WatchRec.qualifyEnds
  split
  · rename_i h
    exact EntryOutcome.tells_tripped (by simp [h.2]) rfl
  · exact EntryOutcome.tells_quiet rfl

theorem WatchRec.releaseEnds_tells : (r.releaseEnds w).Tells w := by
  unfold WatchRec.releaseEnds
  split
  · exact EntryOutcome.tells_calm nofun nofun
  · exact EntryOutcome.tells_quiet rfl

theorem WatchRec.holdEnds_tells : (r.holdEnds w).Tells w := by
  unfold WatchRec.holdEnds
  split
  · split
    · exact EntryOutcome.tells_latched rfl
    · exact EntryOutcome.tells_calm nofun nofun
  · exact EntryOutcome.tells_quiet rfl

theorem WatchRec.windowEnds_tells (chained : Bool) : (r.windowEnds chained w).Tells w := by
  unfold WatchRec.windowEnds
  dsimp only
  split
  · split
    · split
      · exact EntryOutcome.tells_latched rfl
      · exact EntryOutcome.tells_calm nofun nofun
    · exact EntryOutcome.tells_quiet rfl
  · exact EntryOutcome.tells_quiet rfl

end expiry

/-! ### An event at one entry -/

section onEntry
variable {s : State} {k : Nat} {act : WatchRec → WatchRun → EntryOutcome}

theorem State.directAt_onEntry_ne {j : Nat} (h : j ≠ k) :
    s.directAt (onEntry k act) j = .quiet (s.watch.runs.get j) := if_neg h

theorem State.outcomeAt_onEntry_before {j : Nat} (h : j < k) :
    s.outcomeAt (onEntry k act) j = .quiet (s.watch.runs.get j) :=
  State.outcomeAt_quiet fun _ hi => State.directAt_onEntry_ne (by omega)

theorem State.outcomeAt_onEntry :
    s.outcomeAt (onEntry k act) k = act (s.tables.watch.get k) (s.watch.runs.get k) := by
  have direct : s.directAt (onEntry k act) k = act (s.tables.watch.get k) (s.watch.runs.get k) := if_pos rfl
  cases k with
  | zero => exact direct
  | succ k =>
    rw [State.outcomeAt_uncounted, direct]
    rw [State.outcomeAt_onEntry_before k.lt_succ_self]
    rfl

/-- An entry that does not chain is the only one that the event changes. -/
theorem State.watchEvent_onEntry_ne (hc : isSet (s.tables.watch.get k).chain = false) {j : Nat} (hj : j ≠ k) :
    (s.watchEvent (onEntry k act)).watch.runs.get j = s.watch.runs.get j := by
  have quiet : ∀ j, j ≠ k → s.outcomeAt (onEntry k act) j = .quiet (s.watch.runs.get j) := by
    intro j
    induction j with
    | zero => exact State.directAt_onEntry_ne
    | succ j ih =>
      intro hj
      rw [← State.directAt_onEntry_ne (act := act) hj]
      by_cases hjk : j = k
      · rw [State.outcomeAt_unchained]
        rw [Tables.chained_succ, hjk, hc]
      · rw [State.outcomeAt_uncounted]
        rw [ih hjk]
        rfl
  by_cases hlt : j < 32
  · rw [State.watchEvent_get _ _ hlt, quiet j hj]
    rfl
  · exact State.watchEvent_past (by omega)

theorem State.onEntry_tellsTrip (tells : (act (s.tables.watch.get k) (s.watch.runs.get k)).Tells (s.watch.runs.get k))
    (j : Nat) : (s.outcomeAt (onEntry k act) j).TellsTrip (s.watch.runs.get j) := by
  refine State.outcomeAt_tellsTrip (fun j => ?_) (fun j ht _ hs => ?_) j
  · by_cases hj : j = k
    · rw [hj, State.directAt, onEntry, if_pos rfl]
      exact tells.trip
    · rw [State.directAt_onEntry_ne hj]
      exact EntryOutcome.tellsTrip_quiet _
  · by_cases hj : j + 1 = k
    · rw [State.outcomeAt_onEntry_before (by omega)] at ht
      cases ht
    · rw [State.directAt_onEntry_ne hj, EntryOutcome.quiet, hs]
      exact nofun

/-- R51: what an entry's timer does to the others: a chained one counts the trips of the entry before it. -/
theorem State.watchTimer_others
    (tells : (act (s.tables.watch.get k) (s.watch.runs.get k)).Tells (s.watch.runs.get k)) :
    let t := s.watchTimer k act
    (∀ j, j ≠ k → s.tables.chained j = false → t.watch.runs.get j = s.watch.runs.get j) ∧
    (∀ j, j + 1 < 32 → j + 1 ≠ k → isSet (s.tables.watch.get j).chain = true →
      let trips := (s.watch.runs.get j).state ≠ .tripped ∧ (t.watch.runs.get j).state = .tripped
      (trips → t.watch.runs.get (j + 1) = (s.tables.watch.get (j + 1)).counted (s.watch.runs.get (j + 1))) ∧
      (¬ trips → t.watch.runs.get (j + 1) = s.watch.runs.get (j + 1))) := by
  intro t
  by_cases h : (s.running && (s.watch.runs.get k).timer.isSome) = true
  · rw [show t = s.watchEvent (onEntry k act) from if_pos h]
    refine ⟨fun j hj hc => ?_, fun j hlt hj hc => ?_⟩
    · by_cases hlt : j < 32
      · rw [State.watchEvent_unchained hlt hc, State.directAt_onEntry_ne hj]
        rfl
      · exact State.watchEvent_past (by omega)
    · have counted := State.watchEvent_chained hlt hc (State.onEntry_tellsTrip tells j)
      rwa [State.directAt_onEntry_ne hj] at counted
  · rw [show t = s from if_neg h]
    exact ⟨fun _ _ _ => rfl, fun j _ _ _ => ⟨fun trips => absurd trips.2 trips.1, fun _ => rfl⟩⟩

end onEntry

/-! ### An event at a point -/

section onPoint
variable {s : State} {p k : Nat} {act : WatchRec → WatchRun → EntryOutcome}

theorem State.directAt_onPoint (hc : s.tables.chained k = false) (hp : (s.tables.watch.get k).point.get = some p) :
    s.directAt (onPoint s.tables p act) k = act (s.tables.watch.get k) (s.watch.runs.get k) := if_pos (by simp [hc, hp])

theorem State.directAt_onPoint_other (h : s.tables.chained k = true ∨ (s.tables.watch.get k).point.get ≠ some p) :
    s.directAt (onPoint s.tables p act) k = .quiet (s.watch.runs.get k) := by
  refine if_neg ?_
  obtain h | h := h <;> simp [h]

theorem State.watchEvent_onPoint_other (hk : k < 32) (hc : s.tables.chained k = false)
    (hp : (s.tables.watch.get k).point.get ≠ some p) :
    (s.watchEvent (onPoint s.tables p act)).watch.runs.get k = s.watch.runs.get k := by
  rw [State.watchEvent_unchained hk hc, State.directAt_onPoint_other (.inr hp)]
  rfl

theorem State.watchEvent_onPoint (hk : k < 32) (hc : s.tables.chained k = false)
    (hp : (s.tables.watch.get k).point.get = some p) :
    (s.watchEvent (onPoint s.tables p act)).watch.runs.get k =
      (act (s.tables.watch.get k) (s.watch.runs.get k)).run := by
  rw [State.watchEvent_unchained hk hc, State.directAt_onPoint hc hp]

theorem State.onPoint_latched (hk : k < 32) (hc : s.tables.chained k = false)
    (hp : (s.tables.watch.get k).point.get = some p)
    (h : (act (s.tables.watch.get k) (s.watch.runs.get k)).latched = true) :
    EventFlag.watchLatched.of (s.watchEvent (onPoint s.tables p act)).trunk.flags = true :=
  State.watchEvent_latched hk (by rwa [State.outcomeAt_unchained hc, State.directAt_onPoint hc hp])

/-- R51: a chained entry, which no point feeds, counts the trips of the entry before it. -/
theorem State.watchEvent_onPoint_chained (tells : ∀ r w, (act r w).Tells w) (hk : k + 1 < 32)
    (hc : isSet (s.tables.watch.get k).chain = true) :
    let t := s.watchEvent (onPoint s.tables p act)
    let trips := (s.watch.runs.get k).state ≠ .tripped ∧ (t.watch.runs.get k).state = .tripped
    (trips → t.watch.runs.get (k + 1) = (s.tables.watch.get (k + 1)).counted (s.watch.runs.get (k + 1))) ∧
    (¬ trips → t.watch.runs.get (k + 1) = s.watch.runs.get (k + 1)) := by
  have fed {j : Nat} (h : isSet (s.tables.watch.get j).chain = true) :
      s.directAt (onPoint s.tables p act) (j + 1) = .quiet (s.watch.runs.get (j + 1)) :=
    State.directAt_onPoint_other (.inl (by rw [Tables.chained_succ, h]))
  have told := State.outcomeAt_tellsTrip (s := s) (act := onPoint s.tables p act) (fun j => ?direct)
    (fun j _ h hs => ?stay) k
  case direct =>
    unfold State.directAt onPoint
    split
    · exact (tells _ _).trip
    · exact EntryOutcome.tellsTrip_quiet _
  case stay =>
    rw [fed h, EntryOutcome.quiet, hs]
    exact nofun
  have counted := State.watchEvent_chained hk hc told
  rwa [fed hc] at counted

end onPoint

/-! ### A value update (R44, R55) -/

section value
variable {r : WatchRec} {w : WatchRun} {l : Limits} {v : Int}

theorem WatchRec.valueUpdate_kept (h : w.lost = false) :
    r.valueUpdate l v w = r.takeCond w (r.evaluate l v w.cond) := by simp [WatchRec.valueUpdate, h]

theorem WatchRec.valueUpdate_lost (h : w.lost = true) :
    r.valueUpdate l v w = r.regain w (r.evaluate l v false) := by simp [WatchRec.valueUpdate, WatchRec.evaluate, h]

/-- R55: the first value update after a loss of use. -/
theorem WatchRec.regain_run (r : WatchRec) (w : WatchRun) (c : Bool) :
    let now := (r.regain w c).run
    let back : WatchRun := { w with lost := false }
    (w.state = .latched → now = { back with cond := c }) ∧
    (w.state = .tripped → r.stale = .trip →
      (r.mode = .delay → r.edgeGives back c now) ∧
      (r.mode = .pulse → now = { back with cond := c, timer := some (1000 * r.hold) }) ∧
      (r.mode = .rate ∨ r.mode = .count → now = { back with cond := c })) ∧
    (w.state ≠ .latched → ¬ (w.state = .tripped ∧ r.stale = .trip) → r.edgeGives back c now) := by
  have edge := r.takeCond_edgeGives { w with lost := false } c
  refine ⟨fun hs => ?_, fun hs ht => ⟨fun hm => ?_, fun hm => ?_, fun hm => ?_⟩, fun hl hn => ?_⟩
  · simp [WatchRec.regain, EntryOutcome.quiet, hs]
  · simpa [WatchRec.regain, hs, ht, hm] using edge
  · simp [WatchRec.regain, EntryOutcome.quiet, hs, ht, hm]
  · obtain hm | hm := hm <;> simp [WatchRec.regain, EntryOutcome.quiet, hs, ht, hm]
  · have hn' : ¬ (r.stale = .trip ∧ w.state = .tripped) := fun h => hn ⟨h.2, h.1⟩
    simpa only [WatchRec.regain, if_neg hl, if_neg hn'] using edge

/-- R44: the comparison, with hysteresis while the condition is set. -/
theorem WatchRec.evaluate_iff (r : WatchRec) (low high v : Int) (cond : Bool) :
    let c := r.evaluate ⟨low, high⟩ v cond
    let h : Int := if cond = true then r.hysteresis else 0
    (r.compare = .above → (c = true ↔ low - h < v)) ∧ (r.compare = .below → (c = true ↔ v < low + h)) ∧
    (r.compare = .outside → (c = true ↔ v < low + h ∨ high - h < v)) := by
  cases cond
  · refine ⟨fun hc => ?_, fun hc => ?_, fun hc => ?_⟩ <;> simp [WatchRec.evaluate, WatchRec.plain, hc]
  · refine ⟨fun hc => ?_, fun hc => ?_, fun hc => ?_⟩ <;> simp [WatchRec.evaluate, hc]

end value

theorem State.valueUpdate_watch (s : State) (p : Nat) (v : Int) :
    (s.valueUpdate p v).watch = (s.watchValue p v).watch := by simp [State.valueUpdate]

/-- The surface watch takes of an OK item the value that the point takes. -/
theorem State.okItem_watch (s : State) (p : Nat) (v : Int) :
    (s.okItem p v).watch = (s.watchValue p ((s.tables.points.get p).take v).1).watch := by
  rw [State.okItem, State.valueUpdate_watch, State.watchValue, State.watchValue, State.watchEvent_watch,
    State.watchEvent_watch]
  rfl

/-- R16: the value taken is the item's within the point's limits. -/
theorem PointRec.take_fst (m : PointRec) (v : Int) : (m.take v).1 = if v < m.low then m.low else min v m.high := by
  unfold PointRec.take
  split
  · rfl
  · split
    · exact (min_eq_right (by omega)).symm
    · exact (min_eq_left (by omega)).symm

/-! ### A loss of use (R54) -/

/-- R54: the run fields at a loss of use, by the stale policy. -/
theorem WatchRec.lossOfUse_run (r : WatchRec) (w : WatchRun) :
    let now := (r.lossOfUse w).run
    let timer := if r.mode = .delay ∨ r.mode = .pulse then none else w.timer
    (r.stale = .hold → now = { w with lost := true }) ∧
    (r.stale = .trip → w.state = .latched → now = { w with lost := true, cond := true }) ∧
    (r.stale = .trip → w.state ≠ .latched →
      now = { w with lost := true, cond := true, state := .tripped, timer := timer }) ∧
    (r.stale = .clear → w.state = .latched → now = { w with lost := true, cond := false }) ∧
    (r.stale = .clear → w.state = .tripped → isSet r.latch = true →
      now = { w with lost := true, cond := false, state := .latched, timer := timer } ∧
        (r.lossOfUse w).latched = true) ∧
    (r.stale = .clear → w.state ≠ .latched → (w.state ≠ .tripped ∨ isSet r.latch = false) →
      now = { w with lost := true, cond := false, state := .idle, timer := timer }) := by
  have stop (w : WatchRun) : r.stopTimer w = if r.mode = .delay ∨ r.mode = .pulse then none else w.timer := by
    unfold WatchRec.stopTimer
    split <;> simp [*]
  unfold WatchRec.lossOfUse
  simp only [stop]
  refine ⟨fun hp => ?_, fun hp hs => ?_, fun hp hs => ?_, fun hp hs => ?_, fun hp hs hl => ?_, fun hp hs hl => ?_⟩
  · simp [hp, EntryOutcome.quiet]
  · simp [hp, hs, EntryOutcome.quiet]
  · simp [hp, hs]
  · simp [hp, hs, EntryOutcome.quiet]
  · simp [hp, hs, hl]
  · have idle : ¬ (w.state = .tripped ∧ isSet r.latch = true) := by
      rintro ⟨ht, hset⟩
      exact hl.elim (absurd ht) fun h => absurd (h.symm.trans hset) nofun
    simp only [hp, if_neg hs, if_neg idle, EntryOutcome.quiet]

/-! ### All of it -/

section timers
variable {s : State} {k : Fin 32} {c : Instr} {act : WatchRec → WatchRun → EntryOutcome}

/-- The expiry of a running timer, in RUN: the entry's outcome, and what every event of the surface watch ends in. -/
theorem timerExpiry_after (hr : s.running = true) (ht : (s.watch.runs.get k).timer.isSome = true)
    (hx : exec c s = .next (s.watchTimer k act)) {p : WatchRun → State → Prop}
    (hp : p (act (s.tables.watch.get k) (s.watch.runs.get k)).run (s.watchEvent (onEntry k act))) :
    ∃ t, exec c s = .next t ∧ p (t.watch.runs.get k) t ∧ t.watch.guard = guardOf s.tables t.watch.runs ∧
      s.besideGuard t ∧ (isSet (s.tables.watch.get k).chain = false →
        ∀ j, j ≠ k.val → t.watch.runs.get j = s.watch.runs.get j) := by
  have expires : s.watchTimer k act = s.watchEvent (onEntry k act) := if_pos (by simp [hr, ht])
  refine ⟨_, hx.trans (congrArg _ expires), ?_, s.watchEvent_guard _, s.watchEvent_besideGuard _,
    fun hc j hj => State.watchEvent_onEntry_ne hc hj⟩
  rwa [State.watchEvent_get _ _ k.isLt, State.outcomeAt_onEntry]

theorem timerExpiry_latched (h : (act (s.tables.watch.get k) (s.watch.runs.get k)).latched = true) :
    EventFlag.watchLatched.of (s.watchEvent (onEntry k act)).trunk.flags = true :=
  State.watchEvent_latched k.isLt (by rwa [State.outcomeAt_onEntry])

end timers

/-- Settles O33, event by event. -/
theorem watchTimersExpire : Obligations.WatchTimersExpire := by
  refine ⟨fun k s hr ht => ?timers, fun k s hr ht hk hm hs hc => ?tripped, fun k s c hc => ?others,
    WatchRec.evaluate_iff, fun s p k v hk => ?value, fun s p k hk => ?loss, fun s t p k v hk ht => ?chained,
    fun s p v => ?reached⟩
  case timers =>
    intro r w After
    have after {c : Instr} {act : WatchRec → WatchRun → EntryOutcome} {p : WatchRun → State → Prop}
        (hx : exec c s = .next (s.watchTimer k act)) (hp : p (act r w).run (s.watchEvent (onEntry k act))) :
        After c p := timerExpiry_after hr ht hx hp
    have window {p : WatchRun → State → Prop} (hp : p (r.windowEnds (s.tables.chained k) w).run
        (s.watchEvent (onEntry k fun r w => r.windowEnds (s.tables.chained k) w))) : After (.windowExpiry k) p :=
      after rfl hp
    clear_value After
    refine ⟨fun hm hs => after rfl ?qualify, fun hm hs => after rfl ?release, fun hm hs hl => after rfl ?hold,
      fun hm hs hl => after rfl ⟨?holdLatch, timerExpiry_latched ?holdFlag⟩, fun hm hs => window ?windowRuns,
      fun hm hs hc hh => window ?windowEnds, fun hm hs hc hp hl => window ?windowHeld⟩
    case qualify => rw [WatchRec.qualifyEnds_qualifying hm hs]
    case release => rw [WatchRec.releaseEnds_releasing hm hs, EntryOutcome.quiet]
    case hold | holdLatch | holdFlag =>
      rw [WatchRec.holdEnds_tripped hm hs ht, hl]
      rfl
    case windowRuns => rw [WatchRec.windowEnds_stays hm ht (hs.imp_right .inl), EntryOutcome.quiet]
    case windowHeld =>
      rw [WatchRec.windowEnds_stays hm ht (.inr (.inr ((r.tripHeld_iff _ w).2 ⟨hc, hp, hl⟩))), EntryOutcome.quiet]
    case windowEnds =>
      have ends := WatchRec.windowEnds_ends hm ht hs hc ((r.tripHeld_eq_false_iff _ w).2 hh)
      cases hl : isSet r.latch
      · rw [hl] at ends
        exact ⟨congrArg EntryOutcome.run ends, nofun⟩
      · rw [hl] at ends
        exact ⟨congrArg EntryOutcome.run ends, fun _ => timerExpiry_latched (congrArg EntryOutcome.latched ends)⟩
  case tripped =>
    have trips : (s.watch.runs.get k).state ≠ .tripped ∧
        ((s.watchTimer k WatchRec.qualifyEnds).watch.runs.get k).state = .tripped := by
      obtain ⟨t, hx, ht, -⟩ := timerExpiry_after (act := WatchRec.qualifyEnds) (c := .qualifyExpiry k)
        (p := fun w _ => w.state = .tripped) hr ht rfl (by rw [WatchRec.qualifyEnds_qualifying hm hs])
      cases hx
      exact ⟨by simp [hs], ht⟩
    have next := ((State.watchTimer_others (WatchRec.qualifyEnds_tells _ _)).2 k.val hk (by omega) hc).1 trips
    refine ⟨_, rfl, congrArg WatchRun.count next, fun hi => (congrArg WatchRun.state next).trans ?_⟩
    simp only [WatchRec.counted, hi, true_and]
  case others =>
    have expiry (act : WatchRec → WatchRun → EntryOutcome)
        (tells : (act (s.tables.watch.get k) (s.watch.runs.get k)).Tells (s.watch.runs.get k)) :=
      State.watchTimer_others tells
    simp only [List.mem_cons, List.not_mem_nil, or_false] at hc
    obtain rfl | rfl | rfl | rfl := hc
    · exact ⟨_, rfl, expiry _ (WatchRec.qualifyEnds_tells _ _)⟩
    · exact ⟨_, rfl, expiry _ (WatchRec.releaseEnds_tells _ _)⟩
    · exact ⟨_, rfl, expiry _ (WatchRec.holdEnds_tells _ _)⟩
    · exact ⟨_, rfl, expiry _ (WatchRec.windowEnds_tells _ _ _)⟩
  case value =>
    intro r w limits t now
    refine ⟨fun hc hp => State.watchEvent_onPoint_other hk hc hp, fun hc hp => ?_, s.watchEvent_guard _,
      s.watchEvent_besideGuard _⟩
    have fed : now = (r.valueUpdate limits v w).run := State.watchEvent_onPoint hk hc hp
    rw [fed]
    refine ⟨fun hl => ?_, fun hl => ?_, fun h1 h2 => ?_⟩
    · rw [WatchRec.valueUpdate_kept hl]
      exact r.takeCond_edgeGives w _
    · rw [WatchRec.valueUpdate_lost hl]
      exact r.regain_run w _
    · exact State.onPoint_latched hk hc hp ((r.valueUpdate_tells w limits v).latched h1 h2)
  case loss =>
    intro r w t now timer
    refine ⟨fun hc hp => State.watchEvent_onPoint_other hk hc hp, fun hc hp => ?_, s.watchEvent_guard _,
      s.watchEvent_besideGuard _⟩
    have fed : now = (r.lossOfUse w).run := State.watchEvent_onPoint hk hc hp
    rw [fed]
    obtain ⟨hold, tripLatched, trip, clearLatched, clearTripped, clear⟩ := r.lossOfUse_run w
    refine ⟨hold, tripLatched, trip, clearLatched, fun hs h hl => ?_, clear⟩
    obtain ⟨run, latched⟩ := clearTripped hs h hl
    exact ⟨run, State.onPoint_latched hk hc hp latched⟩
  case chained =>
    intro n w trips hc
    obtain rfl | rfl := ht
    · exact State.watchEvent_onPoint_chained (fun r w => r.valueUpdate_tells w _ v) hk hc
    · exact State.watchEvent_onPoint_chained WatchRec.lossOfUse_tells hk hc
  case reached =>
    intro m
    refine ⟨?_, s.lossOfUse_watch p⟩
    rw [State.okItem_watch, PointRec.take_fst]

end Sys2Proof.Machine
end

section
/-! The arithmetic of a fog station: the state a margin gives (R71), saturation and vapour pressure (R68), and the dew
point (R69, R70). -/

namespace Sys2Proof.Machine

open Sys2Proof

/-! ### The state a margin gives (R71) -/

section nextState
variable (r : FogTuneRec) (m : Int)

theorem FogTuneRec.nextState_fresh {before : FogState} (h : before = .unknown ∨ before = .clear) :
    r.nextState before m = if m < r.risk then .risk else if m < r.warn then .watch else .clear := by
  obtain rfl | rfl := h <;> rfl

theorem FogTuneRec.nextState_watch : r.nextState .watch m =
    if m < r.risk then .risk else if r.warn + r.hysteresis ≤ m then .clear else .watch := rfl

theorem FogTuneRec.nextState_risk : r.nextState .risk m =
    if r.warn + r.hysteresis ≤ m then .clear else if r.risk + r.hysteresis ≤ m then .watch else .risk := rfl

end nextState

/-- Settles O37, state by state. -/
theorem fogStateTable : Obligations.FogStateTable := by
  intro r m
  refine ⟨fun before hb => ?fresh, ?watch, ?risk⟩
  case fresh =>
    rw [r.nextState_fresh m hb]
    exact ⟨fun h => if_pos h, fun h1 h2 => by rw [if_neg (by omega), if_pos h2],
      fun h1 h2 => by rw [if_neg (by omega), if_neg (by omega)]⟩
  case watch =>
    rw [r.nextState_watch m]
    exact ⟨fun h => if_pos h, fun h1 h2 => by rw [if_neg (by omega), if_pos h2],
      fun h1 h2 => by rw [if_neg (by omega), if_neg (by omega)]⟩
  case risk =>
    rw [r.nextState_risk m]
    exact ⟨fun h => if_pos h, fun h1 h2 => by rw [if_neg (by omega), if_pos h2],
      fun h1 h2 => by rw [if_neg (by omega), if_neg (by omega)]⟩

/-! ### Saturation and vapour pressure (R68) -/

/-- R68: the saturation pressure `f` tenths of the way from entry `i`. -/
theorem saturationAt_grid (e : Tab Nat 101) {i f : Nat} (hf : f ≤ 9) :
    saturationAt e (10 * (i : Int) + f - 400) =
      if i = 100 then e.get 100 else e.get i + (e.get (i + 1) - e.get i) * f / 10 := by
  have hn : (10 * (i : Int) + f - 400 + 400).toNat = 10 * i + f := by omega
  have hi : (10 * i + f) / 10 = i := by omega
  have hm : (10 * i + f) % 10 = f := by omega
  simp only [saturationAt, hn, hi, hm]

/-- Every clamped temperature lies on the grid that R68 reads the table at. -/
theorem temperature_on_grid {t : Int} (h1 : -400 ≤ t) (h2 : t ≤ 600) :
    ∃ i f : Nat, i ≤ 100 ∧ f ≤ 9 ∧ (i = 100 → f = 0) ∧ t = 10 * (i : Int) + f - 400 :=
  ⟨(t + 400).toNat / 10, (t + 400).toNat % 10, by omega, by omega, by omega, by omega⟩

theorem interpolation_lt {a b f : Nat} (h : a < b) (hf : f ≤ 9) : a + (b - a) * f / 10 < b := by
  have : (b - a) * f / 10 < b - a := by
    rw [Nat.div_lt_iff_lt_mul (by omega)]
    exact Nat.mul_lt_mul_of_pos_left (by omega) (by omega)
  omega

/-- R68: humid air holds no more than the saturation pressure. -/
theorem vapourPressure_le (es : Nat) {rh : Nat} (h : rh ≤ 1000) : vapourPressure es rh ≤ es := by
  have : es * rh ≤ es * 1000 := Nat.mul_le_mul_left es h
  unfold vapourPressure
  omega

/-! ### The search of R69 -/

/-- An entry at most `p` that is the last, or that only a greater one follows, is the one found, where none before it is
above `p`. -/
theorem searchFrom_stops {p : Nat} (l : List Nat) : ∀ (k j : Nat) (hj : j < l.length),
    (∀ i (hi : i ≤ j), l[i] ≤ p) → (∀ b ∈ l[j + 1]?, p < b) →
      searchFrom p k l = some (k + j, l[j], l[j + 1]?) := by
  induction l with
  | nil => exact fun _ _ hj => absurd hj (Nat.not_lt_zero _)
  | cons a rest ih =>
    intro k j hj upTo next
    have ha : ¬ p < a := Nat.not_lt.2 (upTo 0 (Nat.zero_le _))
    rw [searchFrom, if_neg ha]
    cases j with
    | zero =>
      have none_found : searchFrom p (k + 1) rest = none := by
        cases rest with
        | nil => rfl
        | cons b rest => exact if_pos (next b rfl)
      rw [none_found, List.head?_eq_getElem?]
      rfl
    | succ j =>
      rw [ih (k + 1) j (Nat.lt_of_succ_lt_succ hj) (fun i hi => upTo (i + 1) (Nat.succ_le_succ hi)) next,
        Nat.add_right_comm]
      rfl

/-- The same of the saturation table. -/
theorem searchFrom_table {e : Tab Nat 101} {p j : Nat} (hj : j < 101) (upTo : ∀ i, i ≤ j → e.get i ≤ p)
    (next : j < 100 → p < e.get (j + 1)) :
    searchFrom p 0 e.list = some (j, e.get j, if j < 100 then some (e.get (j + 1)) else none) := by
  have hl (i : Nat) (hi : i ≤ j) : i < e.list.length := by rw [e.len]; omega
  have behind : e.list[j + 1]? = if j < 100 then some (e.get (j + 1)) else none := by
    split
    · have hs : j + 1 < e.list.length := by rw [e.len]; omega
      rw [List.getElem?_eq_getElem hs, e.get_eq _ hs]
    · exact List.getElem?_eq_none (by rw [e.len]; omega)
  have found := searchFrom_stops (p := p) e.list 0 j (hl j le_rfl)
    (fun i hi => (e.get_eq i (hl i hi)) ▸ upTo i hi) fun b hb => by
      rw [behind] at hb
      split at hb
      · cases hb
        exact next ‹_›
      · cases hb
  rw [found, behind, Nat.zero_add, e.get_eq j (hl j le_rfl)]

/-! ### The dew point (R69) -/

/-- R61: the saturation table rises strictly. -/
def Rises (e : Tab Nat 101) : Prop := ∀ i, i < 100 → e.get i < e.get (i + 1)

theorem dewPoint_below {e : Tab Nat 101} {p : Nat} (h : p < e.get 0) : dewPoint e p = ⟨-400, true, false⟩ := by
  have none_found : searchFrom p 0 e.list = none := by
    obtain ⟨l, hl⟩ := e
    cases l with
    | nil => cases hl
    | cons a rest => exact if_pos h
  rw [dewPoint, none_found]

/-- A pressure within the table lies between two entries that stand side by side. -/
theorem exists_entries_around {e : Tab Nat 101} {p : Nat} (low : e.get 0 ≤ p) (high : p < e.get 100) :
    ∃ j, j < 100 ∧ e.get j ≤ p ∧ p < e.get (j + 1) := by
  have upTo (n : Nat) (hn : n ≤ 100) (h : p < e.get n) : ∃ j, j < 100 ∧ e.get j ≤ p ∧ p < e.get (j + 1) := by
    induction n with
    | zero => omega
    | succ n ih =>
      by_cases hp : p < e.get n
      · exact ih (by omega) hp
      · exact ⟨n, by omega, by omega, h⟩
  exact upTo 100 le_rfl high

section rises
variable {e : Tab Nat 101} (rises : Rises e)
include rises

theorem Rises.get_le {i j : Nat} (hij : i ≤ j) (hj : j ≤ 100) : e.get i ≤ e.get j := by
  induction j, hij using Nat.le_induction with
  | base => exact le_rfl
  | succ j _ ih => exact (ih (by omega)).trans (rises j (by omega)).le

theorem dewPoint_above {p : Nat} (h : e.get 100 ≤ p) : dewPoint e p = ⟨600, false, true⟩ := by
  rw [dewPoint, searchFrom_table (j := 100) (by omega) (fun i hi => (rises.get_le hi le_rfl).trans h)
    fun hlt => absurd hlt (by omega)]
  rfl

theorem dewPoint_between {p j : Nat} (hj : j < 100) (low : e.get j ≤ p) (high : p < e.get (j + 1)) : dewPoint e p =
    ⟨10 * (j : Int) - 400 + (((p - e.get j) * 10 / (e.get (j + 1) - e.get j) : Nat) : Int), false, false⟩ := by
  rw [dewPoint, searchFrom_table (j := j) (by omega) (fun i hi => (rises.get_le hi hj.le).trans low) fun _ => high,
    if_pos hj]

/-- R68: short of the last entry the saturation pressure stays below the next one. -/
theorem Rises.saturation_lt {i f p : Nat} (hi : i < 100) (hf : f ≤ 9)
    (hp : p ≤ if i = 100 then e.get 100 else e.get i + (e.get (i + 1) - e.get i) * f / 10) : p < e.get (i + 1) := by
  rw [if_neg (by omega)] at hp
  exact hp.trans_lt (interpolation_lt (rises i hi) hf)

end rises

theorem tenths_le_nine {a b p : Nat} (low : a ≤ p) (high : p < b) : (p - a) * 10 / (b - a) ≤ 9 := by
  have : (p - a) * 10 / (b - a) < 10 := by
    rw [Nat.div_lt_iff_lt_mul (by omega)]
    omega
  omega

/-- Inverse interpolation undoes interpolation, which rounds down. -/
theorem tenths_le {a b f p : Nat} (h : p ≤ a + (b - a) * f / 10) : (p - a) * 10 / (b - a) ≤ f :=
  Nat.div_le_of_le_mul (by omega)

/-- R68, R69: the dew point of a pressure at most the saturation pressure of a temperature is at most that
temperature. -/
theorem Rises.dewPoint_le {e : Tab Nat 101} (rises : Rises e) {i f p : Nat} (hi : i ≤ 100) (hf : f ≤ 9)
    (hp : p ≤ if i = 100 then e.get 100 else e.get i + (e.get (i + 1) - e.get i) * f / 10) :
    -400 ≤ (dewPoint e p).td ∧ (dewPoint e p).td ≤ 10 * (i : Int) + f - 400 := by
  by_cases low : p < e.get 0
  · rw [dewPoint_below low]
    dsimp only
    omega
  by_cases high : e.get 100 ≤ p
  · have last : i = 100 := by
      by_contra hne
      have below := rises.saturation_lt (by omega) hf hp
      have := rises.get_le (i := i + 1) (j := 100) (by omega) le_rfl
      omega
    rw [dewPoint_above rises high]
    dsimp only
    omega
  obtain ⟨j, hj, hlow, hhigh⟩ := exists_entries_around (Nat.not_lt.1 low) (Nat.not_le.1 high)
  rw [dewPoint_between rises hj hlow hhigh]
  have hji : j ≤ i := by
    by_contra hlt
    have below := rises.saturation_lt (by omega) hf hp
    have := rises.get_le (i := i + 1) (j := j) (by omega) (by omega)
    omega
  have tenths : 10 * j + (p - e.get j) * 10 / (e.get (j + 1) - e.get j) ≤ 10 * i + f := by
    obtain rfl | hlt := hji.eq_or_lt
    · have := tenths_le ((if_neg (by omega : ¬ j = 100)) ▸ hp)
      omega
    · have := tenths_le_nine hlow hhigh
      omega
  generalize (p - e.get j) * 10 / (e.get (j + 1) - e.get j) = q at tenths
  dsimp only
  omega

/-- Settles O38: the bound, then the formulas. -/
theorem dewPointBounded : Obligations.DewPointBounded := by
  refine ⟨fun e t c rh _ rises ht1 ht2 hc1 hc2 hrh => ?bound, fun e i f _ hf _ => saturationAt_grid e hf,
    fun _ _ => rfl, fun e p rises => ⟨dewPoint_below, dewPoint_above rises, fun j hj => dewPoint_between rises hj⟩⟩
  case bound =>
    intro d
    obtain ⟨i, f, hi, hf, -, rfl⟩ := temperature_on_grid ht1 ht2
    have pressure := vapourPressure_le (saturationAt e (10 * (i : Int) + f - 400)) hrh
    obtain ⟨low, high⟩ : -400 ≤ d.td ∧ d.td ≤ 10 * (i : Int) + f - 400 :=
      Rises.dewPoint_le rises hi hf (pressure.trans_eq (saturationAt_grid e hf))
    exact ⟨⟨low, high⟩, by omega, by omega⟩

end Sys2Proof.Machine
end

section
/-! The fog monitor in RUN (chapter 4): the evaluation of a station (R67 to R72), the published record and the
dehumidifier (R74, R76), and the timers (R73, R76). -/

namespace Sys2Proof.Machine

open Sys2Proof

variable {s : State}

/-! ### An event of one write (R29, R36) -/

/-- What took the image by one event changes no link. -/
theorem State.relinked_one {t : State} {e : ImageEvent} (h : t.seg.log = s.seg.log ++ [e]) (f : EventLink → EventLink) :
    s.relinked t f = t := by
  have hl : s.seg.log ++ relink f (t.seg.log.drop s.seg.log.length) = t.seg.log := by simp [h, relink]
  simp only [State.relinked, hl]

/-- A single write is a series as it stands. -/
theorem State.asSeries_writeDemandTo {u : State} (h : u.seg = s.seg) (ch : Option Nat) (level : Nat) :
    s.asSeries (u.writeDemandTo ch level) = u.writeDemandTo ch level := by
  cases ch with
  | none => exact State.relinked_same (congrArg Segment.log h) _
  | some ch =>
    obtain hs | ⟨offers, hs⟩ := u.writeDemand_seg ch level
    · exact State.relinked_same (congrArg Segment.log (hs.trans h)) _
    · exact State.relinked_one ((congrArg Segment.log hs).trans (by rw [h])) _

/-! ### The published record (R74) -/

/-- R74: the greatest of what the stations in use ask for. -/
theorem publishedDemand_eq (t : Tables) (f : FogUnit) : publishedDemand t f =
    ((((List.range 8).filter fun i => t.stationInUse i).map fun i =>
      (t.fogTune.get i).contribution (f.stations.get i).state).foldl max 0) := List.foldl_map.symm

/-- The published record is the one that the stations' states give. -/
structure FogUnit.UpToDate (t : Tables) (f : FogUnit) : Prop where
  demand : f.demand = publishedDemand t f
  promotion : f.promotion = publishedPromotion t f

/-- What leaves the stations' states and the record leaves it up to date. -/
theorem FogUnit.UpToDate.of_states {t : Tables} {f g : FogUnit} (h : f.UpToDate t)
    (states : ∀ i, (g.stations.get i).state = (f.stations.get i).state) (demand : g.demand = f.demand)
    (promotion : g.promotion = f.promotion) : g.UpToDate t where
  demand := by simp only [demand, h.demand, publishedDemand, states]
  promotion := by simp only [promotion, h.promotion, publishedPromotion, states]

/-- The part with its published record made anew. -/
def State.published (s : State) : State :=
  { s with fog := { s.fog with
    demand := publishedDemand s.tables s.fog
    promotion := publishedPromotion s.tables s.fog } }

theorem State.publishFog_eq : s.publishFog =
    if s.published.fog.demand = s.fog.demand then s.published else s.published.dehumidDemand s.fog.demand := rfl

/-- Publishing what is published already changes nothing. -/
theorem State.publishFog_upToDate (h : s.fog.UpToDate s.tables) : s.publishFog = s := by
  have same : s.published = s := by rw [State.published, ← h.demand, ← h.promotion]
  rw [State.publishFog_eq, same, if_pos rfl]

/-! ### The dehumidifier at a change of the demand (R76) -/

section dehumidifier
variable {before : Nat}

theorem State.dehumidDemand_off (h : s.fog.unitState = .off) :
    s.dehumidDemand before = if before = 0 ∧ 0 < s.fog.demand then s.dehumidRun else s := by
  simp only [State.dehumidDemand, h]

theorem State.dehumidDemand_running (h : s.fog.unitState = .running) :
    s.dehumidDemand before = if 0 < before ∧ s.fog.demand = 0 ∧ s.fog.served = true then s.dehumidRest else s := by
  simp only [State.dehumidDemand, h]

theorem State.dehumidDemand_resting (h : s.fog.unitState = .resting) : s.dehumidDemand before = s := by
  simp only [State.dehumidDemand, h]

end dehumidifier

theorem State.publishFog_runs (h : s.fog.unitState = .off) (before : s.fog.demand = 0)
    (now : 0 < s.published.fog.demand) :
    s.publishFog = s.published.dehumidRun := by
  rw [State.publishFog_eq, if_neg (by omega), State.dehumidDemand_off (s := s.published) h, if_pos ⟨before, now⟩]

theorem State.publishFog_rests (h : s.fog.unitState = .running) (served : s.fog.served = true)
    (before : 0 < s.fog.demand) (now : s.published.fog.demand = 0) : s.publishFog = s.published.dehumidRest := by
  rw [State.publishFog_eq, if_neg (by omega), State.dehumidDemand_running (s := s.published) h,
    if_pos ⟨before, now, served⟩]

/-- Any other change of the demand leaves the unit. -/
theorem State.publishFog_leaves (h1 : ¬ (s.fog.unitState = .off ∧ s.fog.demand = 0 ∧ 0 < s.published.fog.demand))
    (h2 : ¬ (s.fog.unitState = .running ∧ s.fog.served = true ∧ 0 < s.fog.demand ∧ s.published.fog.demand = 0)) :
    s.publishFog = s.published := by
  have leaves : s.published.dehumidDemand s.fog.demand = s.published := by
    cases hu : s.fog.unitState with
    | off => rw [State.dehumidDemand_off (s := s.published) hu, if_neg fun h => h1 ⟨hu, h⟩]
    | running => rw [State.dehumidDemand_running (s := s.published) hu, if_neg fun ⟨ha, hb, hc⟩ => h2 ⟨hu, hc, ha, hb⟩]
    | resting => exact State.dehumidDemand_resting hu
  rw [State.publishFog_eq, leaves, ite_self]

/-! ### The timers (R73, R76) -/

theorem State.putStep_fog (i k : Nat) : (s.putStep i k).fog = { s.fog with
    stations := s.fog.stations.set i { s.fog.stations.get i with
      step := k, timer := some (1000 * (s.tables.fogTune.get i).period) } } := by simp [State.putStep]

/-- A step of a pattern changes the state of no station. -/
theorem State.putStep_states (i k j : Nat) :
    ((s.putStep i k).fog.stations.get j).state = (s.fog.stations.get j).state := by
  rw [State.putStep_fog, Tab.get_set]
  split
  · rename_i same
    rw [same.1]
  · rfl

theorem State.fogStep_upToDate (h : s.fog.UpToDate s.tables) (i : Nat) :
    s.fogStep i = s.putStep i (((s.fog.stations.get i).step + 1) % 16) := by
  have upToDate (k : Nat) : (s.putStep i k).fog.UpToDate (s.putStep i k).tables := by
    have tables : (s.putStep i k).tables = s.tables := by simp
    rw [tables]
    exact h.of_states (State.putStep_states i k) (by rw [State.putStep_fog]) (by rw [State.putStep_fog])
  rw [State.fogStep, State.publishFog_upToDate (upToDate _)]
  exact State.asSeries_writeDemandTo rfl _ _

section expiry
variable (hr : s.running = true)
include hr

theorem exec_patternStepExpiry {i : Fin 8} (hu : s.tables.stationInUse i = true)
    (ht : (s.fog.stations.get i).timer.isSome = true) : exec (.patternStepExpiry i) s = .next (s.fogStep i) :=
  congrArg Host.Outcome.next (if_pos (by simp [hr, hu, ht]))

theorem exec_dehumidRunExpiry (ht : s.fog.runTimer.isSome = true) : exec .dehumidRunExpiry s = .next s.runTimerEnds :=
  congrArg Host.Outcome.next (if_pos (by simp [hr, ht]))

theorem exec_dehumidRestExpiry (ht : s.fog.restTimer.isSome = true) :
    exec .dehumidRestExpiry s = .next s.restTimerEnds := congrArg Host.Outcome.next (if_pos (by simp [hr, ht]))

end expiry

/-- Behind a unit put to rest, or run, there is nothing new to publish. -/
theorem State.publishFog_dehumidRest (h : s.fog.UpToDate s.tables) : s.dehumidRest.publishFog = s.dehumidRest := by
  refine State.publishFog_upToDate ?_
  simp only [State.dehumidRest, State.writeDemandTo_frame]
  exact h.of_states (fun _ => rfl) rfl rfl

theorem State.publishFog_dehumidRun (h : s.fog.UpToDate s.tables) : s.dehumidRun.publishFog = s.dehumidRun := by
  refine State.publishFog_upToDate ?_
  simp only [State.dehumidRun, State.writeDemandTo_frame]
  exact h.of_states (fun _ => rfl) rfl rfl

section timers
variable (h : s.fog.UpToDate s.tables)
include h

theorem State.runTimerEnds_idle (hd : s.fog.demand = 0) :
    s.runTimerEnds = State.dehumidRest { s with fog := { s.fog with runTimer := none } } := by
  rw [State.runTimerEnds]
  dsimp only
  rw [if_pos hd]
  exact State.publishFog_dehumidRest (h.of_states (fun _ => rfl) rfl rfl)

theorem State.runTimerEnds_asked (hd : 0 < s.fog.demand) :
    s.runTimerEnds = { s with fog := { s.fog with runTimer := none, served := true } } := by
  rw [State.runTimerEnds]
  dsimp only
  rw [if_neg (by omega)]
  exact State.publishFog_upToDate (h.of_states (fun _ => rfl) rfl rfl)

theorem State.restTimerEnds_idle (hd : s.fog.demand = 0) :
    s.restTimerEnds = { s with fog := { s.fog with restTimer := none, unitState := .off } } := by
  rw [State.restTimerEnds]
  dsimp only
  rw [if_pos hd]
  exact State.publishFog_upToDate (h.of_states (fun _ => rfl) rfl rfl)

theorem State.restTimerEnds_asked (hd : 0 < s.fog.demand) :
    s.restTimerEnds = State.dehumidRun { s with fog := { s.fog with restTimer := none } } := by
  rw [State.restTimerEnds]
  dsimp only
  rw [if_neg (by omega)]
  exact State.publishFog_dehumidRun (h.of_states (fun _ => rfl) rfl rfl)

end timers

/-! ### A notice of a point (R66, R67) -/

theorem Tables.stationsOf_eq (t : Tables) (p : Nat) : t.stationsOf p = (List.range 8).filter fun i =>
    t.stationInUse i && ((t.fogMap.get i).humidity.get == some p || (t.fogMap.get i).air.get == some p ||
      (t.fogMap.get i).chill.get == some p) := by
  simp only [Tables.stationsOf, Tables.stationsInUse, List.filter_filter, Bool.and_comm]

theorem State.fogPoint_unnamed {p : Nat} (h : s.tables.stationsOf p = []) : s.fogPoint p = s := by
  simp only [State.fogPoint, h]

theorem State.fogPoint_named {p : Nat} (h : s.tables.stationsOf p ≠ []) :
    s.fogPoint p = s.asSeries ((s.tables.stationsOf p).foldl State.evaluateStation s).publishFog := by
  unfold State.fogPoint
  split
  · exact absurd ‹_› h
  · rfl

/-! ### The evaluation of a station (R67 to R72) -/

theorem Quality.usable_iff (q : Quality) : q.usable = true ↔ q = .good ∨ q = .suspect := by simp [Quality.usable]

theorem State.pointValue_usable {p : Nat} {v : Int} (h : (s.points.runs.get p).quality = .good ∨
    (s.points.runs.get p).quality = .suspect) (hv : (s.points.runs.get p).value = some v) :
    s.pointValue p = some v := by
  rw [State.pointValue, if_pos ((Quality.usable_iff _).2 h), hv]

theorem State.pointValue_unusable {p : Nat} (h : ¬ ((s.points.runs.get p).quality = .good ∨
    (s.points.runs.get p).quality = .suspect)) : s.pointValue p = none :=
  if_neg fun hu => h ((Quality.usable_iff _).1 hu)

section station
variable {i h a c : Nat} (hh : (s.tables.fogMap.get i).humidity.get = some h)
  (ha : (s.tables.fogMap.get i).air.get = some a) (hc : (s.tables.fogMap.get i).chill.get = some c)
include hh ha hc

theorem State.stationInputs_usable {x y z : Int} (hx : s.pointValue h = some x) (hy : s.pointValue a = some y)
    (hz : s.pointValue c = some z) : s.stationInputs i =
      some (clampInt (-400) 600 y, clampInt (-400) 600 z, (clampInt 0 1000 x).toNat) := by
  simp only [State.stationInputs, hh, ha, hc, Option.bind_some, hx, hy, hz]

theorem State.stationInputs_unusable (hn : s.pointValue h = none ∨ s.pointValue a = none ∨ s.pointValue c = none) :
    s.stationInputs i = none := by
  simp only [State.stationInputs, hh, ha, hc, Option.bind_some]
  split
  · rename_i ht hc' hr
    simp [ht, hc', hr] at hn
  · rfl

end station

/-- R72: a new state restarts its pattern; an old one leaves what the evaluation found. -/
theorem State.putFogState_becomes {i : Nat} (hi : i < 8) {found : StationRun} {n : FogState}
    (hf : found.state = (s.fog.stations.get i).state) :
    (n = (s.fog.stations.get i).state → (s.setStation i found).putFogState i n = s.setStation i found) ∧
    (n ≠ (s.fog.stations.get i).state → (s.setStation i found).putFogState i n = State.writeDemandTo
      (State.raise (s.setStation i { found with
        state := n, step := 0, timer := some (1000 * (s.tables.fogTune.get i).period) }) .fogChanged)
      (s.tables.fogTune.get i).fan.get ((s.tables.fogTune.get i).fanDemand n 0)) := by
  have got : (s.setStation i found).fog.stations.get i = found := Tab.get_set_self _ _ _ hi
  have moved : ((s.setStation i found).setStation i { found with state := n }).fog.stations.get i =
      { found with state := n } := Tab.get_set_self _ _ _ hi
  unfold State.putFogState
  dsimp only
  rw [got, hf]
  refine ⟨fun h => if_pos h, fun h => ?_⟩
  rw [if_neg h, State.putStep]
  simp only [State.raise_fog, State.raise_tables, State.setStation_tables, moved]
  simp [State.setStation, State.raise]

theorem State.evaluateStation_unusable {i : Nat} (h : s.stationInputs i = none) : s.evaluateStation i =
    (s.setStation i { s.fog.stations.get i with
      dewPoint := none, margin := none, lowE := false, highE := false }).putFogState i .unknown := by
  simp only [State.evaluateStation, h]

theorem State.evaluateStation_usable {i : Nat} {t c : Int} {rh : Nat} (h : s.stationInputs i = some (t, c, rh)) :
    let d := dewPoint s.tables.saturation (vapourPressure (saturationAt s.tables.saturation t) rh)
    s.evaluateStation i =
      (s.setStation i { s.fog.stations.get i with
        dewPoint := some d.td, margin := some (c - d.td), lowE := d.lowE, highE := d.highE }).putFogState i
        ((s.tables.fogTune.get i).nextState (s.fog.stations.get i).state (c - d.td)) := by
  simp only [State.evaluateStation, h]

/-! ### All of it -/

/-- Settles O39, event by event. -/
theorem fogTimersExpire : Obligations.FogTimersExpire := by
  refine ⟨fun i s hr hu ht hd hp => ?step, fun s hr hd hp => ⟨fun ht h0 => ?runIdle, fun ht h0 => ?runAsked,
      fun ht h0 => ?restIdle, fun ht h0 => ?restAsked⟩,
    fun s p => ?notice, fun s i h a c hi hh ha hc => ?evaluation, fun s => ?publication⟩
  case step =>
    intro r st step hlt
    have next : (st.step + 1) % 16 = step := by
      show _ = if st.step = 15 then 0 else st.step + 1
      split <;> omega
    rw [exec_patternStepExpiry hr hu ht, State.fogStep_upToDate ⟨hd, hp⟩ i, next]
    rfl
  case runIdle => exact (exec_dehumidRunExpiry hr ht).trans (congrArg _ (State.runTimerEnds_idle ⟨hd, hp⟩ h0))
  case runAsked => exact (exec_dehumidRunExpiry hr ht).trans (congrArg _ (State.runTimerEnds_asked ⟨hd, hp⟩ h0))
  case restIdle => exact (exec_dehumidRestExpiry hr ht).trans (congrArg _ (State.restTimerEnds_idle ⟨hd, hp⟩ h0))
  case restAsked => exact (exec_dehumidRestExpiry hr ht).trans (congrArg _ (State.restTimerEnds_asked ⟨hd, hp⟩ h0))
  case notice =>
    intro names reached
    have all : s.tables.stationsOf p = reached := s.tables.stationsOf_eq p
    rw [← all]
    exact ⟨State.fogPoint_unnamed, State.fogPoint_named⟩
  case evaluation =>
    intro r st usable becomes
    refine ⟨fun hn => ?_, fun x y z hu1 hu2 hu3 hx hy hz => ?_⟩
    · have none_found : s.stationInputs i = none := State.stationInputs_unusable hh ha hc
        (hn.imp State.pointValue_unusable (Or.imp State.pointValue_unusable State.pointValue_unusable))
      simp only [becomes]
      rw [State.evaluateStation_unusable none_found]
      exact State.putFogState_becomes hi rfl
    · have found := State.stationInputs_usable hh ha hc (State.pointValue_usable hu1 hx)
        (State.pointValue_usable hu2 hy) (State.pointValue_usable hu3 hz)
      intro d m
      simp only [becomes]
      rw [State.evaluateStation_usable found]
      exact State.putFogState_becomes hi rfl
  case publication =>
    intro inUse demand before u
    have hd : demand = publishedDemand s.tables s.fog := by
      rw [publishedDemand_eq]
      refine congrArg (List.foldl max 0) (List.map_congr_left fun i _ => ?_)
      cases (s.fog.stations.get i).state <;> rfl
    have hu : u = s.published := by
      simp only [u, hd]
      rfl
    clear_value demand u
    subst hd hu
    refine ⟨fun off zero rise => State.publishFog_runs off zero rise, fun running served rise zero => ?_,
      fun h1 h2 => State.publishFog_leaves h1 h2⟩
    rw [State.publishFog_rests running served rise zero, State.dehumidRest, ← served]
    rfl

end Sys2Proof.Machine
end
section
/-! The heat available (R89, R90): its formula, and the points a pass finds it from. -/

namespace Sys2Proof.Machine

open Sys2Proof

variable {s : State}

theorem toNat_clampInt_zero (hi z : Int) : ((clampInt 0 hi z).toNat : Int) = max 0 (min z hi) :=
  Int.toNat_of_nonneg (le_max_left ..)

theorem heatAvailable_eq (f ts tr : Int) (k : Nat) : (heatAvailable f ts tr k : Int) =
    min 4000 (max 0 (min f 10000) * max 0 (min (ts - tr) 500) * k / 100000) := by
  simp only [heatAvailable, Nat.cast_min, Nat.cast_ofNat, Int.natCast_ediv, Nat.cast_mul, toNat_clampInt_zero]

section measured
variable {p q r : Nat} (hp : s.tables.dispatch.flow.get = some p) (hq : s.tables.dispatch.supply.get = some q)
  (hr : s.tables.dispatch.ret.get = some r)
include hp hq hr

theorem State.heatMeasured_usable {f ts tr : Int} (hf : s.pointValue p = some f) (hts : s.pointValue q = some ts)
    (htr : s.pointValue r = some tr) :
    s.heatMeasured = some (heatAvailable f ts tr s.tables.dispatch.factor) := by
  simp only [State.heatMeasured, hp, hq, hr, Option.bind_some, hf, hts, htr]

theorem State.heatMeasured_unusable (hn : s.pointValue p = none ∨ s.pointValue q = none ∨ s.pointValue r = none) :
    s.heatMeasured = none := by
  simp only [State.heatMeasured, hp, hq, hr, Option.bind_some]
  split
  · rename_i hf hts htr
    simp [hf, hts, htr] at hn
  · rfl

end measured

/-- Settles O40: the formula carried over to the integers, and a pass's points read by `State.pointValue`. -/
theorem heatAvailableFormula : Obligations.HeatAvailableFormula := by
  refine ⟨heatAvailable_eq, fun s p q r hp hq hr => ?_⟩
  intro usable holds
  have value {i : Nat} {v : Int} (hu : usable i) (hv : holds i v) : s.pointValue i = some v :=
    State.pointValue_usable ((Quality.usable_iff _).1 hu) hv
  have lost {i : Nat} (hn : ¬ usable i) : s.pointValue i = none :=
    State.pointValue_unusable fun h => hn ((Quality.usable_iff _).2 h)
  refine ⟨fun f ts tr up uq ur hf hts htr => ?_, fun hn => ?_⟩
  · exact State.heatMeasured_usable hp hq hr (value up hf) (value uq hts) (value ur htr)
  · exact State.heatMeasured_unusable hp hq hr (hn.imp lost (Or.imp lost lost))

end Sys2Proof.Machine
end
section
/-! A class shared by weight (R94): the grants of one sink in a list of grants, the rounds that `shareRounds` runs, and what
such a sharing gives to each sink and in all. -/

namespace Sys2Proof.Machine

open Sys2Proof

/-! ### The grant of one sink in a list of grants -/

section grants
variable {i : Nat}

theorem grantOf_cons (g : Nat × Nat) (l : List (Nat × Nat)) (i : Nat) :
    grantOf (g :: l) i = if g.1 = i then g.2 else grantOf l i := by
  by_cases h : g.1 = i <;> simp [grantOf, h]

theorem grantOf_absent {l : List (Nat × Nat)} (h : i ∉ l.map Prod.fst) : grantOf l i = 0 := by
  induction l with
  | nil => rfl
  | cons g l ih =>
    obtain ⟨hg, hl⟩ := not_or.1 (mt List.mem_cons.2 h)
    rw [grantOf_cons, if_neg (Ne.symm hg), ih hl]

theorem grantOf_append_right {a : List (Nat × Nat)} (h : i ∉ a.map Prod.fst) (b : List (Nat × Nat)) :
    grantOf (a ++ b) i = grantOf b i := by
  induction a with
  | nil => rfl
  | cons g a ih =>
    obtain ⟨hg, ha⟩ := not_or.1 (mt List.mem_cons.2 h)
    rw [List.cons_append, grantOf_cons, if_neg (Ne.symm hg), ih ha]

theorem grantOf_append_left {a : List (Nat × Nat)} (h : i ∈ a.map Prod.fst) (b : List (Nat × Nat)) :
    grantOf (a ++ b) i = grantOf a i := by
  induction a with
  | nil => exact absurd h List.not_mem_nil
  | cons g a ih =>
    rw [List.cons_append, grantOf_cons, grantOf_cons]
    split
    · rfl
    · exact ih ((List.mem_cons.1 h).resolve_left (Ne.symm ‹_›))

end grants

/-! ### A class served whole, and the last round of a class shared (R93, R94) -/

section claims
variable {u : List Claim}

/-- R93: each of the sinks granted its demand. -/
def serveWhole (u : List Claim) : List (Nat × Nat) := u.map fun c => (c.sink, c.demand)

theorem serveWhole_sinks (u : List Claim) : (serveWhole u).map Prod.fst = u.map Claim.sink := by
  simp [serveWhole, Function.comp_def]

theorem grantOf_serveWhole (nodup : (u.map Claim.sink).Nodup) {c : Claim} (hc : c ∈ u) :
    grantOf (serveWhole u) c.sink = c.demand := by
  induction u with
  | nil => exact absurd hc List.not_mem_nil
  | cons d u ih =>
    obtain ⟨hd, hu⟩ := List.nodup_cons.1 nodup
    rw [serveWhole, List.map_cons, grantOf_cons]
    obtain rfl | hc := List.mem_cons.1 hc
    · exact if_pos rfl
    · rw [if_neg fun same : d.sink = c.sink => hd (same ▸ List.mem_map_of_mem hc)]
      exact ih hu hc

theorem giveShares_sinks (rc w : Nat) (u : List Claim) : ∀ r,
    (giveShares rc w r u).map Prod.fst = u.map Claim.sink := by
  induction u with
  | nil => exact fun _ => rfl
  | cons c u ih => exact fun r => congrArg (c.sink :: ·) (ih (r - 1))

theorem grantOf_giveShares (nodup : (u.map Claim.sink).Nodup) (rc w : Nat) {c : Claim} : ∀ {r i : Nat}, u[i]? = some c →
    grantOf (giveShares rc w r u) c.sink = c.shareOf rc w + if i < r then 1 else 0 := by
  induction u with
  | nil => exact fun h => nomatch h
  | cons d u ih =>
    obtain ⟨hd, hu⟩ := List.nodup_cons.1 nodup
    intro r i hi
    rw [giveShares, grantOf_cons]
    cases i with
    | zero =>
      obtain rfl : d = c := by simpa using hi
      exact if_pos rfl
    | succ i =>
      have hc : u[i]? = some c := by simpa using hi
      rw [if_neg fun same : d.sink = c.sink => hd (same ▸ List.mem_map_of_mem (List.mem_of_getElem? hc)), ih hu hc]
      simp only [Nat.lt_sub_iff_add_lt]

/-! ### The rounds as they are run (R94) -/

/-- R94 step 3: the share of the sink reaches its demand. -/
def Claim.fits (rc w : Nat) (c : Claim) : Bool := decide (c.demand ≤ c.shareOf rc w)

theorem shareRounds_last {rc : Nat} (h : u.filter (Claim.fits rc (weightSum u)) = []) (fuel : Nat) :
    shareRounds (fuel + 1) rc u =
      giveShares rc (weightSum u) (rc - (u.map fun c => c.shareOf rc (weightSum u)).sum) u :=
  if_pos (List.isEmpty_iff.2 h)

theorem shareRounds_round {rc : Nat} (h : u.filter (Claim.fits rc (weightSum u)) ≠ []) (fuel : Nat) :
    shareRounds (fuel + 1) rc u = serveWhole (u.filter (Claim.fits rc (weightSum u))) ++
      shareRounds fuel (rc - demandSum (u.filter (Claim.fits rc (weightSum u))))
        (u.filter fun c => !c.fits rc (weightSum u)) :=
  if_neg fun none_ => h (List.isEmpty_iff.1 none_)

theorem shareRounds_sinks (fuel : Nat) : ∀ (rc : Nat) (u : List Claim) {i : Nat},
    i ∈ (shareRounds fuel rc u).map Prod.fst → i ∈ u.map Claim.sink := by
  induction fuel with
  | zero => exact fun rc u i h => absurd h List.not_mem_nil
  | succ fuel ih =>
    intro rc u i h
    by_cases none_ : u.filter (Claim.fits rc (weightSum u)) = []
    · rwa [shareRounds_last none_, giveShares_sinks] at h
    · rw [shareRounds_round none_, List.map_append, serveWhole_sinks, List.mem_append] at h
      obtain capped | left := h
      · exact (List.filter_sublist.map _).subset capped
      · exact (List.filter_sublist.map _).subset (ih _ _ left)

/-- A sharing looks at the grants of its own sinks alone. -/
theorem SharedByWeight.congr {rc : Nat} {g g' : Nat → Nat} (h : SharedByWeight rc u g) :
    (∀ c ∈ u, g' c.sink = g c.sink) → SharedByWeight rc u g' := by
  induction h with
  | last below given =>
    intro same
    exact .last below fun i c hi => (same c (List.mem_of_getElem? hi)).trans (given i c hi)
  | round split some_ served _ ih =>
    intro same
    refine .round split some_ (fun c hc => ?_) (ih fun c hc => same c ?_)
    · exact (same c (List.mem_of_mem_filter (split.1 ▸ hc))).trans (served c hc)
    · exact List.mem_of_mem_filter (split.2 ▸ hc)

/-- The rounds that `shareRounds` runs, with fuel for a round more than there are sinks, are the rounds of R94. -/
theorem shareRounds_shared (fuel : Nat) : ∀ (rc : Nat) (u : List Claim), (u.map Claim.sink).Nodup → u.length < fuel →
    SharedByWeight rc u (grantOf (shareRounds fuel rc u)) := by
  induction fuel with
  | zero => exact fun rc u _ h => absurd h (Nat.not_lt_zero _)
  | succ fuel ih =>
    intro rc u nodup enough
    by_cases none_ : u.filter (Claim.fits rc (weightSum u)) = []
    · rw [shareRounds_last none_]
      refine .last (fun c hc => ?_) fun i c hi => grantOf_giveShares nodup _ _ hi
      exact Nat.lt_of_not_le fun reached => List.filter_eq_nil_iff.1 none_ c hc (decide_eq_true reached)
    · rw [shareRounds_round none_]
      have nodup_filter (p : Claim → Bool) : ((u.filter p).map Claim.sink).Nodup :=
        nodup.sublist (List.filter_sublist.map _)
      have fewer : (u.filter fun c => !c.fits rc (weightSum u)).length < u.length := by
        have all := List.length_eq_length_filter_add (l := u) (Claim.fits rc (weightSum u))
        have pos := List.length_pos_iff.2 none_
        omega
      refine .round ⟨rfl, rfl⟩ none_ (fun c hc => ?_) ?_
      · rw [grantOf_append_left (by rw [serveWhole_sinks]; exact List.mem_map_of_mem hc)]
        exact grantOf_serveWhole (nodup_filter _) hc
      · refine (ih _ _ (nodup_filter _) (fewer.trans_le (Nat.le_of_lt_succ enough))).congr fun c hc => grantOf_append_right ?_ _
        rw [serveWhole_sinks, List.mem_map]
        rintro ⟨d, hd, same⟩
        obtain ⟨hdu, fits⟩ := List.mem_filter.1 hd
        obtain ⟨hcu, fails⟩ := List.mem_filter.1 hc
        obtain rfl : d = c := List.inj_on_of_nodup_map nodup hdu hcu same
        exact absurd fits (Bool.eq_false_iff.1 (Bool.not_eq_eq_eq_not.1 fails))

/-! ### What a sharing gives (R94) -/

/-- `r` times 1 kW, to the first sinks of a list. -/
theorem sum_with_residual (share g : Claim → Nat) (u : List Claim) : ∀ r,
    (∀ i c, u[i]? = some c → g c = share c + if i < r then 1 else 0) →
    (u.map g).sum = (u.map share).sum + min r u.length := by
  induction u with
  | nil => simp
  | cons c u ih =>
    intro r given
    have first : g c = share c + if 0 < r then 1 else 0 := given 0 c rfl
    have rest := ih (r - 1) fun i d hi => by
      rw [given (i + 1) d (by simpa using hi)]
      simp only [Nat.lt_sub_iff_add_lt]
    simp only [List.map_cons, List.sum_cons, List.length_cons, first, rest]
    split <;> omega

theorem weighted_sum (rc : Nat) (u : List Claim) : (u.map fun c => rc * c.weight).sum = rc * weightSum u :=
  List.sum_map_mul_left ..

theorem sum_shares_mul_le (rc w : Nat) (u : List Claim) :
    (u.map fun c => rc * c.weight / w).sum * w ≤ (u.map fun c => rc * c.weight).sum := by
  rw [← List.sum_map_mul_right]
  exact List.sum_le_sum fun c _ => Nat.div_mul_le_self ..

theorem le_sum_shares_mul {w : Nat} (hw : 0 < w) (rc : Nat) (u : List Claim) :
    (u.map fun c => rc * c.weight).sum ≤ ((u.map fun c => rc * c.weight / w).sum + u.length) * w := by
  have one_over : (u.map fun c => rc * c.weight / w).sum + u.length = (u.map fun c => rc * c.weight / w + 1).sum := by
    simp [List.sum_map_add]
  rw [one_over, ← List.sum_map_mul_right]
  refine List.sum_le_sum fun c _ => ?_
  exact (Nat.lt_mul_of_div_lt (Nat.lt_succ_self (rc * c.weight / w)) hw).le

/-- The shares do not exceed the heat. -/
theorem sum_shares_le {rc : Nat} (hw : 0 < weightSum u) : (u.map fun c => rc * c.weight / weightSum u).sum ≤ rc :=
  Nat.le_of_mul_le_mul_right ((sum_shares_mul_le ..).trans_eq (weighted_sum ..)) hw

/-- The residual is at most 1 kW for each sink. -/
theorem le_sum_shares {rc : Nat} (hw : 0 < weightSum u) :
    rc ≤ (u.map fun c => rc * c.weight / weightSum u).sum + u.length :=
  Nat.le_of_mul_le_mul_right ((weighted_sum ..).symm.trans_le (le_sum_shares_mul hw ..)) hw

theorem weightSum_pos (hw : ∀ c ∈ u, 1 ≤ c.weight) (hu : u ≠ []) : 0 < weightSum u := by
  obtain ⟨c, hc⟩ := List.exists_mem_of_ne_nil u hu
  exact (hw c hc).trans (List.le_sum_of_mem (List.mem_map_of_mem hc))

/-- The sinks whose share reaches their demand ask for no more than the heat. -/
theorem demandSum_fits_le {rc : Nat} (hw : 0 < weightSum u) : demandSum (u.filter (Claim.fits rc (weightSum u))) ≤ rc :=
  calc demandSum (u.filter (Claim.fits rc (weightSum u)))
    _ ≤ ((u.filter (Claim.fits rc (weightSum u))).map fun c => c.shareOf rc (weightSum u)).sum :=
      List.sum_le_sum fun _ hc => of_decide_eq_true (List.mem_filter.1 hc).2
    _ ≤ (u.map fun c => c.shareOf rc (weightSum u)).sum :=
      (List.filter_sublist.map _).sum_le_sum fun _ _ => Nat.zero_le _
    _ ≤ rc := sum_shares_le hw

/-- A sum over the sinks that leave and the sinks that stay. -/
theorem sum_capped_add_sum_left {p : Claim → Bool} {capped left : List Claim}
    (split : capped = u.filter p ∧ left = u.filter fun c => !p c) (f : Claim → Nat) :
    (capped.map f).sum + (left.map f).sum = (u.map f).sum := by
  rw [split.1, split.2]
  simpa using List.sum_map_filter_add_sum_map_filter_not (fun c => p c = true) f u

/-- A sharing grants no sink more than its demand. -/
theorem SharedByWeight.le_demand {rc : Nat} {g : Nat → Nat} (h : SharedByWeight rc u g) :
    ∀ c ∈ u, g c.sink ≤ c.demand := by
  induction h with
  | last below given =>
    intro c hc
    obtain ⟨i, hi⟩ := List.getElem?_of_mem hc
    have share := below c hc
    have grant := given i c hi
    split at grant <;> omega
  | @round rc u capped left grant split _ served _ ih =>
    intro c hc
    obtain ⟨rfl, rfl⟩ := split
    by_cases fits : c.demand ≤ rc * c.weight / (u.map Claim.weight).sum
    · exact (served c (List.mem_filter.2 ⟨hc, by simp [fits]⟩)).le
    · exact ih c (List.mem_filter.2 ⟨hc, by simp [fits]⟩)

/-- A sharing gives away all the heat, where the sinks ask for more than that. -/
theorem SharedByWeight.sum_eq {rc : Nat} {g : Nat → Nat} (h : SharedByWeight rc u g) : (∀ c ∈ u, 1 ≤ c.weight) →
    rc < demandSum u → (u.map fun c => g c.sink).sum = rc := by
  induction h with
  | @last rc u grant below given =>
    intro weights asked
    have hw : 0 < weightSum u := weightSum_pos weights fun none_ => by simp [none_, demandSum] at asked
    have total := sum_with_residual (fun c => rc * c.weight / weightSum u) (fun c => grant c.sink) u _ given
    have low : (u.map fun c => rc * c.weight / weightSum u).sum ≤ rc := sum_shares_le hw
    have high : rc ≤ (u.map fun c => rc * c.weight / weightSum u).sum + u.length := le_sum_shares hw
    simp only [weightSum] at total low high
    omega
  | @round rc u capped left grant split some_ served _ ih =>
    intro weights asked
    have hw : 0 < weightSum u := weightSum_pos weights fun none_ => some_ (by simp [split.1, none_])
    have capped_le : demandSum capped ≤ rc := split.1 ▸ demandSum_fits_le hw
    have demands : demandSum capped + demandSum left = demandSum u := sum_capped_add_sum_left split Claim.demand
    have rest : (left.map fun c => grant c.sink).sum = rc - demandSum capped :=
      ih (fun c hc => weights c (List.mem_of_mem_filter (split.2 ▸ hc))) (by unfold demandSum at *; omega)
    calc (u.map fun c => grant c.sink).sum
      _ = (capped.map fun c => grant c.sink).sum + (left.map fun c => grant c.sink).sum :=
        (sum_capped_add_sum_left split _).symm
      _ = demandSum capped + (rc - demandSum capped) := by rw [List.map_congr_left served, rest]; rfl
      _ = rc := Nat.add_sub_cancel' capped_le

end claims

end Sys2Proof.Machine
end
section
/-! The allocation of a pass (R93): the classes in their order, each served whole or shared by weight out of what the classes
before it leave. -/

namespace Sys2Proof.Machine

open Sys2Proof

/-! ### One class (R93) -/

/-- R93: the members of class `k`. -/
def classMembers (claims : List Claim) (k : Nat) : List Claim :=
  claims.filter fun c => c.cls == k && decide (0 < c.demand)

theorem mem_classMembers {claims : List Claim} {k : Nat} {c : Claim} :
    c ∈ classMembers claims k ↔ c ∈ claims ∧ c.cls = k ∧ 0 < c.demand := by
  simp [classMembers]

/-- R93: the grants of a class to which `r` is left. -/
def classGrants (r : Nat) (members : List Claim) : List (Nat × Nat) :=
  if demandSum members ≤ r then serveWhole members else shareRounds 9 r members

section members
variable {r : Nat} {members : List Claim}

theorem classGrants_fits (h : demandSum members ≤ r) : classGrants r members = serveWhole members := if_pos h

theorem classGrants_sinks {i : Nat} (h : i ∈ (classGrants r members).map Prod.fst) : i ∈ members.map Claim.sink := by
  unfold classGrants at h
  split at h
  · rwa [serveWhole_sinks] at h
  · exact shareRounds_sinks _ _ _ h

variable (nodup : (members.map Claim.sink).Nodup)
include nodup

theorem classGrants_shared (few : members.length ≤ 8) (h : r < demandSum members) :
    SharedByWeight r members (grantOf (classGrants r members)) := by
  rw [classGrants, if_neg (Nat.not_le.2 h)]
  exact shareRounds_shared 9 r members nodup (Nat.lt_succ_of_le few)

theorem classGrants_le_demand (few : members.length ≤ 8) {c : Claim} (hc : c ∈ members) :
    grantOf (classGrants r members) c.sink ≤ c.demand := by
  obtain fits | short := le_or_gt (demandSum members) r
  · rw [classGrants_fits fits, grantOf_serveWhole nodup hc]
  · exact (classGrants_shared nodup few short).le_demand c hc

/-- A class takes what it asks for, as far as there is heat left. -/
theorem classGrants_sum (few : members.length ≤ 8) (weights : ∀ c ∈ members, 1 ≤ c.weight) :
    (members.map fun c => grantOf (classGrants r members) c.sink).sum = min r (demandSum members) := by
  obtain fits | short := le_or_gt (demandSum members) r
  · rw [classGrants_fits fits, min_eq_right fits, List.map_congr_left fun c hc => grantOf_serveWhole nodup hc]
    rfl
  · rw [min_eq_left short.le]
    exact (classGrants_shared nodup few short).sum_eq weights short

end members

/-! ### The classes in their order (R93) -/

section allocation
variable {claims : List Claim}

theorem allocateClasses_cons (k : Nat) (ks : List Nat) (r : Nat) :
    allocateClasses (k :: ks) r claims = classGrants r (classMembers claims k) ++
      allocateClasses ks (r - demandSum (classMembers claims k)) claims := by
  rw [allocateClasses, classGrants]
  by_cases fits : demandSum (classMembers claims k) ≤ r
  · rw [if_pos fits]
    exact if_pos fits
  · rw [if_neg fits, Nat.sub_eq_zero_of_le (Nat.le_of_not_le fits)]
    exact if_neg fits

theorem allocateClasses_append (ks ls : List Nat) : ∀ r, allocateClasses (ks ++ ls) r claims =
    allocateClasses ks r claims ++
      allocateClasses ls (r - (ks.map fun k => demandSum (classMembers claims k)).sum) claims := by
  induction ks with
  | nil => exact fun _ => rfl
  | cons k ks ih =>
    intro r
    rw [List.cons_append, allocateClasses_cons, allocateClasses_cons, ih, List.append_assoc, Nat.sub_sub]
    rfl

/-- Only members of the classes taken are granted anything. -/
theorem allocateClasses_sinks {i : Nat} {ks : List Nat} : ∀ {r : Nat},
    i ∈ (allocateClasses ks r claims).map Prod.fst → ∃ k ∈ ks, ∃ c ∈ classMembers claims k, c.sink = i := by
  induction ks with
  | nil => exact fun h => absurd h List.not_mem_nil
  | cons k ks ih =>
    intro r h
    rw [allocateClasses_cons, List.map_append, List.mem_append] at h
    obtain here | later := h
    · exact ⟨k, List.mem_cons_self, List.mem_map.1 (classGrants_sinks here)⟩
    · obtain ⟨j, hj, member⟩ := ih later
      exact ⟨j, List.mem_cons_of_mem k hj, member⟩

/-- A sum over the claims of the classes below `n`. -/
def sumBelow (claims : List Claim) (n : Nat) (f : Claim → Nat) : Nat :=
  ((claims.filter fun c => decide (c.cls < n)).map f).sum

/-- The next class adds its members, where claims of no demand count for nothing. -/
theorem sumBelow_succ (n : Nat) {f : Claim → Nat} (hf : ∀ c ∈ claims, c.demand = 0 → f c = 0) :
    sumBelow claims (n + 1) f = sumBelow claims n f + ((classMembers claims n).map f).sum := by
  unfold sumBelow classMembers
  simp only [Nat.lt_succ_iff]
  induction claims with
  | nil => rfl
  | cons c claims ih =>
    have rest := ih fun d hd => hf d (List.mem_cons_of_mem c hd)
    have none_ := hf c List.mem_cons_self
    obtain below | rfl | above := Nat.lt_trichotomy c.cls n
    · simp [below, below.ne, below.le, rest, Nat.add_assoc]
    · obtain zero | pos := Nat.eq_zero_or_pos c.demand
      · simp [zero, none_ zero, rest]
      · simp [pos, rest, Nat.add_left_comm]
    · simp [above.not_ge, above.ne', above.not_gt, rest]

theorem sumBelow_demand (n : Nat) :
    sumBelow claims n Claim.demand = ((List.range n).map fun k => demandSum (classMembers claims k)).sum := by
  induction n with
  | zero => simp [sumBelow]
  | succ n ih => simp [sumBelow_succ n fun _ _ h => h, ih, List.range_succ, demandSum]

/-- Every claim stands below class 4. -/
theorem sumBelow_four (classes : ∀ c ∈ claims, c.cls ≤ 3) (f : Claim → Nat) : sumBelow claims 4 f = (claims.map f).sum := by
  rw [sumBelow, List.filter_eq_self.2 fun c hc => decide_eq_true (Nat.lt_succ_of_le (classes c hc))]

variable (nodup : (claims.map Claim.sink).Nodup)

theorem allocate_at_class {k : Nat} (hk : k ≤ 3) (h : Nat) : ∃ ks, k ∉ ks ∧ allocate h claims =
    allocateClasses (List.range k) h claims ++
      (classGrants (h - sumBelow claims k Claim.demand) (classMembers claims k) ++
        allocateClasses ks (h - sumBelow claims k Claim.demand - demandSum (classMembers claims k)) claims) := by
  have order : ∃ ks, k ∉ ks ∧ [0, 1, 2, 3] = List.range k ++ k :: ks := by
    interval_cases k
    · exact ⟨[1, 2, 3], by decide, rfl⟩
    · exact ⟨[2, 3], by decide, rfl⟩
    · exact ⟨[3], by decide, rfl⟩
    · exact ⟨[], by decide, rfl⟩
  obtain ⟨ks, out, order⟩ := order
  exact ⟨ks, out, by rw [allocate, order, allocateClasses_append, allocateClasses_cons, sumBelow_demand]⟩

include nodup

/-- A member of a class is granted by its own class alone. -/
theorem sink_notMem_otherClasses {ks : List Nat} {k : Nat} (hk : k ∉ ks) (r : Nat) {c : Claim}
    (hc : c ∈ classMembers claims k) : c.sink ∉ (allocateClasses ks r claims).map Prod.fst := by
  intro granted
  obtain ⟨j, hj, d, hd, same⟩ := allocateClasses_sinks granted
  obtain ⟨hcu, hck, -⟩ := mem_classMembers.1 hc
  obtain ⟨hdu, hdj, -⟩ := mem_classMembers.1 hd
  obtain rfl : d = c := List.inj_on_of_nodup_map nodup hdu hcu same
  exact hk (hck ▸ hdj ▸ hj)

theorem grantOf_allocate {k : Nat} (hk : k ≤ 3) (h : Nat) {c : Claim} (hc : c ∈ classMembers claims k) :
    grantOf (allocate h claims) c.sink =
      grantOf (classGrants (h - sumBelow claims k Claim.demand) (classMembers claims k)) c.sink := by
  obtain ⟨ks, out, order⟩ := allocate_at_class (claims := claims) hk h
  rw [order, grantOf_append_right (sink_notMem_otherClasses nodup List.not_mem_range_self _ hc)]
  by_cases granted : c.sink ∈ (classGrants (h - sumBelow claims k Claim.demand) (classMembers claims k)).map Prod.fst
  · exact grantOf_append_left granted _
  · rw [grantOf_append_right granted, grantOf_absent granted, grantOf_absent (sink_notMem_otherClasses nodup out _ hc)]

theorem grantOf_allocate_idle (h : Nat) {c : Claim} (hc : c ∈ claims) (idle : c.demand = 0) :
    grantOf (allocate h claims) c.sink = 0 := by
  refine grantOf_absent fun granted => ?_
  obtain ⟨k, -, d, hd, same⟩ := allocateClasses_sinks granted
  obtain ⟨hd, -, pos⟩ := mem_classMembers.1 hd
  rw [List.inj_on_of_nodup_map nodup hd hc same] at pos
  omega

theorem nodup_classMembers (k : Nat) : ((classMembers claims k).map Claim.sink).Nodup :=
  nodup.sublist (List.filter_sublist.map _)

omit nodup in
theorem length_classMembers (few : claims.length ≤ 8) (k : Nat) : (classMembers claims k).length ≤ 8 :=
  (List.length_filter_le _ _).trans few

/-- The classes below `n` take what they ask for, as far as there is heat. -/
theorem allocate_sumBelow (few : claims.length ≤ 8) (weights : ∀ c ∈ claims, 1 ≤ c.weight) (h : Nat) {n : Nat}
    (hn : n ≤ 4) : sumBelow claims n (fun c => grantOf (allocate h claims) c.sink) =
      min h (sumBelow claims n Claim.demand) := by
  induction n with
  | zero => simp [sumBelow]
  | succ n ih =>
    have taken : ((classMembers claims n).map fun c => grantOf (allocate h claims) c.sink).sum =
        min (h - sumBelow claims n Claim.demand) (demandSum (classMembers claims n)) := by
      rw [List.map_congr_left fun c hc => grantOf_allocate nodup (by omega) h hc]
      exact classGrants_sum (nodup_classMembers nodup n) (length_classMembers few n)
        fun c hc => weights c (mem_classMembers.1 hc).1
    rw [sumBelow_succ n fun c hc => grantOf_allocate_idle nodup h hc, sumBelow_succ n fun _ _ idle => idle,
      ih (by omega), taken, demandSum]
    omega

end allocation

/-- Settles O41: each claim is granted by its own class, out of what the classes before it leave (`grantOf_allocate`), and
the classes take in turn what they ask for, as far as there is heat (`allocate_sumBelow`). -/
theorem allocationExact : Obligations.AllocationExact := by
  intro h claims few nodup fields
  have classes (c) (hc : c ∈ claims) : c.cls ≤ 3 := (fields c hc).2
  have nodup' := nodup_classMembers nodup
  have few' := length_classMembers few
  refine ⟨fun c hc => ?_, ?_, fun cls hcls => ?_⟩
  · obtain idle | pos := Nat.eq_zero_or_pos c.demand
    · exact (grantOf_allocate_idle nodup h hc idle).trans_le (Nat.zero_le _)
    · have member : c ∈ classMembers claims c.cls := mem_classMembers.2 ⟨hc, rfl, pos⟩
      rw [grantOf_allocate nodup (classes c hc) h member]
      exact classGrants_le_demand (nodup' _) (few' _) member
  · rw [← sumBelow_four classes, ← sumBelow_four classes]
    exact allocate_sumBelow nodup few (fun c hc => (fields c hc).1) h le_rfl
  · intro before members asked
    have own (c) (hc : c ∈ members) : grantOf (allocate h claims) c.sink =
      grantOf (classGrants (h - before) members) c.sink := grantOf_allocate nodup hcls h hc
    refine ⟨fun fits c hc => ?_, fun reached short => ?_, fun spent c hc => ?_⟩
    · have fits : demandSum members ≤ h - before := Nat.le_sub_of_add_le' fits
      rw [own c hc, classGrants_fits fits]
      exact grantOf_serveWhole (nodup' cls) hc
    · have short : h - before < demandSum members := Nat.sub_lt_left_of_lt_add reached short
      exact (classGrants_shared (nodup' cls) (few' cls) short).congr own
    · have given := classGrants_sum (r := h - before) (nodup' cls) (few' cls) fun d hd =>
        (fields d (mem_classMembers.1 hd).1).1
      rw [Nat.sub_eq_zero_of_le spent.le, Nat.zero_min] at given
      rw [own c hc, Nat.sub_eq_zero_of_le spent.le]
      exact List.sum_eq_zero_iff.1 given _ (List.mem_map_of_mem hc)

end Sys2Proof.Machine
end
section
/-! The dispatch pass (R86 to R97): what it leaves of each part, the demands and classes it reads, and the arrivals that make
it (R87). -/

namespace Sys2Proof.Machine

open Sys2Proof

variable {s : State}

/-! ### A series of writes and the segment master (R29) -/

/-- The segment master without what an event of the image changes. -/
def State.besideQueue (s : State) : Segment := { s.seg with urgent := [], log := [] }

theorem State.seg_eq_of_besideQueue {t : State} (h : t.besideQueue = s.besideQueue) :
    t.seg = { s.seg with urgent := t.seg.urgent, log := t.seg.log } :=
  congrArg (fun g : Segment => { g with urgent := t.seg.urgent, log := t.seg.log }) h

theorem State.writeDemand_besideQueue (s : State) (ch level : Nat) :
    (s.writeDemand ch level).besideQueue = s.besideQueue := by
  unfold State.besideQueue
  obtain h | ⟨offers, h⟩ := s.writeDemand_seg ch level <;> rw [h]

theorem State.writeSeries_besideQueue (s : State) (writes : List (Nat × Nat)) :
    (s.writeSeries writes).besideQueue = s.besideQueue :=
  foldl_keep State.besideQueue (fun (t : State) (w : Nat × Nat) => t.writeDemand_besideQueue w.1 w.2) writes s

/-! ### Demands, classes and claims (R91, R92) -/

theorem Tables.sinkInUse_iff {t : Tables} {i : Nat} : t.sinkInUse i = true ↔ i < 8 ∧ (t.sinkMap.get i).kind ≠ .unused := by
  simp [Tables.sinkInUse, SinkMapRec.inUse]

theorem Tables.mem_sinksInUse {t : Tables} {i : Nat} :
    i ∈ t.sinksInUse ↔ i < 8 ∧ (t.sinkMap.get i).kind ≠ .unused := by
  rw [Tables.sinksInUse, List.mem_filter, Tables.sinkInUse_iff, List.mem_range, ← and_assoc, and_self]

theorem Tables.sinksInUse_eq (t : Tables) :
    t.sinksInUse = (List.range 8).filter fun i => (t.sinkMap.get i).kind != .unused := by
  refine List.filter_congr fun i hi => ?_
  simp [Tables.sinkInUse, SinkMapRec.inUse, List.mem_range.1 hi]

theorem eligibleSum_eq (z : ZoneUnit) : eligibleSum z = ((List.range 16).map fun i => (z.runs.get i).eligible).sum := by
  rw [eligibleSum, Tab.list_eq_map, List.map_map]
  rfl

section kinds
variable {i : Nat}

theorem State.sinkDemand_zones (h : (s.tables.sinkMap.get i).kind = .zones) : s.sinkDemand i =
    min (s.tables.sinkMap.get i).capacity ((List.range 16).map fun z => (s.zones.runs.get z).eligible).sum := by
  simp only [State.sinkDemand, h, eligibleSum_eq]

theorem State.sinkDemand_dehumid (h : (s.tables.sinkMap.get i).kind = .dehumid) : s.sinkDemand i =
    min (s.tables.sinkMap.get i).capacity (if s.fog.unitState = .running then s.fog.demand else 0) := by
  simp only [State.sinkDemand, h]

theorem State.sinkDemand_fixed (h : (s.tables.sinkMap.get i).kind = .fixed) : s.sinkDemand i =
    min (s.tables.sinkMap.get i).capacity (s.tables.sinkTune.get i).fixedDemand := by
  simp only [State.sinkDemand, h]

theorem State.sinkDemand_measured (h : (s.tables.sinkMap.get i).kind = .proportional) {v : Int}
    (hv : s.pointValue (s.tables.sinkMap.get i).input = some v) : s.sinkDemand i =
      min (s.tables.sinkMap.get i).capacity
        ((max 0 ((s.tables.sinkTune.get i).setpoint - v)).toNat * (s.tables.sinkTune.get i).gain / 10) := by
  simp only [State.sinkDemand, h, hv]

theorem State.sinkDemand_unmeasured (h : (s.tables.sinkMap.get i).kind = .proportional)
    (hn : s.pointValue (s.tables.sinkMap.get i).input = none) :
    s.sinkDemand i = (s.tables.sinkMap.get i).capacity := by
  simp only [State.sinkDemand, h, hn, min_self]

theorem State.effectiveClass_promoted (h : (s.tables.sinkMap.get i).kind = .dehumid) (hp : s.fog.promotion = true) :
    s.effectiveClass i = 0 := if_pos ⟨h, hp⟩

theorem State.effectiveClass_tuned (h : (s.tables.sinkMap.get i).kind ≠ .dehumid ∨ s.fog.promotion = false) :
    s.effectiveClass i = (s.tables.sinkTune.get i).sinkClass :=
  if_neg fun ⟨hk, hp⟩ => h.elim (· hk) fun none_ => by simp [none_] at hp

end kinds

/-! ### The parts of a pass (R88) -/

/-- R93: the grants of a pass. -/
def State.passGrants (s : State) : List (Nat × Nat) := allocate (s.heatMeasured.getD 0) s.claims

/-- R97: each sink's result. -/
def State.passSinks (s : State) : Tab SinkResult 8 := s.heat.sinks.mapIdx fun i _ => s.sinkResult s.passGrants i

/-- R95: the slew state after the valves have moved. -/
def State.passValves (s : State) : Tab Nat 8 := s.heat.valves.mapIdx fun i v =>
  if s.tables.sinkInUse i then valveStep v (s.passSinks.get i).target (s.tables.sinkTune.get i).slew else 0

/-- R95: the writes to the valve channels. -/
def State.passWrites (s : State) : List (Nat × Nat) :=
  s.tables.sinksInUse.filterMap fun i => (s.tables.sinkMap.get i).valve.get.map fun ch => (ch, s.passValves.get i)

/-- R90: a BLIND pass behind one that was not, or behind none. -/
def State.newlyBlind (s : State) : Bool := s.heatMeasured.isNone && !(s.heat.passMade && s.heat.blind)

theorem State.newlyBlind_iff :
    s.newlyBlind = true ↔ s.heatMeasured = none ∧ (s.heat.passMade = false ∨ s.heat.blind = false) := by
  simp [State.newlyBlind, Option.isNone_iff_eq_none, -not_and]

theorem State.dispatchPass_heat : s.dispatchPass.heat = {
    available := s.heatMeasured.getD 0
    blind := s.heatMeasured.isNone
    sinks := s.passSinks
    ageMs := 0
    valves := s.passValves
    timer := some (1000 * s.tables.dispatch.period)
    arrivals := 0
    passMade := true } := by
  simp only [State.dispatchPass, State.raiseIf_frame, State.writeSeries_frame]
  rfl

theorem State.dispatchPass_zones : s.dispatchPass.zones =
    { s.zones with deliveries := s.zones.deliveries ++ [s.deliveryOf s.passSinks] } := by
  simp only [State.dispatchPass, State.raiseIf_frame, State.writeSeries_frame]
  rfl

theorem State.dispatchPass_image : s.dispatchPass.image = (s.writeSeries s.passWrites).image := by
  simp only [State.dispatchPass, State.raiseIf_frame]
  rfl

theorem State.dispatchPass_seg : s.dispatchPass.seg = (s.writeSeries s.passWrites).seg := by
  simp only [State.dispatchPass, State.raiseIf_frame]
  rfl

theorem State.raiseIf_trunk (s : State) (c : Bool) (f : EventFlag) :
    (s.raiseIf c f).trunk = if c then s.trunk.raise f s.tables.enables s.bracket.record else s.trunk := by
  cases c <;> rfl

theorem State.dispatchPass_trunk : s.dispatchPass.trunk =
    ((s.raiseIf s.newlyBlind .dispatchBlind).raiseIf (s.shortfall s.passSinks) .shortfall).trunk := by
  simp only [State.dispatchPass, State.raiseIf_trunk, State.raiseIf_frame, State.writeSeries_frame]
  rfl

/-- Nothing else changes in a pass. -/
theorem State.dispatchPass_rest (s : State) : s.dispatchPass = { s with
    heat := s.dispatchPass.heat
    zones := s.dispatchPass.zones
    trunk := s.dispatchPass.trunk
    image := s.dispatchPass.image
    seg := { s.seg with urgent := s.dispatchPass.seg.urgent, log := s.dispatchPass.seg.log } } := by
  have seg : s.dispatchPass.seg =
      { s.seg with urgent := s.dispatchPass.seg.urgent, log := s.dispatchPass.seg.log } := by
    rw [State.dispatchPass_seg]
    exact State.seg_eq_of_besideQueue (s.writeSeries_besideQueue _)
  obtain ⟨pending, power, loader, tables, memory, points, watch, fog, store, engines, bracket⟩ := s.dispatchPass_frame
  rw [← seg, ← pending, ← power, ← loader, ← tables, ← memory, ← points, ← watch, ← fog, ← store, ← engines, ← bracket]

/-! ### Results and valves, sink by sink (R88, R95) -/

section sink
variable {i : Nat} (hi : i < 8)
include hi

theorem State.passSinks_inUse (hu : s.tables.sinkInUse i = true) : s.passSinks.get i =
    ⟨s.sinkDemand i, s.effectiveClass i, grantOf s.passGrants i,
      valveTarget (grantOf s.passGrants i) (s.tables.sinkMap.get i).capacity⟩ := by
  rw [State.passSinks, Tab.get_mapIdx _ _ _ hi]
  exact if_pos hu

theorem State.passSinks_unused (hu : s.tables.sinkInUse i = false) :
    s.passSinks.get i = ⟨0, (s.tables.sinkTune.get i).sinkClass, 0, 0⟩ := by
  rw [State.passSinks, Tab.get_mapIdx _ _ _ hi]
  exact if_neg (by simp [hu])

theorem State.passValves_inUse (hu : s.tables.sinkInUse i = true) : s.passValves.get i =
    valveStep (s.heat.valves.get i) (s.passSinks.get i).target (s.tables.sinkTune.get i).slew := by
  rw [State.passValves, Tab.get_mapIdx _ _ _ hi]
  exact if_pos hu

theorem State.passValves_unused (hu : s.tables.sinkInUse i = false) : s.passValves.get i = 0 := by
  rw [State.passValves, Tab.get_mapIdx _ _ _ hi]
  exact if_neg (by simp [hu])

end sink

/-! ### The hand-over to the zone controller and the shortfall (R96, R105) -/

theorem State.deliveryOf_offered (r : Tab SinkResult 8) {z : Nat} (hz : z < 16) :
    (s.deliveryOf r).offered.get z = (s.zones.runs.get z).eligible := Tab.get_map _ _ _ hz

theorem Tables.firstZones_eq (t : Tables) : (t.sinksInUse.find? fun i => (t.sinkMap.get i).kind == .zones) =
    (List.range 8).find? fun i => (t.sinkMap.get i).kind == .zones := by
  rw [Tables.sinksInUse_eq, List.find?_filter]
  refine congrArg (List.find? · _) (funext fun i => ?_)
  cases h : (t.sinkMap.get i).kind <;> simp

/-- R105: the grant of the first sink of kind ZONES. -/
theorem State.deliveryOf_grant (r : Tab SinkResult 8) {i : Nat} (hi : i < 8) (hk : (s.tables.sinkMap.get i).kind = .zones)
    (first : ∀ j, j < i → (s.tables.sinkMap.get j).kind ≠ .zones) : (s.deliveryOf r).grant = (r.get i).grant := by
  have found : (List.range 8).find? (fun i => (s.tables.sinkMap.get i).kind == .zones) = some i :=
    List.find?_range_eq_some.2 ⟨by simp [hk], List.mem_range.2 hi, fun j hj => by simpa using first j hj⟩
  simp only [State.deliveryOf, Tables.firstZones_eq, found]

theorem State.deliveryOf_noZones (r : Tab SinkResult 8)
    (none_ : ∀ i, i < 8 → (s.tables.sinkMap.get i).kind ≠ .zones) : (s.deliveryOf r).grant = 0 := by
  have found : (List.range 8).find? (fun i => (s.tables.sinkMap.get i).kind == .zones) = none :=
    List.find?_eq_none.2 fun i hi => by simpa using none_ i (List.mem_range.1 hi)
  simp only [State.deliveryOf, Tables.firstZones_eq, found]

theorem State.shortfall_iff (r : Tab SinkResult 8) : s.shortfall r = true ↔
    ∃ i, i < 8 ∧ (s.tables.sinkMap.get i).kind = .proportional ∧
      isSet (s.tables.sinkMap.get i).essential = true ∧ (r.get i).grant < (r.get i).demand := by
  simp only [State.shortfall, List.any_eq_true, Tables.mem_sinksInUse, Bool.and_eq_true, beq_iff_eq, decide_eq_true_eq]
  refine exists_congr fun i => ⟨?_, ?_⟩
  · rintro ⟨⟨hi, -⟩, ⟨kind, essential⟩, short⟩
    exact ⟨hi, kind, essential, short⟩
  · rintro ⟨hi, kind, essential, short⟩
    exact ⟨⟨hi, by simp [kind]⟩, ⟨kind, essential⟩, short⟩

theorem State.dispatchPass_blindSet (h : s.newlyBlind = true) :
    EventFlag.dispatchBlind.of s.dispatchPass.trunk.flags = true := by
  rw [State.dispatchPass_trunk]
  exact (State.raiseIf_flagsKept _ _ _).kept _ (State.raiseIf_sets _ h _)

/-! ### What makes a pass (R86, R87) -/

theorem exec_dispatchTimerExpiry (hl : s.live = true) (ha : s.heatActive = true) (ht : s.heat.timer.isSome = true) :
    exec .dispatchTimerExpiry s = .next s.dispatchPass := congrArg Host.Outcome.next (if_pos (by simp [hl, ha, ht]))

/-- R87: an update of point `p` is an arrival. -/
def State.arrivalAt (s : State) (p : Nat) : Prop :=
  s.heatActive = true ∧ s.tables.dispatch.trigger = .arrivals ∧ s.tables.dispatch.flow.get = some p

section arrival
variable {p : Nat}

theorem State.heatArrival_other (h : ¬ s.arrivalAt p) : s.heatArrival p = s := if_neg h

theorem State.heatArrival_counted (h : s.arrivalAt p) (hn : s.heat.arrivals + 1 ≠ s.tables.dispatch.arrivalCount) :
    s.heatArrival p = { s with heat := { s.heat with arrivals := s.heat.arrivals + 1 } } :=
  (if_pos h).trans (if_neg hn)

theorem State.heatArrival_pass (h : s.arrivalAt p) (hn : s.heat.arrivals + 1 = s.tables.dispatch.arrivalCount) :
    s.heatArrival p = s.dispatchPass := (if_pos h).trans (if_pos hn)

end arrival

/-! ### All of it -/

/-- Settles O42: the next state is `State.dispatchPass`, whose parts are said above one by one; an arrival makes the same. -/
theorem dispatchPassMade : Obligations.DispatchPassMade := by
  refine ⟨fun s hl ha ht => ⟨s.dispatchPass, exec_dispatchTimerExpiry hl ha ht, ?pass⟩, fun s i => ?demands,
    fun s => ?claims, fun s p => ?arrivals⟩
  case pass =>
    have heat := State.dispatchPass_heat (s := s)
    have sinks : s.dispatchPass.heat.sinks = s.passSinks := congrArg HeatUnit.sinks heat
    have valves : s.dispatchPass.heat.valves = s.passValves := congrArg HeatUnit.valves heat
    refine ⟨congrArg HeatUnit.available heat, congrArg HeatUnit.blind heat, congrArg HeatUnit.ageMs heat,
      congrArg HeatUnit.arrivals heat, congrArg HeatUnit.timer heat, fun i hi hu => ?inUse,
      ⟨s.deliveryOf s.passSinks, State.dispatchPass_zones, fun z => State.deliveryOf_offered _, ?zones,
        State.deliveryOf_noZones _⟩,
      fun i hi hu => ?unused, congrArg HeatUnit.passMade heat,
      ⟨s.passWrites, ?writes, State.dispatchPass_image, State.dispatchPass_seg⟩, fun blind short hb hs => ?flags,
      fun measured before => State.dispatchPass_blindSet (State.newlyBlind_iff.2 ⟨measured, before⟩),
      s.dispatchPass_rest⟩
    case inUse =>
      rw [sinks, valves]
      have result := State.passSinks_inUse hi hu
      exact ⟨congrArg SinkResult.demand result, congrArg SinkResult.effClass result, congrArg SinkResult.grant result,
        by rw [result]; rfl, State.passValves_inUse hi hu⟩
    case zones =>
      rw [sinks]
      exact fun i => State.deliveryOf_grant _
    case unused =>
      rw [sinks, valves]
      exact ⟨State.passValves_unused hi hu, State.passSinks_unused hi hu⟩
    case writes =>
      rw [valves]
      rfl
    case flags =>
      rw [sinks] at hs
      obtain rfl : blind = s.newlyBlind := Bool.eq_iff_iff.2 (hb.trans State.newlyBlind_iff.symm)
      obtain rfl : short = s.shortfall s.passSinks := Bool.eq_iff_iff.2 (hs.trans (State.shortfall_iff _).symm)
      rw [State.dispatchPass_trunk]
      exact ⟨rfl, fun h => State.raiseIf_sets _ h _⟩
  case demands =>
    refine ⟨State.sinkDemand_zones, State.sinkDemand_dehumid, ?_, ?_, State.sinkDemand_fixed,
      State.effectiveClass_promoted, State.effectiveClass_tuned⟩
    · exact fun v hk usable hv => State.sinkDemand_measured hk (State.pointValue_usable usable hv)
    · exact fun hk lost => State.sinkDemand_unmeasured hk (State.pointValue_unusable lost)
  case claims => rw [State.claims, Tables.sinksInUse_eq]
  case arrivals =>
    refine ⟨State.heatArrival_other, State.heatArrival_counted, fun counted hn hl ht => ?_⟩
    rw [State.heatArrival_pass counted hn]
    exact exec_dispatchTimerExpiry hl counted.1 ht

end Sys2Proof.Machine
end
section
/-! The split of a grant among the zones (R106): the residual handed out along a list, and the shares of the zones. -/

namespace Sys2Proof.Machine

open Sys2Proof

/-! ### The residual handed out (R106 step 3) -/

/-- R106 step 3: the zone's share is below its offered demand. -/
def hasRoom (e : Nat × Nat) : Bool := decide (e.2 < e.1)

theorem giveResidual_cons (r : Nat) (e : Nat × Nat) (l : List (Nat × Nat)) : giveResidual r (e :: l) =
    (e.2 + if hasRoom e ∧ 0 < r then 1 else 0) :: giveResidual (r - if hasRoom e then 1 else 0) l := by
  obtain ⟨offered, share⟩ := e
  rw [giveResidual]
  by_cases room : share < offered
  · obtain rfl | pos := Nat.eq_zero_or_pos r
    · simp [hasRoom]
    · simp [hasRoom, room, pos]
  · simp [hasRoom, room]

theorem giveResidual_length (l : List (Nat × Nat)) : ∀ r, (giveResidual r l).length = l.length := by
  induction l with
  | nil => exact fun _ => rfl
  | cons e l ih => exact fun r => by rw [giveResidual_cons, List.length_cons, ih, List.length_cons]

/-- 1 kW to each of the first `r` that have room. -/
theorem giveResidual_getElem? (l : List (Nat × Nat)) : ∀ r i, (giveResidual r l)[i]? =
    l[i]?.map fun e => e.2 + if hasRoom e ∧ (l.take i).countP hasRoom < r then 1 else 0 := by
  induction l with
  | nil => exact fun _ _ => rfl
  | cons e l ih =>
    intro r i
    rw [giveResidual_cons]
    cases i with
    | zero => rfl
    | succ i =>
      have before : ((e :: l).take (i + 1)).countP hasRoom < r ↔
          (l.take i).countP hasRoom < r - if hasRoom e then 1 else 0 := by
        rw [List.take_succ_cons, List.countP_cons]
        omega
      simp only [List.getElem?_cons_succ, ih, before]

theorem giveResidual_sum (l : List (Nat × Nat)) : ∀ r,
    (giveResidual r l).sum = (l.map Prod.snd).sum + min r (l.countP hasRoom) := by
  induction l with
  | nil => simp [giveResidual]
  | cons e l ih =>
    intro r
    rw [giveResidual_cons, List.sum_cons, ih, List.map_cons, List.sum_cons, List.countP_cons]
    by_cases room : hasRoom e = true
    · simp only [room, true_and, if_true]
      split <;> omega
    · simp [room, Nat.add_assoc]

/-! ### The shares before the residual (R106 step 2) -/

section floors
variable {grant total : Nat}

/-- Where nothing is offered nothing is shared. -/
theorem floorShare_nothing (grant : Nat) : floorShare grant 0 = fun _ => 0 := rfl

theorem floorShare_le (h : grant ≤ total) (offered : Nat) : floorShare grant total offered ≤ offered := by
  unfold floorShare
  split
  · exact Nat.zero_le _
  · exact Nat.div_le_of_le_mul (Nat.mul_le_mul_right _ h)

theorem floorShare_mul_le (offered : Nat) : floorShare grant total offered * total ≤ grant * offered := by
  unfold floorShare
  split
  · simp
  · exact Nat.div_mul_le_self ..

/-- What a zone's share falls short by is less than 1 kW, and nothing where it has no room. -/
theorem mul_le_floorShare_mul (h : grant ≤ total) (pos : 0 < total) (offered : Nat) : grant * offered ≤
    (floorShare grant total offered + if hasRoom (offered, floorShare grant total offered) then 1 else 0) * total := by
  simp only [hasRoom, decide_eq_true_eq]
  split
  · rw [floorShare, if_neg pos.ne']
    exact (Nat.lt_mul_of_div_lt (Nat.lt_succ_self _) pos).le
  · rename_i full
    rw [Nat.add_zero, Nat.mul_comm]
    exact Nat.mul_le_mul (Nat.le_of_not_lt full) h

end floors

/-- R106: what each entry of a list is offered, with its share before the residual. -/
def floorEntries (grant total : Nat) (l : List Nat) : List (Nat × Nat) := l.map fun e => (e, floorShare grant total e)

theorem floorEntries_shares (grant total : Nat) (l : List Nat) :
    (floorEntries grant total l).map Prod.snd = l.map (floorShare grant total) := by
  simp [floorEntries, Function.comp_def]

section sums
variable {grant : Nat} {l : List Nat}

theorem sum_floorShares_le (pos : 0 < l.sum) : (l.map (floorShare grant l.sum)).sum ≤ grant := by
  refine Nat.le_of_mul_le_mul_right ?_ pos
  calc (l.map (floorShare grant l.sum)).sum * l.sum
    _ = (l.map fun e => floorShare grant l.sum e * l.sum).sum := (List.sum_map_mul_right ..).symm
    _ ≤ (l.map fun e => grant * e).sum := List.sum_le_sum fun e _ => floorShare_mul_le e
    _ = grant * l.sum := by rw [List.sum_map_mul_left, List.map_id']

/-- What the shares fall short by is at most 1 kW for each zone with room. -/
theorem mul_sum_le_floorShares {total : Nat} (h : grant ≤ total) (pos : 0 < total) (l : List Nat) :
    grant * l.sum ≤
      ((l.map (floorShare grant total)).sum + (floorEntries grant total l).countP hasRoom) * total := by
  induction l with
  | nil => simp
  | cons e l ih =>
    have one := mul_le_floorShare_mul h pos e
    simp only [floorEntries, List.map_cons, List.sum_cons, List.countP_cons, Nat.mul_add, Nat.add_mul] at ih one ⊢
    linarith

theorem le_sum_floorShares (h : grant ≤ l.sum) (pos : 0 < l.sum) :
    grant ≤ (l.map (floorShare grant l.sum)).sum + (floorEntries grant l.sum l).countP hasRoom :=
  Nat.le_of_mul_le_mul_right (mul_sum_le_floorShares h pos l) pos

end sums

/-! ### The split (R106) -/

section split
variable (grant : Nat) (o : Tab Nat 16)

theorem splitShares_eq : splitShares grant o =
    giveResidual (splitResidual grant o) (floorEntries grant (offeredSum o) o.list) := rfl

theorem splitShares_length : (splitShares grant o).length = 16 :=
  (giveResidual_length ..).trans ((List.length_map ..).trans o.len)

theorem splitResidual_eq : splitResidual grant o = if offeredSum o = 0 then 0 else
    grant - ((List.range 16).map fun z => floorShare grant (offeredSum o) (o.get z)).sum := by
  rw [splitResidual, Tab.list_eq_map, List.map_map]
  rfl

variable {grant o}

/-- The residual finds a zone with room for each of its kW. -/
theorem splitShares_sum (h : grant ≤ offeredSum o) : (splitShares grant o).sum = grant := by
  rw [splitShares_eq, giveResidual_sum, floorEntries_shares, splitResidual]
  obtain nothing | pos := Nat.eq_zero_or_pos (offeredSum o)
  · obtain rfl : grant = 0 := by omega
    simp [nothing, floorShare_nothing]
  · have low : (o.list.map (floorShare grant (offeredSum o))).sum ≤ grant := sum_floorShares_le pos
    have high : grant ≤ (o.list.map (floorShare grant (offeredSum o))).sum +
        (floorEntries grant (offeredSum o) o.list).countP hasRoom := le_sum_floorShares h pos
    rw [if_neg pos.ne']
    omega

section share
variable {z : Nat} (hz : z < 16)
include hz

/-- The zones with room among the first ones. -/
theorem floorEntries_take (total : Nat) : ((floorEntries grant total o.list).take z).countP hasRoom =
    ((List.range z).filter fun y => decide (floorShare grant total (o.get y) < o.get y)).length := by
  rw [floorEntries, Tab.list_eq_map, ← List.map_take, ← List.map_take, List.take_range, Nat.min_eq_left hz.le,
    List.countP_map, List.countP_map, List.countP_eq_length_filter]
  rfl

theorem splitShares_getD : (splitShares grant o).getD z 0 = floorShare grant (offeredSum o) (o.get z) +
    if floorShare grant (offeredSum o) (o.get z) < o.get z ∧ ((List.range z).filter fun y =>
      decide (floorShare grant (offeredSum o) (o.get y) < o.get y)).length < splitResidual grant o then 1 else 0 := by
  have entry : (floorEntries grant (offeredSum o) o.list)[z]? =
      some (o.get z, floorShare grant (offeredSum o) (o.get z)) := by
    simp [floorEntries, Tab.list_eq_map, hz]
  rw [List.getD_eq_getElem?_getD, splitShares_eq, giveResidual_getElem?, entry, floorEntries_take hz]
  simp [hasRoom]

theorem splitShares_le (h : grant ≤ offeredSum o) : (splitShares grant o).getD z 0 ≤ o.get z := by
  have floor := floorShare_le h (o.get z)
  rw [splitShares_getD hz]
  split <;> omega

end share
end split
end Sys2Proof.Machine
end
section
/-! The delivery of a dispatch result (R105 to R107): the zones after it, and the writes it makes to the image. -/

namespace Sys2Proof.Machine

open Sys2Proof

variable {s : State}

/-! ### A demand write does not see the zone controller (R26) -/

/-- The part with another zone controller. -/
def State.withZones (s : State) (z : ZoneUnit) : State := { s with zones := z }

section withZones
variable (s t : State) (z y : ZoneUnit)
@[simp] theorem State.withZones_image : (s.withZones z).image = s.image := rfl
@[simp] theorem State.withZones_seg : (s.withZones z).seg = s.seg := rfl
@[simp] theorem State.withZones_twice : (s.withZones z).withZones y = s.withZones y := rfl
@[simp] theorem State.asSeries_withZones :
    (s.withZones z).asSeries (t.withZones y) = (s.asSeries t).withZones y := rfl
end withZones

theorem State.writeDemand_withZones (s : State) (z : ZoneUnit) (ch level : Nat) :
    (s.withZones z).writeDemand ch level = (s.writeDemand ch level).withZones z := by
  by_cases taken : s.inRun = true ∧ (s.tables.channels.get ch).mapped = true
  · rw [State.writeDemand_mapped taken.1 taken.2,
      State.writeDemand_mapped (s := s.withZones z) taken.1 taken.2]
    rfl
  · exact (if_neg taken).trans (congrArg (State.withZones · z) (if_neg taken).symm)

/-- The demand writes of a list, in its order; `State.writeSeries` notes them as a series. -/
def State.writeDemands (s : State) (writes : List (Nat × Nat)) : State :=
  writes.foldl (fun t w => t.writeDemand w.1 w.2) s

theorem State.writeSeries_eq (s : State) (writes : List (Nat × Nat)) :
    s.writeSeries writes = s.asSeries (s.writeDemands writes) := rfl

theorem State.writeDemands_append (s : State) (a b : List (Nat × Nat)) :
    s.writeDemands (a ++ b) = (s.writeDemands a).writeDemands b := List.foldl_append

theorem State.writeDemands_withZones (writes : List (Nat × Nat)) (z : ZoneUnit) : ∀ s : State,
    (s.withZones z).writeDemands writes = (s.writeDemands writes).withZones z := by
  induction writes with
  | nil => exact fun _ => rfl
  | cons w writes ih =>
    exact fun s => (congrArg (State.writeDemands · writes) (s.writeDemand_withZones z w.1 w.2)).trans (ih _)

theorem State.writeSeries_withZones (s : State) (writes : List (Nat × Nat)) (z : ZoneUnit) :
    (s.withZones z).writeSeries writes = (s.writeSeries writes).withZones z := by
  rw [State.writeSeries_eq, State.writeDemands_withZones, State.asSeries_withZones, State.writeSeries_eq]

/-! ### One zone takes its share (R106, R107) -/

/-- R106, R107: the run fields of zone `z` once it has its share. -/
def State.splitRun (s : State) (o : Tab Nat 16) (shares : List Nat) (z : Nat) : ZoneRun :=
  let m := s.tables.zoneMap.get z
  let r := s.zones.runs.get z
  let share := shares.getD z 0
  { r with
    offered := o.get z
    share := share
    primaryPart := r.demand - share
    coil := m.coilDemand share
    primary := m.primaryDemand (r.demand - share) }

/-- R107: the writes of zone `z`, its coil channel first. -/
def State.zoneWrites (s : State) (o : Tab Nat 16) (shares : List Nat) (z : Nat) : List (Nat × Nat) :=
  [((s.tables.zoneMap.get z).coil, (s.splitRun o shares z).coil),
    ((s.tables.zoneMap.get z).primary, (s.splitRun o shares z).primary)]

section zone
variable (o : Tab Nat 16) (shares : List Nat) (z : Nat)

/-- Beside the zone controller a split is its two writes. -/
theorem State.zoneSplit_writes : s.zoneSplit o shares z =
    (s.writeDemands (s.zoneWrites o shares z)).withZones (s.setZoneRun z (s.splitRun o shares z)).zones :=
  State.writeDemands_withZones (s.zoneWrites o shares z) _ s

theorem State.zoneSplit_zones : (s.zoneSplit o shares z).zones =
    { s.zones with runs := s.zones.runs.set z (s.splitRun o shares z) } := by
  rw [State.zoneSplit_writes]
  rfl

/-- A zone's share does not reach what another reads. -/
theorem State.splitRun_zoneSplit {y : Nat} (h : z ≠ y) :
    (s.zoneSplit o shares z).splitRun o shares y = s.splitRun o shares y := by
  simp [State.splitRun, State.zoneSplit_zones, h]

theorem State.zoneWrites_zoneSplit {y : Nat} (h : z ≠ y) :
    (s.zoneSplit o shares z).zoneWrites o shares y = s.zoneWrites o shares y := by
  simp [State.zoneWrites, State.splitRun_zoneSplit _ _ _ h]

end zone

/-! ### The zones in turn (R106) -/

section zones
variable (o : Tab Nat 16) (shares : List Nat)

/-- R106: the zones of a list take their shares in its order. -/
def State.zoneSplits (s : State) (zs : List Nat) : State := zs.foldl (fun t z => t.zoneSplit o shares z) s

theorem State.zoneSplits_runs {z : Nat} (hz : z < 16) (zs : List Nat) : ∀ s : State, zs.Nodup →
    (s.zoneSplits o shares zs).zones.runs.get z =
      if z ∈ zs then s.splitRun o shares z else s.zones.runs.get z := by
  induction zs with
  | nil => exact fun _ _ => rfl
  | cons y zs ih =>
    intro s nodup
    obtain ⟨fresh, nodup⟩ := List.nodup_cons.1 nodup
    refine (ih (s.zoneSplit o shares y) nodup).trans ?_
    by_cases same : y = z
    · subst same
      simp [fresh, State.zoneSplit_zones, hz]
    · simp [State.splitRun_zoneSplit _ _ _ same, State.zoneSplit_zones, same, Ne.symm same]

/-- All that the splits change of the zone controller is run fields. -/
theorem State.zoneSplits_zones (zs : List Nat) : ∀ s : State,
    (s.zoneSplits o shares zs).zones = { s.zones with runs := (s.zoneSplits o shares zs).zones.runs } := by
  induction zs with
  | nil => exact fun _ => rfl
  | cons z zs ih =>
    intro s
    refine (ih (s.zoneSplit o shares z)).trans ?_
    rw [State.zoneSplit_zones]
    rfl

/-- Beside the zone controller the splits are their writes, in their order. -/
theorem State.zoneSplits_eq (zs : List Nat) : ∀ s : State, zs.Nodup → s.zoneSplits o shares zs =
    (s.writeDemands (zs.flatMap (s.zoneWrites o shares))).withZones
      (s.zoneSplits o shares zs).zones := by
  induction zs with
  | nil => exact fun _ _ => rfl
  | cons z zs ih =>
    intro s nodup
    obtain ⟨fresh, nodup⟩ := List.nodup_cons.1 nodup
    have later : zs.flatMap ((s.zoneSplit o shares z).zoneWrites o shares) = zs.flatMap (s.zoneWrites o shares) :=
      List.flatMap_congr fun y hy => State.zoneWrites_zoneSplit _ _ _ (ne_of_mem_of_not_mem hy fresh).symm
    have writes : (s.zoneSplit o shares z).writeDemands (zs.flatMap (s.zoneWrites o shares)) =
        (s.writeDemands ((z :: zs).flatMap (s.zoneWrites o shares))).withZones
          (s.setZoneRun z (s.splitRun o shares z)).zones := by
      rw [State.zoneSplit_writes, State.writeDemands_withZones, List.flatMap_cons, State.writeDemands_append]
    refine (ih (s.zoneSplit o shares z) nodup).trans ?_
    rw [later, writes]
    rfl

end zones

/-! ### The delivery (R103, R105 to R107) -/

section delivery
variable (s : State) (d : Delivery)

/-- R107: the writes of the in-use zones, in ascending number. -/
def State.splitWrites : List (Nat × Nat) :=
  s.tables.zonesInUse.flatMap (s.zoneWrites d.offered (splitShares d.grant d.offered))

/-- R102: the split recorded. -/
def State.splitRecorded : State := s.withZones { s.zones with
  split := some ⟨d.grant, offeredSum d.offered, splitResidual d.grant d.offered⟩ }

theorem Tables.zonesInUse_nodup (t : Tables) : t.zonesInUse.Nodup := List.nodup_range.filter _

theorem Tables.mem_zonesInUse {t : Tables} {z : Nat} (hz : z < 16) : z ∈ t.zonesInUse ↔ t.zoneInUse z = true := by
  simp [Tables.zonesInUse, hz]

/-- Beside the zone controller a split is the series of its writes. -/
theorem State.splitGrant_eq : s.splitGrant d = (s.writeSeries (s.splitWrites d)).withZones (s.splitGrant d).zones := by
  have splits := State.zoneSplits_eq d.offered (splitShares d.grant d.offered) s.tables.zonesInUse (s.splitRecorded d)
    s.tables.zonesInUse_nodup
  calc s.splitGrant d
    _ = (s.splitRecorded d).asSeries _ := congrArg (s.splitRecorded d).asSeries splits
    _ = (s.writeSeries (s.splitWrites d)).withZones _ := by
      rw [State.splitRecorded, State.writeDemands_withZones, State.withZones_twice, State.asSeries_withZones,
        State.writeSeries_eq]
      rfl

theorem State.splitGrant_zones : (s.splitGrant d).zones = { s.zones with
    split := some ⟨d.grant, offeredSum d.offered, splitResidual d.grant d.offered⟩
    runs := (s.splitGrant d).zones.runs } :=
  State.zoneSplits_zones d.offered (splitShares d.grant d.offered) s.tables.zonesInUse (s.splitRecorded d)

theorem State.splitGrant_runs {z : Nat} (hz : z < 16) : (s.splitGrant d).zones.runs.get z =
    if s.tables.zoneInUse z then s.splitRun d.offered (splitShares d.grant d.offered) z else s.zones.runs.get z := by
  refine (State.zoneSplits_runs d.offered (splitShares d.grant d.offered) hz s.tables.zonesInUse (s.splitRecorded d)
    s.tables.zonesInUse_nodup).trans ?_
  simp only [Tables.mem_zonesInUse hz]
  rfl

/-- Nothing else changes in a split. -/
theorem State.splitGrant_rest : s.splitGrant d = { s with
    zones := (s.splitGrant d).zones
    image := (s.splitGrant d).image
    seg := { s.seg with urgent := (s.splitGrant d).seg.urgent, log := (s.splitGrant d).seg.log } } := by
  have writes := State.splitGrant_eq s d
  have seg : (s.splitGrant d).seg = { s.seg with
      urgent := (s.splitGrant d).seg.urgent, log := (s.splitGrant d).seg.log } := by
    rw [writes, State.withZones_seg]
    exact State.seg_eq_of_besideQueue (s.writeSeries_besideQueue _)
  obtain ⟨pending, power, loader, tables, memory, points, watch, fog, heat, store, engines, bracket, trunk⟩ :=
    s.splitGrant_frame d
  rw [← seg, ← pending, ← power, ← loader, ← tables, ← memory, ← points, ← watch, ← fog, ← heat, ← store, ← engines,
    ← bracket, ← trunk]

/-- The writes of a split, by the run fields it leaves. -/
theorem State.splitWrites_eq : s.splitWrites d = s.tables.zonesInUse.flatMap fun z =>
    [((s.tables.zoneMap.get z).coil, ((s.splitGrant d).zones.runs.get z).coil),
      ((s.tables.zoneMap.get z).primary, ((s.splitGrant d).zones.runs.get z).primary)] := by
  refine List.flatMap_congr fun z hz => ?_
  obtain ⟨lt, inUse⟩ := List.mem_filter.1 hz
  rw [State.splitGrant_runs s d (List.mem_range.1 lt), if_pos inUse]
  rfl

end delivery

/-- R103: the deliveries without the oldest. -/
def State.deliveryTaken (s : State) (rest : List Delivery) : State :=
  s.withZones { s.zones with deliveries := rest }

theorem State.deliveryTaken_writeSeries (rest : List Delivery) (writes : List (Nat × Nat)) :
    (s.deliveryTaken rest).writeSeries writes = (s.writeSeries writes).withZones (s.deliveryTaken rest).zones :=
  s.writeSeries_withZones writes _

theorem exec_dispatchResultDelivery {d : Delivery} {rest : List Delivery} (hr : s.running = true)
    (hd : s.zones.deliveries = d :: rest) :
    exec .dispatchResultDelivery s = .next ((s.deliveryTaken rest).splitGrant d) := by
  refine congrArg Host.Outcome.next ((if_pos hr).trans ?_)
  rw [hd]
  rfl

/-- Settles O43: the shares by the residual handed out along the zones, and the delivery by the split of each zone. -/
theorem splitMade : Obligations.SplitMade := by
  refine ⟨fun grant o h => ⟨splitShares_length grant o, splitShares_sum h, fun z hz => splitShares_le hz h⟩,
    fun s d rest hr hd => ⟨_, exec_dispatchResultDelivery hr hd, ?delivery⟩,
    fun grant o => ⟨splitResidual_eq grant o, fun z hz => ?formula⟩,
    fun s d rest hr hd => ⟨_, exec_dispatchResultDelivery hr hd, (s.deliveryTaken rest).splitWrites d, ?writes⟩⟩
  case delivery =>
    have zones := (s.deliveryTaken rest).splitGrant_zones d
    refine ⟨congrArg ZoneUnit.deliveries zones, congrArg ZoneUnit.split zones, fun z hz hu => ?_, fun z hz hu => ?_,
      (s.deliveryTaken rest).splitGrant_rest d⟩
    · exact (State.splitGrant_runs _ d hz).trans (if_pos hu)
    · exact (State.splitGrant_runs _ d hz).trans (if_neg (Bool.eq_false_iff.1 hu))
  case formula =>
    rw [splitShares_getD hz, splitResidual_eq]
    rfl
  case writes =>
    have series := (s.deliveryTaken rest).splitGrant_eq d
    rw [State.deliveryTaken_writeSeries] at series
    rw [State.withZones_twice] at series
    refine ⟨(s.deliveryTaken rest).splitWrites_eq d, ?_, ?_⟩
    · rw [series, State.withZones_image]
    · rw [series, State.withZones_seg]

end Sys2Proof.Machine
end
section
/-! SET_ZONE outside a bracket (R110), the computation of a zone (R104) and the notices of a point (R103). -/

namespace Sys2Proof.Machine

open Sys2Proof

variable {s : State}

/-! ### Stageable requests outside a bracket (R144) -/

theorem State.takeStageable_refused (h : s.bracket.state = .idle) (a : Answer) :
    s.takeStageable (.refused a) = (s, some a) := by
  simp [State.takeStageable, h, BracketState.isOpen]

theorem State.takeStageable_good (h : s.bracket.state = .idle) (r : StagedReq) (clamped : Bool) :
    s.takeStageable (.good r clamped) = ((s.takeItem r).1,
      some (.plain (if clamped ∧ (s.takeItem r).2 = .done then .clamped else (s.takeItem r).2))) := by
  simp [State.takeStageable, h, BracketState.isOpen]

/-! ### The checks of SET_ZONE (R110) -/

section checks
variable {zone : Byte} {occupied : Option Bool} {occ unocc : Option Int}

/-- R110 step 1: a part is given. -/
def zonePartGiven (occupied : Option Bool) (occ unocc : Option Int) : Prop :=
  occupied ≠ none ∨ occ ≠ none ∨ unocc ≠ none

theorem State.checkSetZone_noPart (ho : occupied = none) (ha : occ = none) (hb : unocc = none) :
    s.checkSetZone zone occupied occ unocc = .refused (.plain .badRequest) := by
  simp [State.checkSetZone, ho, ha, hb]

theorem State.checkSetZone_given (h : zonePartGiven occupied occ unocc) : s.checkSetZone zone occupied occ unocc =
    if 16 ≤ zone.toNat ∨ (s.inRun ∧ !s.tables.zoneInUse zone.toNat) then .refused (.badEntry none)
    else .good (.setZone zone.toNat occupied (occ.map clampSetpoint) (unocc.map clampSetpoint))
      (setpointClamped occ || setpointClamped unocc) := by
  refine if_neg ?_
  obtain h | h | h := h <;> simp [h]

theorem State.checkSetZone_unknown (h : zonePartGiven occupied occ unocc)
    (unknown : 16 ≤ zone.toNat ∨ (s.inRun = true ∧ s.tables.zoneInUse zone.toNat = false)) :
    s.checkSetZone zone occupied occ unocc = .refused (.badEntry none) :=
  (State.checkSetZone_given h).trans (if_pos (by simpa using unknown))

theorem State.checkSetZone_known (h : zonePartGiven occupied occ unocc) (lt : zone.toNat < 16)
    (inUse : s.inRun = true → s.tables.zoneInUse zone.toNat = true) : s.checkSetZone zone occupied occ unocc =
      .good (.setZone zone.toNat occupied (occ.map clampSetpoint) (unocc.map clampSetpoint))
        (setpointClamped occ || setpointClamped unocc) :=
  (State.checkSetZone_given h).trans (if_neg (by simpa [lt] using inUse))

theorem setpointClamped_iff (v : Option Int) : setpointClamped v = true ↔ v.map clampSetpoint ≠ v := by
  cases v <;> simp [setpointClamped]

end checks

/-! ### SET_ZONE with the bracket IDLE (R110) -/

section taken
variable {tag zone : Byte} {occupied : Option Bool} {occ unocc : Option Word16} (h : s.serves)
  (hi : s.bracket.state = .idle)
include h hi

theorem exec_setZone_refused {a : Answer}
    (refused : s.checkSetZone zone occupied (occ.map BitVec.toInt) (unocc.map BitVec.toInt) = .refused a) :
    exec (.setZone tag zone occupied occ unocc) s = .next (s.goodFrame.place tag codeSetZone a.result a.data) := by
  refine congrArg Host.Outcome.next ((State.request_served h ..).trans ?_)
  have same : s.goodFrame.checkSetZone zone occupied (occ.map BitVec.toInt) (unocc.map BitVec.toInt) = .refused a :=
    refused
  rw [same, State.takeStageable_refused (s := s.goodFrame) hi]
  rfl

theorem exec_setZone_good {a b : Option Int} {clamped : Bool}
    (good : s.checkSetZone zone occupied (occ.map BitVec.toInt) (unocc.map BitVec.toInt) =
      .good (.setZone zone.toNat occupied a b) clamped) :
    exec (.setZone tag zone occupied occ unocc) s =
      .next ((s.goodFrame.applyZone zone.toNat occupied a b).place tag codeSetZone
        (if clamped = true then .clamped else .done) []) := by
  refine congrArg Host.Outcome.next ((State.request_served h ..).trans ?_)
  have same : s.goodFrame.checkSetZone zone occupied (occ.map BitVec.toInt) (unocc.map BitVec.toInt) =
      .good (.setZone zone.toNat occupied a b) clamped := good
  rw [same, State.takeStageable_good (s := s.goodFrame) hi]
  simp [State.takeItem, State.answer, Answer.plain]

end taken

/-- R110 step 5: a zone that RUN has in use is computed again there. -/
theorem State.applyZone_known {z : Nat} (inUse : s.inRun = true → s.tables.zoneInUse z = true) (occupied : Option Bool)
    (occ unocc : Option Int) : s.applyZone z occupied occ unocc =
      if s.inRun = true then (s.storeZone z occupied occ unocc).recomputeZone z else s.storeZone z occupied occ unocc :=
  if_congr (and_iff_left_of_imp inUse) rfl rfl

/-! ### The computation of a zone (R104) -/

/-- R104: a zone with a point, from what it asks for by that point's value or by its fallback. -/
theorem State.zoneRecomputed_point {z p : Nat} (hp : (s.tables.zoneMap.get z).point.get = some p) :
    s.zoneRecomputed z =
      let m := s.tables.zoneMap.get z
      let d := zoneDemand m (s.tables.zoneSet.get z) (s.pointValue p)
      let r := s.zones.runs.get z
      { r with
        demand := d
        eligible := min d m.coilCapacity
        primaryPart := d - r.share
        primary := m.primaryDemand (d - r.share)
        fallback := (s.pointValue p).isNone } := by
  simp only [State.zoneRecomputed, hp, Option.bind_some]

theorem State.recomputeZone_eq (s : State) (z : Nat) : s.recomputeZone z =
    (s.setZoneRun z (s.zoneRecomputed z)).writeDemand (s.tables.zoneMap.get z).primary (s.zoneRecomputed z).primary :=
  rfl

/-! ### A notice of a point (R103) -/

theorem OptNum.given_of_get {n : OptNum} {v : Nat} (h : n.get = some v) : n.given = true := by
  have present : n.present ≠ 0 := fun absent => by simp [OptNum.get, absent] at h
  simpa [OptNum.given] using present

/-- A zone that names a point is in use. -/
theorem Tables.zonesNaming_eq (t : Tables) (p : Nat) :
    (t.zonesInUse.filter fun z => (t.zoneMap.get z).point.get == some p) =
      (List.range 16).filter fun z => (t.zoneMap.get z).point.get == some p := by
  rw [Tables.zonesInUse, List.filter_filter]
  refine List.filter_congr fun z hz => ?_
  cases named : (t.zoneMap.get z).point.get == some p
  · rfl
  · have lt : z < 16 := List.mem_range.1 hz
    have given := OptNum.given_of_get (beq_iff_eq.1 named)
    simp [Tables.zoneInUse, ZoneMapRec.inUse, lt, given]

theorem State.zonePoint_eq (s : State) (p : Nat) : s.zonePoint p = s.asSeries (((List.range 16).filter fun z =>
    (s.tables.zoneMap.get z).point.get == some p).foldl State.recomputeZone s) := by
  rw [State.zonePoint, Tables.zonesNaming_eq]

/-- Settles O44: the checks of SET_ZONE in turn, the computation by the value of the zone's point, and the notices. -/
theorem zoneSetTaken : Obligations.ZoneSetTaken := by
  refine ⟨fun tag zone occupied occ unocc s h hi => ⟨fun ho ha hb => ?noPart, fun given unknown => ?unknown,
    fun given lt inUse => ?known⟩, fun s z p hz hp => ⟨fun v usable hv => ?measured, fun good suspect => ?fallback⟩,
    State.zonePoint_eq⟩
  case noPart => exact exec_setZone_refused h hi (State.checkSetZone_noPart ho (by simp [ha]) (by simp [hb]))
  case unknown =>
    exact exec_setZone_refused h hi (State.checkSetZone_unknown (by simpa [zonePartGiven] using given) unknown)
  case known =>
    intro clamp old u
    have good := State.checkSetZone_known (s := s) (occ := occ.map BitVec.toInt) (unocc := unocc.map BitVec.toInt)
      (by simpa [zonePartGiven] using given) lt inUse
    have stored : s.goodFrame.storeZone zone.toNat occupied ((occ.map BitVec.toInt).map clampSetpoint)
        ((unocc.map BitVec.toInt).map clampSetpoint) = u := by
      rw [Option.map_map, Option.map_map]
      obtain _ | _ | _ := occupied <;> rfl
    have changed : (setpointClamped (occ.map BitVec.toInt) || setpointClamped (unocc.map BitVec.toInt)) = true ↔
        occ.map clamp ≠ occ.map BitVec.toInt ∨ unocc.map clamp ≠ unocc.map BitVec.toInt := by
      rw [Bool.or_eq_true, setpointClamped_iff, setpointClamped_iff, Option.map_map, Option.map_map]
      rfl
    rw [exec_setZone_good h hi good, State.applyZone_known (s := s.goodFrame) inUse, stored, State.goodFrame_inRun]
    exact congrArg (fun r => Host.Outcome.next (State.place _ tag codeSetZone r [])) (if_congr changed rfl rfl)
  case measured =>
    rw [State.recomputeZone_eq, State.zoneRecomputed_point hp, State.pointValue_usable usable hv]
    rfl
  case fallback =>
    rw [State.recomputeZone_eq, State.zoneRecomputed_point hp, State.pointValue_unusable (by tauto)]
    rfl

end Sys2Proof.Machine
end

section
/-! Rows of the scene library: what a place holds after a whole write and after one cut off (R113, R114, R116, R125),
and the row operations at their completion (R116, R118, R119). -/

namespace Sys2Proof.Machine

open Sys2Proof

variable {s : State}

/-! ### The bytes of a place -/

@[simp] theorem length_placeBytes (place : List Byte) (n : Nat) : (placeBytes place n).length = n := by
  simp [placeBytes]
  omega

/-- A place reads as what was written to it, whatever stands behind. -/
theorem placeBytes_append (l behind : List Byte) : placeBytes (l ++ behind) l.length = l := by
  simp [placeBytes]

theorem placeBytes_whole (l : List Byte) : placeBytes l l.length = l := by simp [placeBytes]

/-- R114: as many bytes are read as the channel count asks for. -/
theorem length_contentOf (c : Byte) (rest : List Byte) : (contentOf (c :: rest)).length = 3 + 4 * c.toNat :=
  length_placeBytes ..

/-- Content as long as its channel count asks for is read back from in front of any other bytes. -/
theorem contentOf_append {l : List Byte} (whole : contentOf l = l) (ne : l ≠ []) (behind : List Byte) :
    contentOf (l ++ behind) = l := by
  obtain ⟨c, rest, rfl⟩ := List.exists_cons_of_ne_nil ne
  have len : 3 + 4 * c.toNat = (c :: rest).length := by rw [← length_contentOf c rest, whole]
  show placeBytes (c :: rest ++ behind) (3 + 4 * c.toNat) = c :: rest
  rw [len]
  exact placeBytes_append ..

/-- What is read from a place keeps its channel count, and so is read back whole. -/
theorem contentOf_contentOf (place : List Byte) : contentOf (contentOf place) = contentOf place := by
  cases place with
  | nil => rfl
  | cons c rest =>
    obtain ⟨read, hread⟩ : ∃ read, contentOf (c :: rest) = c :: read :=
      ⟨_, by rw [contentOf, placeBytes, Nat.add_comm 3]; rfl⟩
    have len := length_contentOf c rest
    rw [hread] at len ⊢
    show placeBytes (c :: read) (3 + 4 * c.toNat) = c :: read
    rw [← len]
    exact placeBytes_whole _

/-- R118: content that is let through is as long as its channel count asks for. -/
theorem contentOf_wellFormed {content : List Byte} (h : wellFormedContent content = true) :
    contentOf content = content ∧ content ≠ [] := by
  cases content with
  | nil => cases h
  | cons c rest =>
    have fits : rest.length = 4 * c.toNat + 2 := by
      by_contra short
      simp [wellFormedContent, SceneRow.ofBytes, short] at h
    refine ⟨?_, nofun⟩
    have len : 3 + 4 * c.toNat = (c :: rest).length := by simp; omega
    show placeBytes (c :: rest) (3 + 4 * c.toNat) = c :: rest
    rw [len]
    exact placeBytes_whole _

/-! ### The check of a row (R114) -/

/-- A well-formed row with its own check is a good row. -/
theorem goodRow_placeOf {content : List Byte} (h : wellFormedContent content = true) :
    (goodRow (placeOf content)).isSome = true := by
  obtain ⟨whole, ne⟩ := contentOf_wellFormed h
  have read : contentOf (placeOf content) = content := contentOf_append whole ne _
  have checked : placeBytes (placeOf content) (content.length + 2) = placeOf content := by
    simpa [placeOf] using placeBytes_whole (placeOf content)
  obtain ⟨r, hr, fits⟩ := (Option.any_eq_true _ _).1 h
  simp [goodRow, read, hr, fits, checked]

/-- Content with another check than its own is no good row. -/
theorem goodRow_wrongCheck {l check : List Byte} (whole : contentOf l = l) (ne : l ≠ []) (len : check.length = 2)
    (wrong : check ≠ u16 (crc16 l).toNat) : goodRow (l ++ check) = none := by
  have read : contentOf (l ++ check) = l := contentOf_append whole ne check
  have written : placeBytes (l ++ check) (l.length + 2) = l ++ check := by
    simpa [len] using placeBytes_whole (l ++ check)
  have unmatched : placeBytes (l ++ check) (l.length + 2) ≠ placeOf l := by
    rw [written, placeOf]
    exact fun same => wrong (List.append_cancel_left same)
  unfold goodRow
  dsimp only
  rw [read]
  split
  · exact if_neg fun good => unmatched good.2
  · rfl

/-- The inverse of a check differs from it in its low byte already. -/
theorem u16_not_ne (check : Word16) : u16 (~~~check).toNat ≠ u16 check.toNat := by
  intro same
  have low : BitVec.ofNat 8 (~~~check).toNat = BitVec.ofNat 8 check.toNat := by
    simpa [u16] using congrArg (·.getD 1 0) same
  have parity := congrArg BitVec.toNat low
  simp only [BitVec.toNat_ofNat, BitVec.toNat_not] at parity
  have := check.isLt
  omega

/-- Log 17: whatever bytes a cut leaves, the check behind them matches no row. -/
theorem goodRow_spoilCheck (bytes : List Byte) : goodRow (spoilCheck bytes) = none := by
  cases bytes with
  | nil => rfl
  | cons c rest =>
    have ne : contentOf (c :: rest) ≠ [] := List.ne_nil_of_length_pos (by rw [length_contentOf]; omega)
    exact goodRow_wrongCheck (contentOf_contentOf _) ne rfl (u16_not_ne _)

/-! ### A ROW_WRITE cut off (R116, R125) -/

theorem placeIndex_lt {b r : Nat} (hb : b < 4) (hr : r < 32) : placeIndex b r < 128 := by
  unfold placeIndex
  omega

theorem State.losePower_memory (s : State) (cut : Nat) : (s.losePower cut).memory = s.cutMemory cut := rfl

theorem State.cutMemory_rowWrite {tag : Byte} {b r : Nat} {content : List Byte} {rest : List MemOp}
    (hq : s.store.queue = .rowWrite tag b r content :: rest) (cut : Nat) :
    s.cutMemory cut =
      { s.memory with
        rows := s.memory.rows.set (placeIndex b r) (cutPlace (s.memory.rows.get (placeIndex b r)) content cut) } := by
  simp [State.cutMemory, hq]

/-- Settles O7: the place cut off holds the whole row from the last byte of the check on, and before it a check that
cannot match. -/
theorem cutRowWrite : Obligations.CutRowWrite := by
  intro s tag b r cut content rest hb hr good hq
  have left := (s.losePower_memory cut).trans (State.cutMemory_rowWrite hq cut)
  have place : (s.losePower cut).memory.rows.get (placeIndex b r) =
      cutPlace (s.memory.rows.get (placeIndex b r)) content cut := by
    rw [left]
    exact Tab.get_set_self s.memory.rows _ _ (placeIndex_lt hb hr)
  refine ⟨goodRow_placeOf good, s.losePower cut, rfl, fun short => ?_, fun done => ?_, fun p hp => ?_, ?_⟩
  · rw [place, cutPlace, if_neg (by omega)]
    exact goodRow_spoilCheck _
  · rw [place, cutPlace, if_pos done]
  · rw [left]
    exact Tab.get_set_ne _ _ _ _ (Ne.symm hp)
  · rw [left]

/-! ### Row operations at their completion (R116, R118, R119) -/

theorem State.leaveMemory_of_queue {op : MemOp} {rest : List MemOp} (hq : s.store.queue = op :: rest) :
    s.leaveMemory = { s with store := { s.store with queue := rest } } := by
  simp [State.leaveMemory, hq]

theorem exec_rowWriteComplete {tag : Byte} {b r : Nat} {content : List Byte} {rest : List MemOp}
    (hl : s.live = true) (hq : s.store.queue = .rowWrite tag b r content :: rest) (flaws : List (Nat × Byte)) :
    exec (.rowWriteComplete flaws) s =
      .next (({ s with store := { s.store with queue := rest } } : State).rowWriteEnds tag b r content flaws) := by
  rw [← State.leaveMemory_of_queue hq]
  show Host.Outcome.next (s.rowWriteComplete flaws) = _
  simp [State.rowWriteComplete, hl, hq]

theorem exec_rowReadComplete {tag : Byte} {b r : Nat} {rest : List MemOp} (hl : s.live = true)
    (hq : s.store.queue = .rowRead tag b r :: rest) :
    exec .rowReadComplete s =
      .next (({ s with store := { s.store with queue := rest } } : State).rowReadEnds tag b r) := by
  rw [← State.leaveMemory_of_queue hq]
  show Host.Outcome.next s.rowReadComplete = _
  simp [State.rowReadComplete, hl, hq]

/-- R116: with every byte read back as written the reply is DONE. -/
theorem State.rowWriteEnds_whole {content : List Byte} (good : wellFormedContent content = true) (tag : Byte)
    (b r : Nat) : s.rowWriteEnds tag b r content [] =
      (s.setPlace b r (placeOf content)).place tag codeWriteTable .done [] := by
  simp [State.rowWriteEnds, spoilPlace, goodRow_placeOf good]

/-- R116: with a byte that does not, FAILED, and the place is left as it was found. -/
theorem State.rowWriteEnds_flawed {content : List Byte} {flaws : List (Nat × Byte)}
    (other : spoilPlace (placeOf content) flaws ≠ placeOf content) (tag : Byte) (b r : Nat) :
    s.rowWriteEnds tag b r content flaws =
      (s.setPlace b r (spoilPlace (placeOf content) flaws)).place tag codeWriteTable .failed [] := by
  simp [State.rowWriteEnds, other]

/-- R119: a good row is read back as it was written. -/
theorem State.rowReadEnds_good {b r : Nat} {content : List Byte} (good : wellFormedContent content = true)
    (held : s.memory.rows.get (placeIndex b r) = placeOf content) (tag : Byte) :
    s.rowReadEnds tag b r = s.place tag codeReadTable .done (rowData b r content) := by
  obtain ⟨whole, ne⟩ := contentOf_wellFormed good
  have read : contentOf (placeOf content) = content := contentOf_append whole ne _
  simp [State.rowReadEnds, held, goodRow_placeOf good, read]

theorem State.rowReadEnds_bad {b r : Nat} (bad : goodRow (s.memory.rows.get (placeIndex b r)) = none) (tag : Byte) :
    s.rowReadEnds tag b r = s.place tag codeReadTable .failed [] := by
  simp [State.rowReadEnds, bad]

/-- Settles O22. -/
theorem rowOperationsComplete : Obligations.RowOperationsComplete := by
  intro s tag b r content rest hl hb hr good
  refine ⟨fun hq => ⟨goodRow_placeOf good, ?written⟩, fun hq held => ?read, fun hq bad => ?unreadable,
    fun flaws place hq spoiled other => ?flawed⟩
  case written =>
    rw [exec_rowWriteComplete hl hq, State.rowWriteEnds_whole good]
    rfl
  case read =>
    rw [exec_rowReadComplete hl hq, State.rowReadEnds_good good (by exact held)]
    rfl
  case unreadable =>
    rw [exec_rowReadComplete hl hq, State.rowReadEnds_bad (by exact bad)]
    rfl
  case flawed =>
    subst spoiled
    rw [exec_rowWriteComplete hl hq, State.rowWriteEnds_flawed (by exact other)]
    rfl

end Sys2Proof.Machine
end

section
/-! The banks: ACTIVATE at its completion and the end of the settle time (R121, R123, R124). -/

namespace Sys2Proof.Machine

open Sys2Proof

variable {s : State}

/-! ### ACTIVATE at its completion (R121, R124) -/

theorem exec_activateComplete {b r : Nat} {rest : List MemOp} (hl : s.live = true)
    (hq : s.store.queue = .activate b r :: rest) :
    exec .activateComplete s =
      .next (({ s with store := { s.store with queue := rest } } : State).activationEnds b r) := by
  rw [← State.leaveMemory_of_queue hq]
  show Host.Outcome.next s.activateComplete = _
  simp [State.activateComplete, hl, hq]

/-- R121: the pairs left out are those whose channel LIGHTING does not own. -/
theorem Bank.load_skipped (t : Tables) (k : Bank) (row : SceneRow) :
    (Bank.load t k row).skipped = (row.pairs.filter fun p => !t.lightingChannel p.1).length := by
  have split := List.length_eq_length_filter_add (l := row.pairs) fun p => t.lightingChannel p.1
  simp only [Bank.load]
  omega

theorem Bank.load_eq (t : Tables) (k : Bank) (row : SceneRow) : Bank.load t k row = { k with
    state := .active
    pairs := row.pairs.filter fun p => t.lightingChannel p.1
    fade := row.fade
    skipped := (row.pairs.filter fun p => !t.lightingChannel p.1).length } := by
  rw [← Bank.load_skipped t k row]
  rfl

theorem Bank.rest_of_owned {k : Bank} (h : k.orphan = false) : k.rest = Bank.initial := by
  rw [Bank.rest, h]
  rfl

/-- The completion of an activation noted for its delivery. -/
def State.noteCompletion (s : State) (b : Nat) : State :=
  { s with store := { s.store with completions := s.store.completions ++ [b] } }

theorem State.activationEnds_orphan {b : Nat} (h : (s.bank b).orphan = true) (r : Nat) :
    s.activationEnds b r = s.setBank b { s.bank b with orphan := false } := by
  simp [State.activationEnds, h]

theorem State.activationEnds_good {b r : Nat} {row : SceneRow} (h : (s.bank b).orphan = false)
    (good : goodRow (s.memory.rows.get (placeIndex b r)) = some row) :
    s.activationEnds b r = (s.setBank b (Bank.load s.tables (s.bank b) row)).noteCompletion b := by
  simp only [State.activationEnds, h, good]
  rfl

theorem State.activationEnds_bad {b r : Nat} (h : (s.bank b).orphan = false)
    (bad : goodRow (s.memory.rows.get (placeIndex b r)) = none) :
    s.activationEnds b r = ((s.setBank b Bank.initial).raise .bankFault).noteCompletion b := by
  simp only [State.activationEnds, h, bad, Bank.rest_of_owned h]
  rfl

/-! ### The end of the settle time (R123) -/

theorem exec_settleExpiry {b : Fin 4} (hl : s.live = true) (ht : (s.bank b).settle.isSome = true) :
    exec (.settleExpiry b) s = .next (s.settleEnds b) := by
  show Host.Outcome.next (s.settleExpiry b) = _
  simp [State.settleExpiry, hl, ht]

theorem State.settleEnds_free {b : Nat} (h : (s.engine b).state ≠ .pending) :
    s.settleEnds b = s.setBank b (s.bank b).rest := by
  unfold State.settleEnds
  dsimp only
  split
  case h_1 pending _ => exact absurd pending h
  case h_2 => rfl

/-- The engine waits for row `r`: its ACTIVATE joins the queue if there is room. -/
theorem State.settleEnds_pending {b r : Nat} (h : (s.engine b).state = .pending) (hr : (s.engine b).row = some r) :
    s.settleEnds b =
      if s.memoryFull then ((s.setBank b (s.bank b).rest).setEngine b .initial).raise .bankFault
      else (s.setBank b (s.bank b).rest).startActivation b r := by
  have state : ((s.setBank b (s.bank b).rest).engine b).state = .pending := h
  have row : ((s.setBank b (s.bank b).rest).engine b).row = some r := hr
  simp only [State.settleEnds, state, row]
  rfl

theorem State.memoryFull_iff : s.memoryFull = true ↔ 8 ≤ s.store.queue.length :=
  decide_eq_true_iff

/-- R121: an activation of a bank just put to rest. -/
theorem State.startActivation_rested {b : Nat} (hb : b < 4) (k : Bank) (r : Nat) :
    (s.setBank b k.rest).startActivation b r = (s.joinMemory (.activate b r)).setBank b
      { Bank.initial with state := .activating, row := some r, orphan := k.orphan } := by
  have rested : (s.setBank b k.rest).bank b = k.rest := Tab.get_set_self s.store.banks b _ hb
  rw [State.startActivation, rested]
  simp only [State.setBank, State.joinMemory, Tab.set_set]
  rfl

/-- Settles O23: the completion by the row and the orphan mark, the settle time by the engine and the queue. -/
theorem bankEvents : Obligations.BankEvents := by
  refine ⟨fun s b r rest hl hb hq => ⟨fun row owned good => ?good, fun owned bad => ?bad, fun orphan => ?orphan⟩,
    fun s b hl ht => ⟨fun free => ?free, fun r pending row room => ?room, fun r pending row full => ?full⟩⟩
  case good =>
    rw [exec_activateComplete hl hq, State.activationEnds_good (by exact owned) (by exact good), Bank.load_eq]
    rfl
  case bad =>
    rw [exec_activateComplete hl hq, State.activationEnds_bad (by exact owned) (by exact bad)]
    rfl
  case orphan =>
    rw [exec_activateComplete hl hq, State.activationEnds_orphan (by exact orphan)]
    rfl
  case free =>
    rw [exec_settleExpiry hl ht, State.settleEnds_free free]
    rfl
  case room =>
    have notFull : ¬ s.memoryFull = true := fun full => absurd (State.memoryFull_iff.1 full) (by omega)
    rw [exec_settleExpiry hl ht, State.settleEnds_pending pending row, if_neg notFull,
      State.startActivation_rested b.isLt]
    rfl
  case full =>
    rw [exec_settleExpiry hl ht, State.settleEnds_pending pending row, if_pos (State.memoryFull_iff.2 full)]
    rfl

end Sys2Proof.Machine
end

section
/-! The long requests (R117 to R119, R179): what bars one, and how each joins the memory port queue. -/

namespace Sys2Proof.Machine

open Sys2Proof

variable {s : State}

/-! ### What bars a long request (R117), and a save in progress (R179) -/

theorem State.longBarred_iff : s.longBarred = true ↔ 8 ≤ s.store.queue.length ∨ 2 ≤ s.longCount := by
  rw [State.longBarred, Bool.or_eq_true, State.memoryFull_iff, decide_eq_true_iff]
  rfl

theorem State.saving_iff : s.saving = true ↔ ∃ tag copy, MemOp.imageSave tag copy ∈ s.store.queue := by
  unfold State.saving
  rw [List.any_eq_true]
  constructor
  · rintro ⟨op, hop, save⟩
    cases op with
    | imageSave tag copy => exact ⟨tag, copy, hop⟩
    | activate | rowWrite | rowRead => cases save
  · rintro ⟨tag, copy, hop⟩
    exact ⟨_, hop, rfl⟩

/-! ### Each request joins (R115, R117) -/

section joins
variable (free : s.longBarred = false)
include free

theorem State.readRow_joins {bank row : Nat} (hr : sceneInRange bank row = true) (tag : Byte) :
    s.readRow tag bank row = (s.joinMemory (.rowRead tag bank row), none) := by
  simp [State.readRow, hr, free]

theorem State.writeRow_joins {bank row : Nat} {content : List Byte} (hr : sceneInRange bank row = true)
    (good : s.tables.rowRefusal content = none) (inactive : s.rowActive bank row = false) (tag : Byte) :
    s.writeRow tag bank row content = (s.joinMemory (.rowWrite tag bank row content), none) := by
  simp [State.writeRow, hr, good, inactive, free]

theorem State.trySave_joins (outside : s.inRun = false) (idle : s.saving = false) (tag : Byte) :
    s.trySave tag = (s.joinMemory (.imageSave tag s.tables), none) := by
  simp [State.trySave, outside, idle, free]

end joins

theorem State.trySave_inRun (h : s.inRun = true) (tag : Byte) : s.trySave tag = (s, some (.plain .state)) := by
  simp [State.trySave, h]

/-- R179: a save in progress, or what bars any long request, answers BUSY. -/
theorem State.trySave_busy (outside : s.inRun = false) (busy : s.saving = true ∨ s.longBarred = true) (tag : Byte) :
    s.trySave tag = (s, some (.plain .busy)) := by
  cases saving : s.saving
  · have barred : s.longBarred = true := busy.resolve_left (by simp [saving])
    simp [State.trySave, outside, saving, barred]
  · simp [State.trySave, outside, saving]

/-! ### READ_TABLE and WRITE_TABLE on SCENES (R172) -/

theorem TableId.ofCode_scenes : TableId.ofCode (0x12 : Byte).toNat = some .scenes := by decide

theorem State.readTable_scenes (s : State) (tag : Byte) (first : Word16) :
    s.readTable tag 0x12 first 1 = s.readRow tag (sceneBank first) (sceneRow first) := by
  rw [State.readTable, TableId.ofCode_scenes]
  rfl

theorem State.writeTable_scenes (h : s.saving = false) (tag : Byte) (first : Word16) (content : List Byte) :
    s.writeTable tag 0x12 first 1 content = s.writeRow tag (sceneBank first) (sceneRow first) content := by
  rw [State.writeTable, TableId.ofCode_scenes]
  simp [h, TableId.tableClass]

/-! ### The requests as commands -/

theorem exec_saveImage (h : s.serves) (closed : s.bracket.state.isOpen = false) (tag : Byte) :
    exec (.saveImage tag) s =
      .next ((s.goodFrame.trySave tag).1.answer tag codeSaveImage (s.goodFrame.trySave tag).2) := by
  show Host.Outcome.next (s.request tag codeSaveImage _) = _
  rw [State.request_served h, restricted_closed (s := s.goodFrame) closed]

/-- Settles O12: request by request, and what bars them. -/
theorem longRequestsJoin : Obligations.LongRequestsJoin := by
  refine ⟨fun tag s h free => ⟨fun first inRange => ?read,
      fun first content closed idle inRange good inactive => ?write, fun closed outside idle => ?save⟩,
    fun tag s h => ⟨fun running => ?state, fun outside saving => ?saving, fun outside barred => ?barred⟩,
    fun s => ⟨State.longBarred_iff, State.saving_iff⟩⟩
  case read =>
    show Host.Outcome.next (s.request tag codeReadTable _) = _
    rw [State.request_served h, State.readTable_scenes, State.readRow_joins (by simpa using free) inRange]
    rfl
  case write =>
    show Host.Outcome.next (s.request tag codeWriteTable _) = _
    rw [State.request_served h, restricted_closed (s := s.goodFrame) closed,
      State.writeTable_scenes (by simpa using idle), State.writeRow_joins (by simpa using free) inRange (by simpa using good) (by simpa using inactive)]
    rfl
  case save =>
    rw [exec_saveImage h closed,
      State.trySave_joins (by simpa using free) (by simpa using outside) (by simpa using idle)]
    rfl
  case state =>
    rw [exec_saveImage h.1 h.2, State.trySave_inRun (by simpa using running)]
    rfl
  case saving =>
    rw [exec_saveImage h.1 h.2, State.trySave_busy (by simpa using outside) (by simp [saving])]
    rfl
  case barred =>
    rw [exec_saveImage h.1 h.2, State.trySave_busy (by simpa using outside) (by simp [barred])]
    rfl

end Sys2Proof.Machine
end

section
/-! The room in the queues (R115, R117, R143, R160, R167) and the form of the image region (R176): what the operations
and the blocks leave of them. -/

namespace Sys2Proof.Machine

open Sys2Proof

/-! ### The trunk interface (R160, R167) -/

/-- No reply is placed in `u` that `t` has not, and the reports of `u` are within their room if those of `t` are. -/
structure TrunkUnit.RoomKept (t u : TrunkUnit) : Prop where
  replies : u.replies.length ≤ t.replies.length
  reports : t.reports.length ≤ 16 → u.reports.length ≤ 16

@[simp] theorem TrunkUnit.RoomKept.rfl {t : TrunkUnit} : t.RoomKept t := ⟨Nat.le_refl _, id⟩

theorem TrunkUnit.RoomKept.trans {t u v : TrunkUnit} (h : t.RoomKept u) (h' : u.RoomKept v) : t.RoomKept v :=
  ⟨h'.replies.trans h.replies, h'.reports ∘ h.reports⟩

theorem TrunkUnit.roomKept_of_queues {t u : TrunkUnit} (hreplies : u.replies = t.replies)
    (hreports : u.reports = t.reports) : t.RoomKept u := ⟨by rw [hreplies], by rw [hreports]; exact id⟩

/-- A chain that starts at a trunk interface with the same queues. -/
theorem TrunkUnit.RoomKept.after {t u v : TrunkUnit} (h : u.RoomKept v) (hreplies : u.replies = t.replies)
    (hreports : u.reports = t.reports) : t.RoomKept v := (TrunkUnit.roomKept_of_queues hreplies hreports).trans h

theorem TrunkUnit.startSending_roomKept (t : TrunkUnit) : t.RoomKept t.startSending :=
  TrunkUnit.roomKept_of_queues (by simp) (by simp)

/-- R167: a frame queued finds its room. -/
theorem TrunkUnit.queueReport_roomKept {t : TrunkUnit} (room : t.reportsFull = false) (r : Report) :
    t.RoomKept (t.queueReport r) := by
  have free : ¬ 16 ≤ t.reports.length := of_decide_eq_false room
  refine ⟨?_, fun _ => ?_⟩ <;> simp [TrunkUnit.queueReport]
  omega

theorem TrunkUnit.raiseDropped_roomKept (t : TrunkUnit) (e : Word16) : t.RoomKept (t.raiseDropped e) := by
  unfold TrunkUnit.raiseDropped
  (repeat' split) <;> exact TrunkUnit.roomKept_of_queues rfl rfl

theorem TrunkUnit.offerNotice_roomKept (t : TrunkUnit) (e : Word16) (r : Option AbortRecord) :
    t.RoomKept (t.offerNotice e r) := by
  unfold TrunkUnit.offerNotice
  split
  · exact .after (TrunkUnit.raiseDropped_roomKept _ e) rfl rfl
  · exact TrunkUnit.queueReport_roomKept (by simpa using ‹¬t.reportsFull = true›) _

theorem TrunkUnit.raise_roomKept (t : TrunkUnit) (f : EventFlag) (e : Word16) (r : Option AbortRecord) :
    t.RoomKept (t.raise f e r) := by
  unfold TrunkUnit.raise
  split
  · exact .rfl
  · split
    · exact .after (TrunkUnit.offerNotice_roomKept _ e r) rfl rfl
    · exact TrunkUnit.roomKept_of_queues rfl rfl

theorem TrunkUnit.raiseAborted_roomKept (t : TrunkUnit) (notify : Bool) (e : Word16) (r : Option AbortRecord) :
    t.RoomKept (t.raiseAborted notify e r) := by
  unfold TrunkUnit.raiseAborted
  split
  · exact .after (TrunkUnit.offerNotice_roomKept _ e r) rfl rfl
  · exact t.raise_roomKept _ e r

theorem TrunkUnit.offerUplink_roomKept (t : TrunkUnit) (l : List UplinkEntry) (e : Word16) :
    t.RoomKept (t.offerUplink l e).1 := by
  unfold TrunkUnit.offerUplink
  split
  · exact .after (TrunkUnit.raiseDropped_roomKept _ e) rfl rfl
  · exact TrunkUnit.queueReport_roomKept (by simpa using ‹¬t.reportsFull = true›) _

theorem TrunkUnit.clearFlags_roomKept (t : TrunkUnit) (mask value e : Word16) (r : Option AbortRecord) :
    t.RoomKept (t.clearFlags mask value e r) := by
  have raised (l : List EventFlag) (u : TrunkUnit) : u.RoomKept (l.foldl (fun t f => t.raise f e r) u) := by
    induction l generalizing u with
    | nil => exact .rfl
    | cons f l ih => exact (u.raise_roomKept f e r).trans (ih _)
  exact .after (raised _ _) rfl rfl

/-- R167: the end of a transmission takes a frame off its queue. -/
theorem TrunkUnit.endSending_roomKept (t : TrunkUnit) : t.RoomKept t.endSending := by
  unfold TrunkUnit.endSending
  split
  · exact .rfl
  · exact ⟨by simp, fun h => by simpa using h⟩
  · exact ⟨by simp, fun h => by simp; omega⟩

/-! ### From one part to a later one -/

/-- R160: the replies held and the places reserved for long requests. -/
def State.replyPlaces (s : State) : Nat := s.trunk.replies.length + s.longCount

/-- `t` has the image region in its form if `s` has it, takes no more reply places and long requests than `s`, and keeps
within the room of each other queue if `s` does. -/
structure State.RoomKept (s t : State) : Prop where
  image : s.memoryLaw → t.memoryLaw
  places : t.replyPlaces ≤ s.replyPlaces
  long : t.longCount ≤ s.longCount
  operations : s.store.queue.length ≤ 8 → t.store.queue.length ≤ 8
  reports : s.trunk.reports.length ≤ 16 → t.trunk.reports.length ≤ 16
  stage : s.bracket.stage.length ≤ 64 → t.bracket.stage.length ≤ 64

/-- What the laws of the queues and of the image region read of the part. -/
def State.roomView (s : State) : List Host.Cell × List MemOp × List StageItem × TrunkUnit :=
  (s.memory.image, s.store.queue, s.bracket.stage, s.trunk)

variable {s t u : State}

theorem State.RoomKept.rfl : s.RoomKept s := ⟨id, Nat.le_refl _, Nat.le_refl _, id, id, id⟩

theorem State.RoomKept.trans (h : s.RoomKept t) (h' : t.RoomKept u) : s.RoomKept u :=
  ⟨h'.image ∘ h.image, h'.places.trans h.places, h'.long.trans h.long, h'.operations ∘ h.operations,
    h'.reports ∘ h.reports, h'.stage ∘ h.stage⟩

theorem State.longCount_of_queue (h : t.store.queue = s.store.queue) : t.longCount = s.longCount := by
  rw [State.longCount, h]
  rfl

/-- The image region and the memory port queue stand, the stage grows no longer, and the trunk keeps its room. -/
theorem State.roomKept_of_trunk (himage : t.memory.image = s.memory.image) (hqueue : t.store.queue = s.store.queue)
    (hstage : t.bracket.stage.length ≤ s.bracket.stage.length) (htrunk : s.trunk.RoomKept t.trunk) : s.RoomKept t where
  image := by simp only [State.memoryLaw, himage, imp_self]
  places := Nat.add_le_add htrunk.replies (State.longCount_of_queue hqueue).le
  long := (State.longCount_of_queue hqueue).le
  operations := by rw [hqueue]; exact id
  reports := htrunk.reports
  stage := hstage.trans

/-- What the trunk interface alone keeps of its room. -/
theorem State.roomKept_setTrunk {trunk : TrunkUnit} (h : s.trunk.RoomKept trunk) :
    s.RoomKept { s with trunk := trunk } :=
  State.roomKept_of_trunk rfl rfl (Nat.le_refl _) h

theorem State.roomKept_of_view (h : t.roomView = s.roomView) : s.RoomKept t := by
  simp only [State.roomView, Prod.mk.injEq] at h
  obtain ⟨himage, hqueue, hstage, htrunk⟩ := h
  exact State.roomKept_of_trunk himage hqueue (by rw [hstage]) (by rw [htrunk]; exact .rfl)

/-- A chain that starts at a part that looks the same. -/
theorem State.RoomKept.after (h : t.RoomKept u) (hv : t.roomView = s.roomView) : s.RoomKept u :=
  (State.roomKept_of_view hv).trans h

theorem State.RoomKept.ite {c : Prop} [Decidable c] (ht : s.RoomKept t) (hu : s.RoomKept u) :
    s.RoomKept (if c then t else u) := by
  split
  · exact ht
  · exact hu

/-- The links of the image's events are no matter of the queues. -/
theorem State.RoomKept.relinked (h : s.RoomKept t) (f : EventLink → EventLink) : s.RoomKept (u.relinked t f) :=
  h.trans (State.roomKept_of_view (Eq.refl t.roomView))

theorem foldl_roomKept {β : Type} {f : State → β → State} (h : ∀ (s : State) b, s.RoomKept (f s b)) (l : List β)
    (s : State) : s.RoomKept (l.foldl f s) := by
  induction l generalizing s with
  | nil => exact .rfl
  | cons b l ih => exact (h s b).trans (ih (f s b))

section blocks
variable (s)

theorem State.raise_roomKept (f : EventFlag) : s.RoomKept (s.raise f) :=
  State.roomKept_setTrunk (s.trunk.raise_roomKept ..)

theorem State.raiseIf_roomKept (c : Bool) (f : EventFlag) : s.RoomKept (s.raiseIf c f) :=
  .ite (s.raise_roomKept f) .rfl

/-- R151: an abort empties the stage. -/
theorem State.abortBracket_roomKept (c : AbortCode) (o : Option Nat) (r : Option ResultCode) :
    s.RoomKept (s.abortBracket c o r) :=
  .ite (State.roomKept_of_trunk rfl rfl (Nat.zero_le _) (s.trunk.raiseAborted_roomKept ..)) .rfl

theorem State.countedAbort_roomKept (c : AbortCode) (o : Option Nat) (r : Option ResultCode) :
    s.RoomKept (s.countOrdinal.abortBracket c o r) := .after (State.abortBracket_roomKept _ c o r) rfl

theorem State.writeSeries_roomKept (writes : List (Nat × Nat)) : s.RoomKept (s.writeSeries writes) :=
  State.roomKept_of_view (by simp [State.roomView])

/-! ### The surface watch (R45, R58) -/

theorem State.setGuard_roomKept (g : GuardLevel) : s.RoomKept (s.setGuard g) := by
  have changed : s.RoomKept
      (State.reclamp (State.raise { s with watch := { s.watch with guard := g } } .guardChanged) g) :=
    .after ((State.raise_roomKept _ _).trans (State.roomKept_of_view rfl)) rfl
  exact .ite .rfl (.ite (changed.trans (State.abortBracket_roomKept _ _ _ _)) changed)

theorem State.watchEvent_roomKept (act : Nat → WatchRec → WatchRun → EntryOutcome) : s.RoomKept (s.watchEvent act) :=
  .after ((State.raiseIf_roomKept _ _ _).trans (State.setGuard_roomKept _ _)) rfl

/-! ### The fog monitor (R66 to R75) -/

theorem State.putStep_roomKept (i k : Nat) : s.RoomKept (s.putStep i k) :=
  State.roomKept_of_view (by simp [State.roomView])

theorem State.publishFog_roomKept : s.RoomKept s.publishFog := State.roomKept_of_view (by simp [State.roomView])

theorem State.putFogState_roomKept (i : Nat) (n : FogState) : s.RoomKept (s.putFogState i n) :=
  .ite .rfl (.after ((State.raise_roomKept _ _).trans (State.putStep_roomKept _ _ _)) rfl)

theorem State.evaluateStation_roomKept (i : Nat) : s.RoomKept (s.evaluateStation i) := by
  unfold State.evaluateStation
  dsimp only
  split <;> exact .after (State.putFogState_roomKept _ _ _) rfl

theorem State.fogPoint_roomKept (p : Nat) : s.RoomKept (s.fogPoint p) := by
  unfold State.fogPoint
  split
  · exact .rfl
  · exact ((foldl_roomKept State.evaluateStation_roomKept _ s).trans (State.publishFog_roomKept _)).relinked ..

theorem State.retuneStation_roomKept (i : Nat) (before : FogTuneRec) : s.RoomKept (s.retuneStation i before) :=
  .ite (s.putFogState_roomKept ..) (.ite (State.roomKept_of_view (by simp [State.roomView])) .rfl)

theorem State.fogRetune_roomKept (before : Tab FogTuneRec 8) (first n : Nat) :
    s.RoomKept (s.fogRetune before first n) :=
  ((foldl_roomKept (fun s i => s.retuneStation_roomKept i _) _ s).trans (State.publishFog_roomKept _)).relinked ..

/-! ### The heat dispatcher and the points (R15 to R21, R87, R88) -/

theorem State.dispatchPass_roomKept : s.RoomKept s.dispatchPass :=
  (((s.writeSeries_roomKept _).trans (State.raiseIf_roomKept _ _ _)).trans (State.raiseIf_roomKept _ _ _)).trans
    (State.roomKept_of_view rfl)

theorem State.heatArrival_roomKept (p : Nat) : s.RoomKept (s.heatArrival p) :=
  .ite (.ite s.dispatchPass_roomKept (State.roomKept_of_view rfl)) .rfl

theorem State.zonePoint_roomKept (p : Nat) : s.RoomKept (s.zonePoint p) :=
  State.roomKept_of_view (by simp [State.roomView])

theorem State.lossOfUse_roomKept (p : Nat) : s.RoomKept (s.lossOfUse p) :=
  ((s.watchEvent_roomKept _).trans (State.fogPoint_roomKept _ p)).trans (State.zonePoint_roomKept _ p)

theorem State.valueUpdate_roomKept (p : Nat) (v : Int) : s.RoomKept (s.valueUpdate p v) :=
  (((s.watchEvent_roomKept _).trans (State.fogPoint_roomKept _ p)).trans
    (State.zonePoint_roomKept _ p)).trans (State.heatArrival_roomKept _ p)

theorem State.setPoint_roomKept (p : Nat) (r : PointRun) : s.RoomKept (s.setPoint p r) := State.roomKept_of_view rfl

theorem State.okItem_roomKept (p : Nat) (v : Int) : s.RoomKept (s.okItem p v) :=
  (s.setPoint_roomKept p _).trans (State.valueUpdate_roomKept _ p _)

theorem State.faultItem_roomKept (p : Nat) : s.RoomKept (s.faultItem p) :=
  .trans (s.setPoint_roomKept p _) (.ite (State.lossOfUse_roomKept _ p) .rfl)

theorem State.applyItem_roomKept (n : Nat) (item : Item) : s.RoomKept (s.applyItem n item) := by
  unfold State.applyItem
  split
  · split
    · exact s.okItem_roomKept ..
    · exact s.faultItem_roomKept _
  · exact .rfl

theorem State.sendUplink_roomKept (points : List Nat) : s.RoomKept (s.sendUplink points) := by
  have offered : s.RoomKept (s.offerUplink (points.map s.uplinkEntry)).1 :=
    State.roomKept_setTrunk (s.trunk.offerUplink_roomKept ..)
  have sent (u : State) : u.RoomKept (points.foldl State.markSent u) :=
    foldl_roomKept (f := State.markSent) (fun _ _ => State.roomKept_of_view rfl) points u
  exact .ite .rfl (.ite (offered.trans (sent _)) offered)

theorem State.takeItems_roomKept (n : Nat) (items : List Item) : s.RoomKept (s.takeItems n items) :=
  (foldl_roomKept (fun s i => s.applyItem_roomKept n i) items s).trans (State.sendUplink_roomKept _ _)

theorem State.goStale_roomKept (p : Nat) : s.RoomKept (s.goStale p) :=
  .ite (.trans (.trans (s.setPoint_roomKept p _) (.ite (State.lossOfUse_roomKept _ p) .rfl))
    (.ite (State.sendUplink_roomKept _ _) .rfl)) .rfl

/-! ### The banks and the fade engines (R121 to R124, R131 to R137) -/

theorem State.closeBank_roomKept (b : Nat) : s.RoomKept (s.closeBank b) := .ite (State.roomKept_of_view rfl) .rfl

/-- R117: an ACTIVATE that finds room joins the memory port queue; it is no long request. -/
theorem State.startActivation_roomKept (room : s.memoryFull = false) (b r : Nat) :
    s.RoomKept (s.startActivation b r) := by
  have free : ¬ 8 ≤ s.store.queue.length := of_decide_eq_false room
  have long : (s.startActivation b r).longCount = s.longCount := by
    simp [State.longCount, State.startActivation, MemOp.isLong]
  refine ⟨id, Nat.add_le_add (Nat.le_refl _) long.le, long.le, fun _ => ?_, id, id⟩
  simp [State.startActivation]
  omega

theorem State.endFade_roomKept (b : Nat) : s.RoomKept (s.endFade b) := by
  have raised : s.RoomKept ((s.setEngine b .initial).raise .cueDone) := .after (State.raise_roomKept _ _) rfl
  exact .ite (raised.trans (State.closeBank_roomKept _ b)) raised

theorem State.firstMove_roomKept (b : Nat) : s.RoomKept (s.firstMove b) :=
  .ite (s.endFade_roomKept b)
    (.ite ((s.writeSeries_roomKept _).trans (State.endFade_roomKept _ b)) (State.roomKept_of_view rfl))

theorem State.startFade_roomKept (b : Nat) : s.RoomKept (s.startFade b) := by
  have taken : s.RoomKept (s.takeOver b) := State.roomKept_of_view rfl
  exact (taken.trans (foldl_roomKept State.endFade_roomKept _ _)).trans (State.firstMove_roomKept _ b)

theorem State.cueFade_roomKept (b : Nat) (fade : Option Nat) (rel : Bool) : s.RoomKept (s.cueFade b fade rel) :=
  .after (State.startFade_roomKept _ b) rfl

theorem State.fadeStep_roomKept (b : Nat) : s.RoomKept (s.fadeStep b) := by
  have stepped (e : Engine) (writes : List (Nat × Nat)) : s.RoomKept ((s.setEngine b e).writeSeries writes) :=
    .after (State.writeSeries_roomKept _ _) rfl
  exact .ite ((stepped _ _).trans (State.endFade_roomKept _ b)) (stepped _ _)

theorem State.deliverActivation_roomKept (b : Nat) : s.RoomKept (s.deliverActivation b) := by
  unfold State.deliverActivation
  dsimp only
  split
  · exact .after (State.startFade_roomKept _ b) rfl
  · exact State.roomKept_of_view rfl
  · exact .rfl

theorem State.takeCue_roomKept (b r : Nat) (fade : Option Nat) (rel : Bool) :
    s.RoomKept (s.takeCue b r fade rel).1 := by
  have pended (u : State) : u.RoomKept (u.pend b r fade rel) := State.roomKept_of_view rfl
  unfold State.takeCue
  split
  case h_1 | h_2 => exact s.cueFade_roomKept b fade rel
  case h_5 => exact (s.closeBank_roomKept b).trans (pended _)
  case h_6 =>
    split
    · exact .rfl
    · exact (s.startActivation_roomKept (by simpa using ‹¬s.memoryFull = true›) b r).trans (pended _)
  all_goals exact State.roomKept_of_view rfl

theorem State.takeRelease_roomKept (b : Nat) : s.RoomKept (s.takeRelease b).1 := by
  unfold State.takeRelease
  split
  · exact State.roomKept_of_view rfl
  · exact .rfl
  · exact s.closeBank_roomKept b

theorem State.settleEnds_roomKept (b : Nat) : s.RoomKept (s.settleEnds b) := by
  unfold State.settleEnds
  dsimp only
  split
  · split
    · exact .after (State.raise_roomKept _ _) rfl
    · exact .after (State.startActivation_roomKept _ (by simpa using ‹¬_ = true›) b _) rfl
  · exact State.roomKept_of_view rfl

theorem State.activationEnds_roomKept (b r : Nat) : s.RoomKept (s.activationEnds b r) := by
  unfold State.activationEnds
  dsimp only
  refine .ite (State.roomKept_of_view rfl) ?_
  split
  · exact State.roomKept_of_view rfl
  · exact .trans (.after (State.raise_roomKept _ _) rfl) (State.roomKept_of_view rfl)

end blocks

/-! ### The memory port queue (R115, R124, R160) -/

/-- The long requests among operations. -/
theorem State.longCount_of_cons {op : MemOp} {rest : List MemOp} (hq : s.store.queue = op :: rest) :
    s.longCount = (rest.filter MemOp.isLong).length + if op.isLong then 1 else 0 := by
  rw [State.longCount, hq, List.filter_cons]
  split <;> rfl

theorem State.leaveMemory_roomKept (s : State) : s.RoomKept s.leaveMemory := by
  have fewer : s.leaveMemory.longCount ≤ s.longCount :=
    ((List.tail_sublist s.store.queue).filter _).length_le
  refine ⟨id, Nat.add_le_add (Nat.le_refl _) fewer, fewer, fun h => ?_, id, id⟩
  simp
  omega

/-- R160: the reply of a long request takes the place reserved for it. -/
theorem State.longEnds_roomKept {op : MemOp} (hq : s.store.queue.head? = some op) (long : op.isLong = true)
    (tag code : Byte) (r : ResultCode) (data : List Byte) : s.RoomKept (s.leaveMemory.place tag code r data) := by
  obtain ⟨rest, queue⟩ : ∃ rest, s.store.queue = op :: rest := List.head?_eq_some_iff.1 hq
  have reserved := State.longCount_of_cons queue
  have left := s.leaveMemory_roomKept
  have count : (s.leaveMemory.place tag code r data).longCount = (rest.filter MemOp.isLong).length := by
    simp [State.longCount, queue]
  rw [if_pos long] at reserved
  refine ⟨left.image, ?_, left.long, left.operations, fun h => ?_, left.stage⟩
  · rw [State.replyPlaces, count, State.replyPlaces, reserved]
    simp [State.leaveMemory]
    omega
  · simpa [State.leaveMemory] using h

/-- R124: each long request removed is answered. -/
theorem State.failRemoved_trunk (s : State) (ops : List MemOp) :
    (s.failRemoved ops).trunk.replies.length = s.trunk.replies.length + (ops.filter MemOp.isLong).length ∧
      (s.failRemoved ops).trunk.reports = s.trunk.reports := by
  unfold State.failRemoved
  induction ops generalizing s with
  | nil => exact ⟨rfl, rfl⟩
  | cons op ops ih =>
    obtain ⟨replies, reports⟩ := ih _
    rw [List.foldl_cons, replies, reports, List.filter_cons]
    cases op <;> simp [MemOp.isLong] <;> omega

theorem State.flushMemory_roomKept (s : State) : s.RoomKept s.flushMemory := by
  have flushed : s.RoomKept
      (State.failRemoved { s with store := { s.store with queue := s.store.queue.take 1 } } s.store.queue.tail) := by
    obtain ⟨replies, reports⟩ :=
      State.failRemoved_trunk { s with store := { s.store with queue := s.store.queue.take 1 } } s.store.queue.tail
    have kept : s.longCount = ((s.store.queue.take 1).filter MemOp.isLong).length +
        (s.store.queue.tail.filter MemOp.isLong).length := by
      rw [← List.length_append, ← List.filter_append, ← List.drop_one, List.take_append_drop]
      rfl
    refine ⟨by simp [State.memoryLaw], ?_, ?_, fun _ => ?_, fun h => ?_, fun h => ?_⟩
    · rw [State.replyPlaces, replies, State.replyPlaces, kept]
      simp [State.longCount]
      omega
    · rw [kept]
      simp [State.longCount]
    · simp
    · rwa [reports]
    · simpa using h
  unfold State.flushMemory
  dsimp only
  split
  · exact flushed.trans (State.roomKept_of_view rfl)
  · exact flushed

end Sys2Proof.Machine
end

section
/-! The room in the queues and the form of the image region, command by command, and over a step. -/

namespace Sys2Proof.Machine

open Sys2Proof

section room
variable (s : State)

/-! ### The field segment (R4, R5, R9) -/

theorem State.moveNode_roomKept (a : Nat) (f : NodeRun → NodeRun) : s.RoomKept (s.moveNode a f) :=
  .after (State.raiseIf_roomKept _ _ _) (by simp [State.roomView])

theorem State.missNode_roomKept (n : Nat) : s.RoomKept (s.missNode n) := by
  unfold State.missNode
  split
  · exact s.moveNode_roomKept ..
  · exact .rfl

theorem State.endSlotAmid_roomKept (receiving : Bool) : s.RoomKept (s.endSlotAmid receiving) :=
  State.roomKept_of_view (by simp [State.roomView])

theorem State.frameDiscarded_roomKept : s.RoomKept s.frameDiscarded := by
  have counted : s.RoomKept s.discardFieldFrame := .after (State.raise_roomKept _ _) rfl
  have released (u : State) : u.RoomKept (u.releaseHold false) := State.roomKept_of_view (by simp [State.roomView])
  exact counted.trans (released _)

theorem State.goodReport_roomKept (address : Byte) (items : List Item) : s.RoomKept (s.goodReport address items) := by
  have moved : s.RoomKept (((s.setReplyTimer none).endSlotAmid false).moveNode address.toNat NodeRun.reported) :=
    .after ((State.endSlotAmid_roomKept _ _).trans (State.moveNode_roomKept _ _ _)) rfl
  exact .ite (.ite ((moved.trans (State.takeItems_roomKept _ _ items)).relinked _) s.frameDiscarded_roomKept) .rfl

theorem State.replyTimeout_roomKept (receiving : Bool) : s.RoomKept (s.replyTimeout receiving) := by
  unfold State.replyTimeout
  refine .ite ?_ .rfl
  split
  case h_1 => exact .after ((State.missNode_roomKept _ _).trans (State.endSlotAmid_roomKept _ _)) rfl
  all_goals exact .rfl

theorem State.refreshLapse_roomKept (a : Nat) : s.RoomKept (s.refreshLapse a) := by
  unfold State.refreshLapse
  refine .ite ?_ .rfl
  split
  · exact .ite .rfl (.after (State.raise_roomKept _ _) (by simp [State.roomView]))
  · exact .rfl

/-! ### Stageable requests and the bracket (R143 to R152) -/

theorem State.takeItem_roomKept (r : StagedReq) : s.RoomKept (s.takeItem r).1 := by
  cases r with
  | setChannel ch v => exact State.roomKept_of_view (by simp [State.takeItem, State.roomView])
  | setZone z o a b => exact State.roomKept_of_view (by simp [State.takeItem, State.roomView])
  | cue b r fade rel => exact s.takeCue_roomKept b r fade rel
  | releaseBank b => exact s.takeRelease_roomKept b

/-- R152: a commit empties the stage. -/
theorem State.commit_roomKept (ordinal : Nat) : s.RoomKept (s.commit ordinal).1 := by
  have emptied (u : State) : u.RoomKept u.bracketIdle :=
    State.roomKept_of_trunk rfl rfl (Nat.zero_le _) .rfl
  unfold State.commit
  split
  · have applied := foldl_roomKept (f := fun s i => (State.takeItem s i.request).1)
      (fun s i => s.takeItem_roomKept i.request) s.bracket.stage s
    exact (applied.relinked _).trans (emptied _)
  · exact s.abortBracket_roomKept ..

/-- R143: an item joins a stage that has room for it. -/
theorem State.stage_roomKept (room : s.bracket.stage.length < 64) (item : StageItem) :
    s.RoomKept { s with bracket := { s.bracket with stage := s.bracket.stage ++ [item] } } := by
  refine ⟨id, Nat.le_refl _, Nat.le_refl _, id, id, fun _ => ?_⟩
  rw [List.length_append]
  exact room

theorem State.stageItem_roomKept (o : Nat) (r : StagedReq) (clamped : Bool) :
    s.RoomKept (s.stageItem o r clamped).1 := by
  unfold State.stageItem
  dsimp only
  split
  · exact s.abortBracket_roomKept ..
  · have staged := s.stage_roomKept (Nat.lt_of_not_le ‹_›) ⟨o, r⟩
    split
    · split
      · exact staged.trans (.after (State.commit_roomKept _ o) rfl)
      · exact staged.trans (State.roomKept_of_view rfl)
    all_goals exact staged

theorem State.takeStageable_roomKept (c : Checked) : s.RoomKept (s.takeStageable c).1 := by
  unfold State.takeStageable
  dsimp only
  split
  · cases c with
    | refused a => exact .ite (s.countedAbort_roomKept ..) (State.roomKept_of_view rfl)
    | good r clamped => exact .after (State.stageItem_roomKept s.countOrdinal _ r clamped) rfl
  · cases c with
    | refused a => exact .rfl
    | good r clamped =>
      dsimp only
      split
      · exact .rfl
      all_goals exact s.takeItem_roomKept r

theorem State.takeDirect_roomKept (c : Checked) : s.RoomKept (s.takeDirect c).1 := by
  cases c with
  | refused a => exact .rfl
  | good r clamped => exact s.takeItem_roomKept r

/-- R145: a bracket opens with an empty stage. -/
theorem State.openBracket_roomKept (kind : BracketKind) (count : Nat) (strict notify : Bool) :
    s.RoomKept (s.openBracket kind count strict notify).1 := by
  unfold State.openBracket
  split
  · split
    · exact .rfl
    · split
      · exact .rfl
      · split
        · exact .rfl
        · exact State.roomKept_of_trunk rfl rfl (Nat.zero_le _) .rfl
  · dsimp only
    split
    · exact s.countedAbort_roomKept ..
    · split
      · exact s.countedAbort_roomKept ..
      · exact State.roomKept_of_view rfl
  · exact s.countedAbort_roomKept ..
  · exact .rfl

theorem State.closeBracket_roomKept : s.RoomKept s.closeBracket.1 := by
  unfold State.closeBracket
  dsimp only
  split
  · exact .rfl
  · split
    · exact State.roomKept_of_view rfl
    · exact .after (State.commit_roomKept s.countOrdinal _) rfl
  · exact s.countedAbort_roomKept ..
  · exact State.roomKept_of_view rfl

theorem State.abandonBracket_roomKept : s.RoomKept s.abandonBracket.1 := by
  unfold State.abandonBracket
  dsimp only
  split
  · exact .rfl
  · exact s.countedAbort_roomKept ..
  · exact s.countedAbort_roomKept ..
  · exact State.roomKept_of_view rfl

/-! ### The tables (R162) -/

theorem State.storeRun_roomKept (id : TableId) (first n : Nat) (content : List Byte) :
    s.RoomKept (s.storeRun id first n content) := State.roomKept_of_view rfl

theorem State.writeConfig_roomKept (id : TableId) (first n : Nat) (content : List Byte) :
    s.RoomKept (s.writeConfig id first n content).1 := by
  refine State.roomKept_of_view ?_
  cases id
  case fogMap => simp only [State.writeConfig, State.resetWritten]; split <;> rfl
  all_goals rfl

theorem State.writeRunning_roomKept (id : TableId) (first n : Nat) (content : List Byte) :
    s.RoomKept (s.writeRunning id first n content).1 := by
  have stored (id : TableId) := s.storeRun_roomKept id first n content
  cases id
  case thresholds =>
    simp only [State.writeRunning, State.writeThresholds]
    split <;> dsimp only
    · exact .rfl
    · exact (stored .thresholds).trans (State.watchEvent_roomKept _ _)
  case fogTune =>
    simp only [State.writeRunning, State.writeFogTune]
    split <;> dsimp only
    · exact .rfl
    · exact (stored .fogTune).trans (State.fogRetune_roomKept _ _ _ _)
  case dispatch =>
    simp only [State.writeRunning, State.writeDispatch]
    split <;> dsimp only
    · exact .rfl
    · exact (stored .dispatch).trans (.ite (State.roomKept_of_view rfl) .rfl)
  case zoneSet =>
    simp only [State.writeRunning, State.writeZoneSet]
    split <;> dsimp only
    · exact .rfl
    · exact (stored .zoneSet).trans (State.roomKept_of_view (by simp [State.roomView]))
  case sinkTune =>
    simp only [State.writeRunning, State.writeSinkTune]
    split
    · exact .rfl
    · exact stored .sinkTune
  case timers =>
    simp only [State.writeRunning, State.writeTimers]
    split
    · exact .rfl
    · exact stored .timers
  case lightProfile =>
    simp only [State.writeRunning, State.writeProfile]
    split
    · exact .rfl
    · split
      · exact .rfl
      · exact stored .lightProfile
  case flagEnables => exact stored .flagEnables
  all_goals exact .rfl

/-! ### The operating state (R174, R177) -/

theorem State.enterRun_roomKept (receiving : Bool) : s.RoomKept (s.enterRun receiving) := by
  refine State.roomKept_of_trunk ?_ ?_ ?_ ?_ <;>
    simp [State.enterRun, State.applyStart, State.segEnterRun, State.watchEnterRun, State.heatEnterRun]

theorem State.stopBracket_roomKept : s.RoomKept s.stopBracket := .ite (s.countedAbort_roomKept ..) .rfl

theorem State.leaveRun_roomKept : s.RoomKept s.leaveRun := by
  have flushed : s.RoomKept s.stopBracket.flushMemory.restLighting.segEnterConfig :=
    (s.stopBracket_roomKept.trans (State.flushMemory_roomKept _)).trans (State.roomKept_of_view rfl)
  have watch (u : State) : u.RoomKept u.watchEnterConfig := .after (State.raiseIf_roomKept _ _ _) rfl
  have fog (u : State) : u.RoomKept u.fogEnterConfig := .after (State.raiseIf_roomKept _ _ _) rfl
  have rest (u : State) (l : Loader) : u.RoomKept { u.heatEnterConfig.zonesEnterConfig with loader := l } :=
    State.roomKept_of_view rfl
  exact ((flushed.trans (watch _)).trans (fog _)).trans (rest _ _)

theorem State.endLoad_roomKept (receiving : Bool) : s.RoomKept (s.endLoad receiving) := by
  unfold State.endLoad
  split
  · exact .after (State.enterRun_roomKept _ receiving) rfl
  · exact .after (State.raise_roomKept _ _) rfl

/-! ### The memory port (R116, R121, R179) -/

theorem State.activateComplete_roomKept : s.RoomKept s.activateComplete := by
  unfold State.activateComplete
  refine .ite ?_ .rfl
  split
  case h_1 => exact s.leaveMemory_roomKept.trans (State.activationEnds_roomKept _ _ _)
  all_goals exact .rfl

theorem State.rowWriteComplete_roomKept (flaws : List (Nat × Byte)) : s.RoomKept (s.rowWriteComplete flaws) := by
  unfold State.rowWriteComplete
  refine .ite ?_ .rfl
  split
  case h_1 hq => exact (State.longEnds_roomKept hq rfl _ _ _ _).trans (State.roomKept_of_view rfl)
  all_goals exact .rfl

theorem State.rowReadComplete_roomKept : s.RoomKept s.rowReadComplete := by
  unfold State.rowReadComplete
  refine .ite ?_ .rfl
  split
  case h_1 hq => exact .ite (State.longEnds_roomKept hq rfl _ _ _ _) (State.longEnds_roomKept hq rfl _ _ _ _)
  all_goals exact .rfl

theorem State.setImage_roomKept {m : List Host.Cell} (h : s.memoryLaw → Memory.wf m) : s.RoomKept (s.setImage m) :=
  ⟨h, Nat.le_refl _, Nat.le_refl _, id, id, id⟩

/-- R176: what a save writes, its flaws included, keeps the region's form. -/
theorem State.imageSaveComplete_roomKept (flaws : List (Nat × Byte)) : s.RoomKept (s.imageSaveComplete flaws) := by
  unfold State.imageSaveComplete
  refine .ite ?_ .rfl
  split
  case h_1 tag copy hq =>
    have ended (r : ResultCode) := State.longEnds_roomKept hq rfl tag codeSaveImage r []
    have spoiled (h : s.memoryLaw) :
        Memory.wf (Memory.spoil (writeUnsigned s.memory.image copy) (savedFlaws copy flaws)) :=
      Memory.spoil_wf (writeUnsigned_wf h copy) _
    refine .ite ?_ ?_
    · exact ((ended .done).trans (State.setImage_roomKept _ fun h => Memory.write_wf (spoiled h) _ _)).trans
        (.after (State.raise_roomKept _ _) rfl)
    · exact ((ended .failed).trans (State.setImage_roomKept _ spoiled)).trans (.after (State.raise_roomKept _ _) rfl)
  all_goals exact .rfl

end room

/-! ### The two laws -/

/-- Each of the two laws that `s` keeps, `t` keeps. -/
structure State.StoreLawsKept (s t : State) : Prop where
  memory : s.memoryLaw → t.memoryLaw
  queues : s.queueLaw → t.queueLaw

variable {s t u : State}

theorem State.StoreLawsKept.trans (h : s.StoreLawsKept t) (h' : t.StoreLawsKept u) : s.StoreLawsKept u :=
  ⟨h'.memory ∘ h.memory, h'.queues ∘ h.queues⟩

theorem State.RoomKept.laws (h : s.RoomKept t) : s.StoreLawsKept t := by
  refine ⟨h.image, fun ⟨places, long, operations, reports, stage⟩ => ?_⟩
  exact ⟨h.places.trans places, h.long.trans long, h.operations operations, h.reports reports, h.stage stage⟩

theorem State.storeLawsKept_of_view (h : t.roomView = s.roomView) : s.StoreLawsKept t :=
  (State.roomKept_of_view h).laws

theorem State.StoreLawsKept.ite {c : Prop} [Decidable c] (ht : s.StoreLawsKept t) (hu : s.StoreLawsKept u) :
    s.StoreLawsKept (if c then t else u) := by
  split
  · exact ht
  · exact hu

/-! ### Requests (R117, R158 to R160) -/

/-- A request is taken within the room: it leaves no more than it found, or long requests are not barred and its operation
joins the memory port queue, its reply to come. -/
def State.ServedInRoom (s : State) (o : State × Option Answer) : Prop :=
  s.RoomKept o.1 ∨ ∃ op, s.longBarred = false ∧ o = (s.joinMemory op, none)

/-- R160: with room for it, a reply is placed. -/
theorem State.place_laws (room : s.replyPlaces < 8) (h : s.RoomKept t) (tag code : Byte) (r : ResultCode)
    (data : List Byte) : s.StoreLawsKept (t.place tag code r data) := by
  refine ⟨h.image, fun law => ?_⟩
  obtain ⟨-, long, operations, reports, stage⟩ := h.laws.queues law
  refine ⟨?_, long, operations, by simpa using reports, stage⟩
  have places : (t.place tag code r data).replyPlaces = t.replyPlaces + 1 := by
    simp [State.replyPlaces, State.longCount]
    omega
  exact places.le.trans (Nat.lt_of_le_of_lt h.places room)

/-- R117: with room for its reply, a long request that is not barred joins. -/
theorem State.joinMemory_laws (room : s.replyPlaces < 8) (free : s.longBarred = false) (op : MemOp) :
    s.StoreLawsKept (s.joinMemory op) := by
  refine ⟨id, fun ⟨_, _, _, reports, stage⟩ => ?_⟩
  have unbarred : ¬ (8 ≤ s.store.queue.length ∨ 2 ≤ s.longCount) := by
    rw [← State.longBarred_iff, free]
    exact Bool.false_ne_true
  have count : (s.joinMemory op).longCount ≤ s.longCount + 1 := by
    rw [State.longCount, State.joinMemory_store, List.filter_append, List.length_append]
    exact Nat.add_le_add_left (List.length_filter_le ..) _
  have joined : (s.joinMemory op).store.queue.length = s.store.queue.length + 1 := by simp
  have places : s.trunk.replies.length + s.longCount < 8 := room
  refine ⟨?_, by omega, by omega, reports, stage⟩
  rw [State.joinMemory_trunk]
  omega

theorem State.passRequest_laws {serve : State → State × Option Answer} (hs : ∀ u : State, u.ServedInRoom (serve u))
    (tag code : Byte) : s.StoreLawsKept (s.passRequest tag code serve) := by
  have counted : s.RoomKept s.goodFrame := State.roomKept_setTrunk (TrunkUnit.roomKept_of_queues rfl rfl)
  unfold State.passRequest
  dsimp only
  refine .ite ?_ State.RoomKept.rfl.laws
  split
  · have dropped : s.goodFrame.RoomKept s.goodFrame.dropRequest :=
      State.roomKept_setTrunk (.after (TrunkUnit.raise_roomKept _ _ _ _) rfl rfl)
    exact (counted.trans dropped).laws
  · rename_i full
    have room : s.goodFrame.replyPlaces < 8 := Nat.lt_of_not_le fun most => full (decide_eq_true most)
    refine counted.laws.trans ?_
    obtain kept | ⟨op, free, joined⟩ := hs s.goodFrame
    · cases (serve s.goodFrame).2 with
      | none => exact kept.laws
      | some a => exact State.place_laws room kept ..
    · rw [joined]
      exact State.joinMemory_laws room free op

theorem unlessLoading_inRoom {serve : State → State × Option Answer} (hs : ∀ u : State, u.ServedInRoom (serve u))
    (u : State) : u.ServedInRoom (unlessLoading serve u) := by
  unfold unlessLoading
  split
  · exact .inl .rfl
  · exact hs u

theorem State.request_laws {serve : State → State × Option Answer} (hs : ∀ u : State, u.ServedInRoom (serve u))
    (tag code : Byte) : s.StoreLawsKept (s.request tag code serve) :=
  State.passRequest_laws (unlessLoading_inRoom hs) tag code

/-- R144: a restricted request that meets an open bracket aborts it. -/
theorem restricted_inRoom {serve : State → State × Option Answer} (hs : ∀ u : State, u.ServedInRoom (serve u))
    (u : State) : u.ServedInRoom (restricted serve u) := by
  unfold restricted
  split
  · exact .inl (u.countedAbort_roomKept ..)
  · exact hs u

section requests
variable (s)

theorem State.readTable_inRoom (tag table : Byte) (first count : Word16) :
    s.ServedInRoom (s.readTable tag table first count) := by
  unfold State.readTable State.readRow
  split
  · exact .inl .rfl
  · split
    · split
      · split
        · exact .inl .rfl
        · split
          · exact .inl .rfl
          · exact .inr ⟨_, by simpa using ‹¬s.longBarred = true›, rfl⟩
      · exact .inl .rfl
    · split <;> exact .inl .rfl

theorem State.writeRow_inRoom (tag : Byte) (bank row : Nat) (content : List Byte) :
    s.ServedInRoom (s.writeRow tag bank row content) := by
  unfold State.writeRow
  split
  · exact .inl .rfl
  · split
    · exact .inl .rfl
    · split
      · exact .inl .rfl
      · split
        · exact .inl .rfl
        · exact .inr ⟨_, by simpa using ‹¬s.longBarred = true›, rfl⟩

theorem State.writeTable_inRoom (tag table : Byte) (first count : Word16) (content : List Byte) :
    s.ServedInRoom (s.writeTable tag table first count content) := by
  unfold State.writeTable
  split
  · exact .inl .rfl
  · split
    · exact .inl .rfl
    · split
      · exact .inl .rfl
      · split
        · split
          · exact s.writeRow_inRoom ..
          · exact .inl .rfl
        · split
          · exact .inl .rfl
          · dsimp only
            split
            · exact .inl (s.writeRunning_roomKept ..)
            · exact .inl (s.writeConfig_roomKept ..)

theorem State.trySave_inRoom (tag : Byte) : s.ServedInRoom (s.trySave tag) := by
  unfold State.trySave
  split
  · exact .inl .rfl
  · split
    · exact .inl .rfl
    · split
      · exact .inl .rfl
      · exact .inr ⟨_, by simpa using ‹¬s.longBarred = true›, rfl⟩

theorem State.tryEnterRun_inRoom (receiving : Bool) : s.ServedInRoom (s.tryEnterRun receiving) := by
  unfold State.tryEnterRun
  split
  · exact .inl .rfl
  · split
    · exact .inl .rfl
    · split
      · exact .inl .rfl
      · refine .inl ?_
        dsimp only
        exact s.enterRun_roomKept receiving

theorem serveClear_inRoom (mask value : Word16) : s.ServedInRoom (serveClear mask value s) :=
  .inl (State.roomKept_setTrunk (s.trunk.clearFlags_roomKept ..))

/-! ### Resets and the supply (R175) -/

theorem State.started_queueLaw (pending : List Instr) (memory : SerialMemory) (straps : Straps) (cause : ResetCause) :
    (State.started pending memory straps cause).queueLaw := by
  simp [State.queueLaw, State.longCount, State.started, SceneStore.initial, TrunkUnit.initial, BracketUnit.initial]

theorem State.start_laws (straps : Straps) (cause : ResetCause) (cut : Nat) :
    s.StoreLawsKept (s.start straps cause cut) :=
  ⟨fun h => State.cutMemory_wf h cut, fun _ => State.started_queueLaw ..⟩

theorem State.stopped_laws (cut : Nat) (p : Power) : s.StoreLawsKept (s.stopped cut p) :=
  ⟨fun h => State.cutMemory_wf h cut,
    fun _ => ⟨Nat.zero_le _, Nat.zero_le _, Nat.zero_le _, Nat.zero_le _, Nat.zero_le _⟩⟩

theorem State.frameSent_laws : s.StoreLawsKept s.frameSent := by
  have ended : s.RoomKept { s with trunk := s.trunk.endSending } :=
    State.roomKept_setTrunk s.trunk.endSending_roomKept
  exact .ite (.ite (s.start_laws ..) ended.laws) State.RoomKept.rfl.laws

/-! ### Every command, and a millisecond -/

theorem exec_storeLawsKept (c : Instr) : Holds s.StoreLawsKept (exec c s) := by
  have leaves {t : State} (h : s.RoomKept t) : Holds s.StoreLawsKept (.next t) := holds_next h.laws
  have unseen {t : State} (h : t.roomView = s.roomView) : Holds s.StoreLawsKept (.next t) :=
    leaves (State.roomKept_of_view h)
  have same : s.StoreLawsKept s := State.RoomKept.rfl.laws
  cases c
  case powerOn straps cut => exact holds_next (.ite (s.stopped_laws ..) (s.start_laws ..))
  case resetPin straps cut => exact holds_next (.ite (s.start_laws ..) (State.storeLawsKept_of_view rfl))
  case softReset straps cut => exact holds_next (.ite (s.start_laws ..) same)
  case resetPinAsserted cut => exact holds_next (.ite (s.stopped_laws ..) (State.storeLawsKept_of_view rfl))
  case powerFails cut => exact holds_next (s.stopped_laws ..)
  case trunkFrameSent => exact holds_next s.frameSent_laws
  -- the requests
  case readInfo tag => exact holds_next (State.passRequest_laws (serve := serveInfo) (fun _ => .inl .rfl) _ _)
  case readStatus tag => exact holds_next (State.passRequest_laws (serve := serveStatus) (fun _ => .inl .rfl) _ _)
  case malformedRequest tag code =>
    exact holds_next (State.passRequest_laws (serve := serveMalformed) (fun _ => .inl .rfl) _ _)
  case resetPart tag => exact holds_next (State.request_laws (serve := serveResetPart) (fun _ => .inl .rfl) _ _)
  case readTable tag table first count => exact holds_next (State.request_laws (fun u => u.readTable_inRoom ..) _ _)
  case writeTable tag table first count content =>
    exact holds_next (State.request_laws (restricted_inRoom fun u => u.writeTable_inRoom ..) _ _)
  case saveImage tag => exact holds_next (State.request_laws (restricted_inRoom fun u => u.trySave_inRoom tag) _ _)
  case enterRun tag receiving =>
    exact holds_next (State.request_laws (restricted_inRoom fun u => u.tryEnterRun_inRoom receiving) _ _)
  case enterConfig tag =>
    exact holds_next (State.request_laws (fun u => .inl (.ite u.leaveRun_roomKept .rfl)) _ _)
  case clearFlags tag mask value => exact holds_next (State.request_laws (serveClear_inRoom · mask value) _ _)
  case releaseWatch tag mask =>
    exact holds_next (State.request_laws (serve := serveRelease mask) (fun u => .inl (u.watchEvent_roomKept _)) _ _)
  case setChannel tag channel value direct =>
    refine holds_next (State.request_laws (fun u => .inl ?_) _ _)
    split
    · exact u.takeDirect_roomKept _
    · exact u.takeStageable_roomKept _
  case setZone | cue | releaseBank =>
    exact holds_next (State.request_laws (fun u => .inl (u.takeStageable_roomKept _)) _ _)
  case openBracket tag kind count strict notify =>
    exact holds_next (State.request_laws (fun u => .inl (u.openBracket_roomKept ..)) _ _)
  case closeBracket tag => exact holds_next (State.request_laws (fun u => .inl u.closeBracket_roomKept) _ _)
  case abandonBracket tag => exact holds_next (State.request_laws (fun u => .inl u.abandonBracket_roomKept) _ _)
  -- the events that reach a queue or the image region
  case imageLoad receiving => exact leaves (.ite (s.endLoad_roomKept receiving) .rfl)
  case trunkSilenceExpiry =>
    have silent : s.RoomKept (State.raise { s with trunk := { s.trunk with silence := none } } .trunkSilent) :=
      State.roomKept_setTrunk (.after (TrunkUnit.raise_roomKept _ _ _ _) rfl rfl)
    exact leaves (.ite (silent.trans (State.abortBracket_roomKept _ _ _ _)) .rfl)
  case trunkBadFrame =>
    exact leaves (.ite (State.roomKept_setTrunk (TrunkUnit.roomKept_of_queues rfl rfl)) .rfl)
  case bracketTimerExpiry => exact leaves (.ite (s.abortBracket_roomKept ..) .rfl)
  case goodReport address items => exact leaves (s.goodReport_roomKept address items)
  case replyTimeout receiving => exact leaves (s.replyTimeout_roomKept receiving)
  case fieldBadFrame => exact leaves (.ite s.frameDiscarded_roomKept .rfl)
  case pointStale p => exact leaves (.ite ((s.goStale_roomKept p).relinked _) .rfl)
  case refreshLapse address => exact leaves (s.refreshLapse_roomKept address.toNat)
  case qualifyExpiry | releaseExpiry | holdExpiry | windowExpiry =>
    exact leaves (.ite (s.watchEvent_roomKept _) .rfl)
  case dispatchTimerExpiry => exact leaves (.ite s.dispatchPass_roomKept .rfl)
  case activateComplete => exact leaves s.activateComplete_roomKept
  case rowWriteComplete flaws => exact leaves (s.rowWriteComplete_roomKept flaws)
  case rowReadComplete => exact leaves s.rowReadComplete_roomKept
  case imageSaveComplete flaws => exact leaves (s.imageSaveComplete_roomKept flaws)
  case activationDelivery b => exact leaves (.ite (.after (State.deliverActivation_roomKept _ b) rfl) .rfl)
  case settleExpiry b => exact leaves (.ite (s.settleEnds_roomKept b) .rfl)
  case fadeStepExpiry b => exact leaves (.ite (s.fadeStep_roomKept b) .rfl)
  -- the events that have no part in them
  case pollSent | setSent | ignoredFieldFrameEnd | refreshExpiry | patternStepExpiry | dehumidRunExpiry
      | dehumidRestExpiry | dispatchResultDelivery =>
    refine unseen ?_
    simp only [State.roomView, State.pollSent, State.setSent, State.ignoredFrameEnds, State.refreshExpiry,
      State.patternStep, State.dehumidRunEnds, State.dehumidRestEnds, State.deliverResult]
    (repeat' split) <;> simp

theorem State.tick_roomKept : s.RoomKept s.tick := by
  have passed : s.RoomKept s.passRun := State.roomKept_of_view rfl
  have silent (u : State) (t : Option Nat) : u.RoomKept { u with trunk := { u.trunk with silence := t } } :=
    State.roomKept_setTrunk (TrunkUnit.roomKept_of_queues rfl rfl)
  exact .ite (.trans (.ite passed .rfl) (silent _ _)) .rfl

end requests

/-- A command that waits, one that is due, or a millisecond. -/
theorem step_storeLawsKept (h : step s = .next t) : s.StoreLawsKept t := by
  unfold step at h
  split at h
  · rename_i c rest _
    have waiting : s.RoomKept { s with pending := rest } := State.roomKept_of_view rfl
    exact waiting.laws.trans (exec_storeLawsKept _ c t h)
  · unfold State.idle at h
    split at h
    · exact exec_storeLawsKept s _ t h
    · cases h
      exact s.tick_roomKept.laws

/-- Settles O58. -/
theorem queuesKept : Obligations.QueuesKept :=
  ⟨fun _ _ law h => (step_storeLawsKept h).memory law, fun _ _ law h => (step_storeLawsKept h).queues law⟩

end Sys2Proof.Machine
end

section
/-! The fade levels (R134): how much of the way from start to target a step has gone, and the level it gives. -/

namespace Sys2Proof.Machine

open Sys2Proof

/-! ### A part of a signed distance, truncated toward zero -/

section part
variable {d : Int} {k n : Nat}

theorem tdiv_part_of_nonneg (hd : 0 ≤ d) (hk : k ≤ n) : 0 ≤ (d * k).tdiv n ∧ (d * k).tdiv n ≤ d := by
  have part : 0 ≤ d * k := mul_nonneg hd (Int.natCast_nonneg k)
  have whole : d * k ≤ d * n := mul_le_mul_of_nonneg_left (Int.ofNat_le.2 hk) hd
  refine ⟨Int.tdiv_nonneg part (Int.natCast_nonneg n), ?_⟩
  rw [Int.tdiv_eq_ediv_of_nonneg part]
  obtain rfl | pos := Nat.eq_zero_or_pos n
  · simpa using hd
  · exact Int.ediv_le_of_le_mul (Int.natCast_pos.2 pos) whole

/-- Truncation toward zero makes the way down the mirror of the way up. -/
theorem tdiv_part_of_nonpos (hd : d ≤ 0) (hk : k ≤ n) : d ≤ (d * k).tdiv n ∧ (d * k).tdiv n ≤ 0 := by
  obtain ⟨low, high⟩ := tdiv_part_of_nonneg (Int.neg_nonneg_of_nonpos hd) hk
  rw [Int.neg_mul, Int.neg_tdiv] at low high
  omega

end part

/-! ### The level at a step (R134) -/

/-- R134: the steps as the curve counts them: as they are, or squared. -/
def Curve.count (c : Curve) (k : Nat) : Nat :=
  match c with
  | .linear | .unlisted _ => k
  | .square => k ^ 2

section level
variable (c : Curve) (a z : Nat) {k n : Nat}

theorem Curve.count_le (h : k ≤ n) : c.count k ≤ c.count n := by
  cases c with
  | linear | unlisted => exact h
  | square => exact Nat.pow_le_pow_left h 2

theorem Curve.count_pos (h : 0 < n) : 0 < c.count n := by
  cases c with
  | linear | unlisted => exact h
  | square => exact Nat.pow_pos h

theorem fadeLevel_eq_toNat (k n : Nat) :
    fadeLevel c a z k n = (a + ((z - a : Int) * c.count k).tdiv (c.count n)).toNat := by
  cases c with
  | linear | unlisted => rfl
  | square => simp [fadeLevel, Curve.count]

/-- What a step has gone of the way lies between nothing and the whole of it. -/
theorem fadeLevel_between (h : k ≤ n) : let level := a + ((z - a : Int) * c.count k).tdiv (c.count n)
    min (a : Int) z ≤ level ∧ level ≤ max (a : Int) z := by
  obtain up | down := le_total (0 : Int) (z - a)
  · have := tdiv_part_of_nonneg up (c.count_le h)
    omega
  · have := tdiv_part_of_nonpos down (c.count_le h)
    omega

/-- No level lies below 0, so that none is cut off there. -/
theorem fadeLevel_cast (h : k ≤ n) :
    (fadeLevel c a z k n : Int) = a + ((z - a : Int) * c.count k).tdiv (c.count n) := by
  have := fadeLevel_between c a z h
  rw [fadeLevel_eq_toNat]
  omega

theorem fadeLevel_last (h : 0 < n) : fadeLevel c a z n n = z := by
  have all : (c.count n : Int) ≠ 0 := Int.natCast_ne_zero.2 (c.count_pos h).ne'
  have level := fadeLevel_cast c a z (le_refl n)
  rw [Int.mul_tdiv_cancel _ all] at level
  omega

end level

/-- Settles O56: the formula of each curve, the bounds and the last step. -/
theorem fadeExact : Obligations.FadeExact := by
  refine fun a z k n hk hn => ⟨fadeLevel_cast .linear a z hk, ?square, fun c => ⟨?low, ?high, fadeLevel_last c a z hn⟩⟩
  case square => simpa [Curve.count] using fadeLevel_cast .square a z hk
  case low | high =>
    have level := fadeLevel_cast c a z hk
    have between := fadeLevel_between c a z hk
    omega

end Sys2Proof.Machine
end

section
/-! The fade engines: the takeover of a fade start, the end of a fade and the ways a start goes on (R133, R136), the
delivery of an activation (R132) and the step timer (R135). -/

namespace Sys2Proof.Machine

open Sys2Proof

variable {s : State}

/-! ### One engine written -/

theorem State.engine_setEngine_self {b : Nat} (hb : b < 4) (e : Engine) : (s.setEngine b e).engine b = e :=
  Tab.get_set_self s.engines b e hb

theorem State.engine_setEngine_other {b c : Nat} (h : b ≠ c) (e : Engine) : (s.setEngine b e).engine c = s.engine c :=
  Tab.get_set_ne s.engines b c e h

/-! ### The end of a fade (R136) -/

theorem State.endFade_engines (s : State) (b : Nat) : (s.endFade b).engines = s.engines.set b .initial := by
  unfold State.endFade
  dsimp only
  split <;> simp

theorem State.endFade_engine_other {b c : Nat} (h : b ≠ c) : (s.endFade b).engine c = s.engine c := by
  simp [State.engine, State.endFade_engines, h]

/-- R136: the engine FREE and CUE_DONE raised. -/
def State.fadeEnded (s : State) (b : Nat) : State := (s.setEngine b .initial).raise .cueDone

theorem State.closeBank_active {b : Nat} (h : (s.bank b).state = .active) :
    s.closeBank b = s.setBank b { s.bank b with state := .closing, settle := some 20 } := if_pos h

theorem State.closeBank_inactive {b : Nat} (h : (s.bank b).state ≠ .active) : s.closeBank b = s := if_neg h

/-- R136: an ACTIVE bank to be released after is closed. -/
theorem State.endFade_eq (s : State) (b : Nat) : s.endFade b =
    if (s.bank b).releaseAfter = true ∧ (s.bank b).state = .active then
      (s.fadeEnded b).setBank b { s.bank b with state := .closing, settle := some 20 }
    else s.fadeEnded b := by
  by_cases active : (s.bank b).state = .active
  · have closed := State.closeBank_active (s := s.fadeEnded b) active
    exact if_congr (by simp [active]; rfl) closed rfl
  · have kept := State.closeBank_inactive (s := s.fadeEnded b) active
    rw [if_neg fun h => active h.2]
    show (if _ then (s.fadeEnded b).closeBank b else s.fadeEnded b) = _
    rw [kept, ite_self]

/-- The ends of several fades reach no other engine. -/
theorem endFades_engine {l : List Nat} {b : Nat} (h : b ∉ l) :
    ∀ s : State, (l.foldl State.endFade s).engine b = s.engine b := by
  induction l with
  | nil => exact fun _ => rfl
  | cons c l ih =>
    obtain ⟨hc, hl⟩ : b ≠ c ∧ b ∉ l := by simpa using h
    exact fun s => (ih hl (s.endFade c)).trans (State.endFade_engine_other hc.symm)

/-! ### The takeover (R133 stages 1 to 5) -/

section takeover
variable {b : Nat} (hb : b < 4)

/-- R133 stages 1 to 4: the engine whose fade starts, from the buffer of its bank and the demands that stand. -/
def State.fadingEngine (s : State) (b : Nat) : Engine := { s.engine b with
  state := .running
  row := (s.bank b).row
  releaseAfter := false
  total := (100 * ((s.engine b).fade.getD (s.bank b).fade) + s.tables.profile.period - 1) / s.tables.profile.period
  step := 0
  timer := none
  held := (s.bank b).pairs.map fun p => ⟨p.1, (s.image.get p.1).demand, p.2⟩ }

include hb in
theorem State.takeOver_engine_self : (s.takeOver b).engine b = s.fadingEngine b := by
  refine (Tab.get_set_self _ b _ hb).trans ?_
  rw [totalSteps, Nat.mul_comm]
  rfl

theorem State.takeOver_engine_other {c : Nat} (hc : c < 4) (h : c ≠ b) :
    (s.takeOver b).engine c = (s.engine c).strip (s.bank b).pairs := by
  refine (Tab.get_set_ne _ b c _ (Ne.symm h)).trans ?_
  rw [Tab.get_mapIdx _ _ _ hc, if_neg h]
  rfl

include hb in
/-- The takeover is said by what each engine is after it. -/
theorem State.eq_takeOver {u : State} (frame : u = { s with engines := u.engines })
    (self : u.engine b = s.fadingEngine b)
    (others : ∀ c, c < 4 → c ≠ b → u.engine c = (s.engine c).strip (s.bank b).pairs) : u = s.takeOver b := by
  have engines : u.engines = (s.takeOver b).engines := by
    refine Tab.ext_get _ fun c hc => ?_
    by_cases h : c = b
    · subst h
      exact self.trans (State.takeOver_engine_self hb).symm
    · exact (others c hc h).trans (State.takeOver_engine_other hc h).symm
  rw [frame, engines]
  rfl

theorem Engine.strip_bare (e : Engine) (pairs : List (Nat × Nat)) :
    (e.strip pairs).held.isEmpty = e.held.all fun h => pairs.any fun p => p.1 == h.channel := by
  rw [Bool.eq_iff_iff]
  simp [Engine.strip]

theorem State.strippedEngines_eq (s : State) (b : Nat) (pairs : List (Nat × Nat)) : s.strippedEngines b pairs =
    (List.range 4).filter fun c => c != b && !(s.engine c).held.isEmpty &&
      (s.engine c).held.all fun h => pairs.any fun p => p.1 == h.channel := by
  rw [State.strippedEngines, Tab.enum_eq_map, List.filter_map, List.map_map]
  simp only [Function.comp_def, Engine.strip_bare, List.map_id']
  rfl

theorem State.not_mem_strippedEngines (s : State) (b : Nat) (pairs : List (Nat × Nat)) :
    b ∉ s.strippedEngines b pairs := by
  simp [State.strippedEngines_eq]

/-- No engine is bare where every other one that holds a channel keeps one. -/
theorem State.strippedEngines_none {pairs : List (Nat × Nat)} (kept : ∀ c, c < 4 → c ≠ b → (s.engine c).held ≠ [] →
    ∃ h ∈ (s.engine c).held, ∀ p ∈ pairs, p.1 ≠ h.channel) : s.strippedEngines b pairs = [] := by
  rw [State.strippedEngines_eq, List.filter_eq_nil_iff]
  intro c hc bare
  simp only [Bool.and_eq_true, bne_iff_ne, Bool.not_eq_true', List.isEmpty_eq_false_iff, List.all_eq_true,
    List.any_eq_true, beq_iff_eq] at bare
  obtain ⟨⟨other, holds⟩, taken⟩ := bare
  obtain ⟨h, held, free⟩ := kept c (List.mem_range.1 hc) other holds
  obtain ⟨p, hp, same⟩ := taken h held
  exact free p hp same

end takeover

/-! ### The first move (R133 stage 6) -/

theorem State.firstMove_empty {b : Nat} (h : (s.engine b).held = []) : s.firstMove b = s.endFade b := by
  simp [State.firstMove, h]

theorem State.firstMove_stepless {b : Nat} (h : (s.engine b).held ≠ []) (total : (s.engine b).total = 0) :
    s.firstMove b = (s.writeSeries ((s.engine b).held.map fun h => (h.channel, h.target))).endFade b := by
  simp [State.firstMove, h, total]

theorem State.firstMove_steps {b : Nat} (h : (s.engine b).held ≠ []) (total : (s.engine b).total ≠ 0) :
    s.firstMove b = s.setEngine b { s.engine b with timer := some s.tables.profile.period } := by
  simp [State.firstMove, h, total]

theorem State.fadingEngine_held {b : Nat} (h : (s.bank b).pairs ≠ []) : (s.fadingEngine b).held ≠ [] := by
  simpa [State.fadingEngine] using h

/-- What a fade start holds are the pairs of the buffer. -/
theorem State.fadingEngine_targets (s : State) (b : Nat) :
    ((s.fadingEngine b).held.map fun h => (h.channel, h.target)) = (s.bank b).pairs := by
  simp [State.fadingEngine, Function.comp_def]

/-- R133 stage 1: only a fade time of 0 needs no step. -/
theorem State.fadingEngine_total {b : Nat} (hp : 1 ≤ s.tables.profile.period) :
    (s.fadingEngine b).total = 0 ↔ (s.engine b).fade.getD (s.bank b).fade = 0 := by
  simp only [State.fadingEngine, Nat.div_eq_zero_iff]
  omega

/-! ### A fade start (R133) -/

/-- R133 stages 1 to 5: the takeover, and the ends of the fades it leaves bare. -/
def State.fadeTaken (s : State) (b : Nat) : State :=
  (s.strippedEngines b (s.bank b).pairs).foldl State.endFade (s.takeOver b)

section start
variable {b : Nat} (hb : b < 4)
include hb

theorem State.fadeTaken_engine : (s.fadeTaken b).engine b = s.fadingEngine b :=
  (endFades_engine (s.not_mem_strippedEngines b _) _).trans (State.takeOver_engine_self hb)

theorem State.startFade_empty (empty : (s.bank b).pairs = []) : s.startFade b = (s.fadeTaken b).endFade b := by
  refine State.firstMove_empty (s := s.fadeTaken b) ?_
  rw [State.fadeTaken_engine hb, State.fadingEngine, empty]
  rfl

variable (hp : 1 ≤ s.tables.profile.period) (filled : (s.bank b).pairs ≠ [])
include hp filled

theorem State.startFade_stepless (time : (s.engine b).fade.getD (s.bank b).fade = 0) :
    s.startFade b = ((s.fadeTaken b).writeSeries (s.bank b).pairs).endFade b := by
  have engine := State.fadeTaken_engine (s := s) hb
  refine (State.firstMove_stepless (s := s.fadeTaken b) ?_ ?_).trans ?_
  · exact engine ▸ State.fadingEngine_held filled
  · exact engine ▸ (State.fadingEngine_total hp).2 time
  · rw [engine, State.fadingEngine_targets]

theorem State.startFade_steps (time : 0 < (s.engine b).fade.getD (s.bank b).fade) : s.startFade b =
    (s.fadeTaken b).setEngine b { s.fadingEngine b with timer := some s.tables.profile.period } := by
  have engine := State.fadeTaken_engine (s := s) hb
  have tables : (s.fadeTaken b).tables = s.tables := by simp [State.fadeTaken]
  refine (State.firstMove_steps (s := s.fadeTaken b) ?_ ?_).trans ?_
  · exact engine ▸ State.fadingEngine_held filled
  · exact engine ▸ mt (State.fadingEngine_total hp).1 time.ne'
  · rw [engine, tables]

end start

/-- Settles O54: a start that leaves no engine bare, and any start, by the buffer and the fade time. -/
theorem fadeStarts : Obligations.FadeStarts := by
  refine ⟨?quiet, ?any⟩
  case quiet =>
    intro s b hb filled hp time ht kept
    have noneBare : s.fadeTaken b = s.takeOver b := by rw [State.fadeTaken, State.strippedEngines_none kept]; rfl
    have start := State.startFade_steps hb hp filled (Nat.pos_of_mul_pos_left ht)
    rw [noneBare] at start
    rw [start]
    refine ⟨rfl, State.engine_setEngine_self hb _, fun c hc h => ?_⟩
    exact (State.engine_setEngine_other h.symm _).trans (State.takeOver_engine_other hc h)
  case any =>
    intro s u b hb hp pairs fade steps ends bare frame self others
    have ended : ends = State.endFade := funext fun t => funext fun c => (State.endFade_eq t c).symm
    have taken : bare.foldl ends u = s.fadeTaken b := by
      rw [ended, State.eq_takeOver hb frame self others, State.fadeTaken, State.strippedEngines_eq]
    rw [taken, ended, self]
    exact ⟨State.startFade_empty hb, State.startFade_stepless hb hp, State.startFade_steps hb hp⟩

/-! ### The delivery of an activation (R132) -/

/-- The delivery of bank `b`'s activation taken. -/
def State.takeDelivery (s : State) (b : Nat) : State :=
  { s with store := { s.store with completions := s.store.completions.erase b } }

theorem exec_activationDelivery {b : Fin 4} (hl : s.live = true)
    (hc : s.store.completions.contains b.val = true) :
    exec (.activationDelivery b) s = .next ((s.takeDelivery b).deliverActivation b) := by
  show Host.Outcome.next (s.activationDelivered b) = _
  rw [State.activationDelivered, hl, hc]
  rfl

theorem State.deliverActivation_starts {b : Nat} (pending : (s.engine b).state = .pending)
    (active : (s.bank b).state = .active) : s.deliverActivation b =
      (s.setBank b { s.bank b with releaseAfter := (s.engine b).releaseAfter }).startFade b := by
  simp only [State.deliverActivation, pending, active]

theorem State.deliverActivation_fails {b : Nat} (pending : (s.engine b).state = .pending)
    (idle : (s.bank b).state = .idle) : s.deliverActivation b = s.setEngine b .initial := by
  simp only [State.deliverActivation, pending, idle]

theorem State.deliverActivation_free {b : Nat} (free : (s.engine b).state = .free) : s.deliverActivation b = s := by
  simp only [State.deliverActivation, free]

/-! ### The step timer (R135) -/

/-- R135: the step goes on by one, the timer starts again, and every held channel is written with its level. -/
def State.stepMade (s : State) (b : Nat) : State :=
  let e := s.engine b
  (s.setEngine b { e with step := e.step + 1, timer := some s.tables.profile.period }).writeSeries
    (e.held.map fun h => (h.channel, fadeLevel s.tables.profile.curve h.start h.target (e.step + 1) e.total))

theorem exec_fadeStepExpiry {b : Fin 4} (hl : s.live = true) (ht : (s.engine b).timer.isSome = true) :
    exec (.fadeStepExpiry b) s = .next (s.fadeStep b) := by
  show Host.Outcome.next (s.fadeStepExpiry b) = _
  rw [State.fadeStepExpiry, hl, ht]
  rfl

theorem State.fadeStep_amid {b : Nat} (h : (s.engine b).step + 1 ≠ (s.engine b).total) :
    s.fadeStep b = s.stepMade b := if_neg h

theorem State.fadeStep_last {b : Nat} (h : (s.engine b).step + 1 = (s.engine b).total) :
    s.fadeStep b = (s.stepMade b).endFade b := if_pos h

@[simp] theorem State.stepMade_bank (s : State) (b c : Nat) : (s.stepMade b).bank c = s.bank c := by
  simp [State.bank, State.stepMade]

/-- Settles O55: the delivery by the states of engine and bank, and the step by whether it is the last. -/
theorem engineEvents : Obligations.EngineEvents := by
  refine fun b s hl => ⟨fun hc => ⟨fun pending active => ?starts, fun pending idle => ?fails, fun free => ?free⟩,
    fun ht => ⟨fun amid => ?amid, fun last active => ?last⟩⟩
  case starts =>
    rw [exec_activationDelivery hl hc, State.deliverActivation_starts (s := s.takeDelivery b) pending active]
    rfl
  case fails =>
    rw [exec_activationDelivery hl hc, State.deliverActivation_fails (s := s.takeDelivery b) pending idle]
    rfl
  case free =>
    rw [exec_activationDelivery hl hc, State.deliverActivation_free (s := s.takeDelivery b) free]
    rfl
  case amid =>
    rw [exec_fadeStepExpiry hl ht, State.fadeStep_amid amid]
    rfl
  case last =>
    rw [exec_fadeStepExpiry hl ht, State.fadeStep_last last, State.endFade_eq, State.stepMade_bank]
    exact congrArg Host.Outcome.next (if_congr (and_iff_left active) rfl rfl)

end Sys2Proof.Machine
end

section
/-! CUE and RELEASE_BANK outside a bracket (R130, R131, R137). -/

namespace Sys2Proof.Machine

open Sys2Proof

variable {s : State}

/-! ### A stageable request outside a bracket, as a request (R144, R158) -/

section request
variable (h : s.serves) (hi : s.bracket.state = .idle) (tag code : Byte) (check : State → Checked)
include h hi

theorem State.request_refused {a : Answer} (refused : check s.goodFrame = .refused a) :
    (s.request tag code fun t => t.takeStageable (check t)) = s.goodFrame.place tag code a.result a.data := by
  rw [State.request_served h, refused, State.takeStageable_refused (s := s.goodFrame) hi]
  rfl

theorem State.request_taken {r : StagedReq} (good : check s.goodFrame = .good r false) :
    (s.request tag code fun t => t.takeStageable (check t)) =
      (s.goodFrame.takeItem r).1.place tag code (s.goodFrame.takeItem r).2 [] := by
  rw [State.request_served h, good, State.takeStageable_good (s := s.goodFrame) hi]
  simp [State.answer, Answer.plain]

end request

/-! ### The checks (R130, R137) -/

section checks
variable {bank row : Byte} {fade : Option Word16} {rel : Bool}

theorem State.checkCue_outside (h : s.inRun = false) : s.checkCue bank row fade rel = .refused (.plain .state) := by
  simp [State.checkCue, h]

theorem State.checkCue_beyond (h : s.inRun = true)
    (beyond : 4 ≤ bank.toNat ∨ 32 ≤ row.toNat ∨ 6000 < (fade.map BitVec.toNat).getD 0) :
    s.checkCue bank row fade rel = .refused (.badEntry none) := by
  have out : (!sceneInRange bank.toNat row.toNat) = true ∨ 6000 < (fade.map BitVec.toNat).getD 0 := by
    simpa [sceneInRange, imp_iff_not_or, or_assoc] using beyond
  rw [State.checkCue, h, if_neg (by decide), if_pos out]

theorem State.checkCue_inRange (h : s.inRun = true) (hb : bank.toNat < 4) (hr : row.toNat < 32)
    (hf : (fade.map BitVec.toNat).getD 0 ≤ 6000) : s.checkCue bank row fade rel =
      .good (.cue bank.toNat row.toNat (fade.map BitVec.toNat) rel) false := by
  have inRange : ¬ ((!sceneInRange bank.toNat row.toNat) = true ∨ 6000 < (fade.map BitVec.toNat).getD 0) := by
    simp only [sceneInRange, hb, hr]
    simpa using hf
  rw [State.checkCue, h, if_neg (by decide), if_neg inRange]

theorem State.checkRelease_outside (h : s.inRun = false) : s.checkRelease bank = .refused (.plain .state) := by
  simp [State.checkRelease, h]

theorem State.checkRelease_beyond (h : s.inRun = true) (beyond : 4 ≤ bank.toNat) :
    s.checkRelease bank = .refused (.badEntry none) := by
  simp [State.checkRelease, h, beyond]

theorem State.checkRelease_inRange (h : s.inRun = true) (hb : bank.toNat < 4) :
    s.checkRelease bank = .good (.releaseBank bank.toNat) false := by
  simp [State.checkRelease, h, hb]

end checks

/-! ### The table of R131 -/

section cue
variable {b r : Nat} {fade : Option Nat} {rel : Bool}

theorem State.takeCue_busy (engaged : (s.engine b).state ≠ .free) (other : (s.engine b).row ≠ some r) :
    s.takeCue b r fade rel = (s, .bankBusy) := by
  cases state : (s.engine b).state with
  | free => exact absurd state engaged
  | pending | running => simp [State.takeCue, cueAction, state, other]

theorem State.takeCue_replaces (pending : (s.engine b).state = .pending) (same : (s.engine b).row = some r) :
    s.takeCue b r fade rel = (s.setEngine b { s.engine b with fade := fade, releaseAfter := rel }, .done) := by
  simp [State.takeCue, cueAction, pending, same]

theorem State.takeCue_starts (same : ((s.engine b).state = .running ∧ (s.engine b).row = some r) ∨
    ((s.engine b).state = .free ∧ (s.bank b).state = .active ∧ (s.bank b).row = some r)) :
    s.takeCue b r fade rel = (State.startFade { s with
      store := { s.store with banks := s.store.banks.set b { s.bank b with releaseAfter := rel } }
      engines := s.engines.set b { s.engine b with fade := fade } } b, .done) := by
  show _ = (s.cueFade b fade rel, ResultCode.done)
  obtain ⟨running, row⟩ | ⟨free, active, row⟩ := same
  · simp [State.takeCue, cueAction, running, row]
  · simp [State.takeCue, cueAction, free, active, row]

variable (free : (s.engine b).state = .free)
include free

theorem State.takeCue_closes (active : (s.bank b).state = .active) (other : (s.bank b).row ≠ some r) :
    s.takeCue b r fade rel =
      ((s.setBank b { s.bank b with state := .closing, settle := some 20 }).pend b r fade rel, .accepted) := by
  simp [State.takeCue, cueAction, free, active, other, State.closeBank_active active]

theorem State.takeCue_activates (idle : (s.bank b).state = .idle) (room : s.store.queue.length < 8) :
    s.takeCue b r fade rel = (State.pend { s with store := { s.store with
      queue := s.store.queue ++ [.activate b r]
      banks := s.store.banks.set b { s.bank b with
        state := .activating, row := some r, pairs := [], fade := 0, skipped := 0 } } } b r fade rel, .accepted) := by
  have notFull : ¬ s.memoryFull = true := mt State.memoryFull_iff.1 room.not_ge
  simp only [State.takeCue, cueAction, free, idle, if_neg notFull]
  rfl

theorem State.takeCue_noRoom (idle : (s.bank b).state = .idle) (full : 8 ≤ s.store.queue.length) :
    s.takeCue b r fade rel = (s, .busy) := by
  simp [State.takeCue, cueAction, free, idle, State.memoryFull_iff.2 full]

theorem State.takeCue_waits (closing : (s.bank b).state = .closing) :
    s.takeCue b r fade rel = (s.pend b r fade rel, .accepted) := by
  simp [State.takeCue, cueAction, free, closing]

end cue

/-! ### The two requests -/

section requests
variable {tag bank row : Byte} {fade : Option Word16} {rel : Bool} (h : s.serves) (hi : s.bracket.state = .idle)
include h hi

theorem exec_cue_refused {a : Answer} (refused : s.checkCue bank row fade rel = .refused a) :
    exec (.cue tag bank row fade rel) s = .next (s.goodFrame.place tag 0x0C a.result a.data) :=
  congrArg Host.Outcome.next (State.request_refused h hi tag codeCue _ refused)

theorem exec_cue_taken (run : s.inRun = true) (hb : bank.toNat < 4) (hr : row.toNat < 32)
    (hf : (fade.map BitVec.toNat).getD 0 ≤ 6000) {t : State} {code : ResultCode}
    (taken : s.goodFrame.takeCue bank.toNat row.toNat (fade.map BitVec.toNat) rel = (t, code)) :
    exec (.cue tag bank row fade rel) s = .next (t.place tag 0x0C code []) := by
  have good := State.checkCue_inRange (s := s.goodFrame) (rel := rel) run hb hr hf
  refine congrArg Host.Outcome.next ((State.request_taken h hi tag codeCue _ good).trans ?_)
  rw [State.takeItem, taken]
  rfl

theorem exec_releaseBank_refused {a : Answer} (refused : s.checkRelease bank = .refused a) :
    exec (.releaseBank tag bank) s = .next (s.goodFrame.place tag 0x0D a.result a.data) :=
  congrArg Host.Outcome.next (State.request_refused h hi tag codeReleaseBank _ refused)

theorem exec_releaseBank_taken (run : s.inRun = true) (hb : bank.toNat < 4) {t : State} {code : ResultCode}
    (taken : s.goodFrame.takeRelease bank.toNat = (t, code)) :
    exec (.releaseBank tag bank) s = .next (t.place tag 0x0D code []) := by
  have good := State.checkRelease_inRange (s := s.goodFrame) run hb
  refine congrArg Host.Outcome.next ((State.request_taken h hi tag codeReleaseBank _ good).trans ?_)
  rw [State.takeItem, taken]
  rfl

end requests

/-- Settles O52: the checks of R130 in turn, then the table of R131 row by row. -/
theorem cueTaken : Obligations.CueTaken := by
  refine ⟨fun tag bank row fade rel s h hi => ⟨fun outside => ?outside, fun run beyond => ?beyond⟩, ?taken⟩
  case outside => exact exec_cue_refused h hi (State.checkCue_outside outside)
  case beyond => exact exec_cue_refused h hi (State.checkCue_beyond run beyond)
  case taken =>
    intro tag bank row fade rel s h run hi hb hr hf b r f e k
    have answered {t : State} {code : ResultCode} (taken : s.goodFrame.takeCue b r f rel = (t, code)) :
        exec (.cue tag bank row fade rel) s = .next (t.place tag 0x0C code []) :=
      exec_cue_taken h hi run hb hr hf taken
    refine ⟨fun engaged other => ?busy, fun pending same => ?replaced, fun same => ?started,
      fun free active other => ?closed, fun free idle room => ?activated, fun free idle full => ?noRoom,
      fun free closing => ?waiting⟩
    case busy => exact answered (State.takeCue_busy (s := s.goodFrame) engaged other)
    case replaced => exact answered (State.takeCue_replaces (s := s.goodFrame) pending same)
    case started => exact answered (State.takeCue_starts (s := s.goodFrame) same)
    case closed => exact answered (State.takeCue_closes (s := s.goodFrame) free active other)
    case activated => exact answered (State.takeCue_activates (s := s.goodFrame) free idle room)
    case noRoom => exact answered (State.takeCue_noRoom (s := s.goodFrame) free idle full)
    case waiting => exact answered (State.takeCue_waits (s := s.goodFrame) free closing)

/-! ### The table of R137 -/

theorem State.takeRelease_running {b : Nat} (h : (s.engine b).state = .running) :
    s.takeRelease b = (s.setBank b { s.bank b with releaseAfter := true }, .done) := by
  simp only [State.takeRelease, h]

theorem State.takeRelease_pending {b : Nat} (h : (s.engine b).state = .pending) : s.takeRelease b = (s, .bankBusy) := by
  simp only [State.takeRelease, h]

theorem State.takeRelease_closes {b : Nat} (free : (s.engine b).state = .free) (active : (s.bank b).state = .active) :
    s.takeRelease b = (s.setBank b { s.bank b with state := .closing, settle := some 20 }, .done) := by
  simp only [State.takeRelease, free, State.closeBank_active active]

theorem State.takeRelease_rests {b : Nat} (free : (s.engine b).state = .free)
    (inactive : (s.bank b).state = .idle ∨ (s.bank b).state = .closing) : s.takeRelease b = (s, .done) := by
  have notActive : (s.bank b).state ≠ .active := by
    obtain idle | closing := inactive
    · simp [idle]
    · simp [closing]
  simp only [State.takeRelease, free, State.closeBank_inactive notActive]

/-- Settles O53: the checks in turn, then the state of the engine, and with it FREE the state of the bank. -/
theorem releaseBankTaken : Obligations.ReleaseBankTaken := by
  intro tag bank s h hi k run
  refine ⟨fun outside => ?outside, fun inRun beyond => ?beyond, fun inRun hb running => ?running,
    fun inRun hb free active => ?closed, fun inRun hb free inactive => ?kept, fun inRun hb pending => ?busy⟩
  case outside => exact exec_releaseBank_refused h hi (State.checkRelease_outside outside)
  case beyond => exact exec_releaseBank_refused h hi (State.checkRelease_beyond inRun beyond)
  case running => exact exec_releaseBank_taken h hi inRun hb (State.takeRelease_running (s := s.goodFrame) running)
  case closed => exact exec_releaseBank_taken h hi inRun hb (State.takeRelease_closes (s := s.goodFrame) free active)
  case kept => exact exec_releaseBank_taken h hi inRun hb (State.takeRelease_rests (s := s.goodFrame) free inactive)
  case busy => exact exec_releaseBank_taken h hi inRun hb (State.takeRelease_pending (s := s.goodFrame) pending)

end Sys2Proof.Machine
end

section
/-! Aborts of a bracket (R148, R151, R153, R154), and the requests OPEN_BRACKET, CLOSE_BRACKET and ABANDON_BRACKET
(R145, R149, R150). -/

namespace Sys2Proof.Machine

open Sys2Proof

variable {s : State}

/-! ### A request answered by its own rule (R158) -/

theorem State.request_answers (h : s.serves) {serve : State → State × Option Answer} {t : State} {a : Answer}
    (answered : serve s.goodFrame = (t, some a)) (tag code : Byte) :
    s.request tag code serve = t.place tag code a.result a.data := by
  rw [State.request_served h, answered]
  rfl

/-! ### An abort (R151, R153) -/

theorem BracketState.isOpen_iff (b : BracketState) :
    b.isOpen = true ↔ (∃ d, b = .opened d) ∨ ∃ n k, b = .counted n k := by
  cases b <;> simp [BracketState.isOpen]

section abort
variable (h : s.bracket.state.isOpen = true) (code : AbortCode) (ordinal : Option Nat) (refusal : Option ResultCode)
include h

theorem State.abortBracket_bracket : (s.abortBracket code ordinal refusal).bracket = { s.bracket with
    stage := []
    timer := none
    state := if code = .abandoned then .idle else .aborted s.bracket.state.depth
    record := some (s.bracket.abortRecord s.watch.guard code ordinal refusal) } := by
  rw [State.abortBracket, if_pos h]

theorem State.abortBracket_trunk : (s.abortBracket code ordinal refusal).trunk = s.trunk.raiseAborted s.bracket.notify
    s.tables.enables (some (s.bracket.abortRecord s.watch.guard code ordinal refusal)) := by
  rw [State.abortBracket, if_pos h]

end abort

theorem State.abortBracket_rest (s : State) (code : AbortCode) (ordinal : Option Nat) (refusal : Option ResultCode) :
    s.abortBracket code ordinal refusal = { s with
      bracket := (s.abortBracket code ordinal refusal).bracket
      trunk := (s.abortBracket code ordinal refusal).trunk } := by
  unfold State.abortBracket
  split <;> rfl

theorem TrunkUnit.raiseAborted_sets (t : TrunkUnit) (notify : Bool) (enables : Word16) (record : Option AbortRecord) :
    EventFlag.bracketAborted.of (t.raiseAborted notify enables record).flags = true := by
  cases notify
  · exact TrunkUnit.raise_sets ..
  · exact TrunkUnit.offerNotice_of (by simp [EventFlag.of_or]) ..

/-- R153: with the notify flag and room, the NOTICE joins, whatever the enables say. -/
theorem TrunkUnit.raiseAborted_notice {t : TrunkUnit} (room : t.reports.length < 16) (enables : Word16)
    (record : Option AbortRecord) : (t.raiseAborted true enables record).reports =
      t.reports ++ [.notice (t.flags ||| EventFlag.bracketAborted.bit) enables record] := by
  have notFull : ¬ TrunkUnit.reportsFull { t with flags := t.flags ||| EventFlag.bracketAborted.bit } = true :=
    fun full => absurd (of_decide_eq_true full) room.not_ge
  rw [TrunkUnit.raiseAborted, if_pos rfl, TrunkUnit.offerNotice, if_neg notFull]
  simp [TrunkUnit.queueReport]

/-! ### Restricted requests, and the bracket timer (R148, R154) -/

/-- R148: a restricted request that meets an open bracket. -/
theorem State.restrictedRequest_open (h : s.serves) (ho : s.bracket.state.isOpen = true)
    (serve : State → State × Option Answer) (tag code : Byte) : s.request tag code (restricted serve) =
      (s.goodFrame.countOrdinal.abortBracket .restricted (some (min 65535 (s.bracket.ordinal + 1))) none).place tag
        code .aborted [] :=
  State.request_answers h (restricted_open (s := s.goodFrame) ho serve) tag code

/-- Settles O50: the abort part by part, then the requests and the timer that make one. -/
theorem bracketAborts : Obligations.BracketAborts := by
  refine ⟨fun s code ordinal refusal ho => ?abort, fun tag s ho => ?requests⟩
  case abort =>
    have bracket := State.abortBracket_bracket ho code ordinal refusal
    have trunk := State.abortBracket_trunk ho code ordinal refusal
    intro t depth
    have hd : s.bracket.state.depth = depth := by
      obtain ⟨d, hs⟩ | ⟨n, k, hs⟩ := (BracketState.isOpen_iff _).1 ho
      · simp only [depth, hs, BracketState.depth]
      · simp only [depth, hs, BracketState.depth]
    refine ⟨?rest, ?flag, fun notify room => ?notice⟩
    case rest =>
      rw [← hd]
      refine (s.abortBracket_rest code ordinal refusal).trans ?_
      rw [bracket]
      rfl
    case flag =>
      rw [trunk]
      exact TrunkUnit.raiseAborted_sets ..
    case notice =>
      rw [trunk, bracket, notify, TrunkUnit.raiseAborted_notice room]
      rfl
  case requests =>
    intro aborted
    refine ⟨fun h => ⟨fun table first count content => ?_, fun receiving => ?_, ?_⟩, fun live running => ?timer⟩
    case timer =>
      have due : (s.live && s.bracket.timer.isSome) = true := by rw [live, running]; rfl
      exact congrArg Host.Outcome.next (if_pos due)
    all_goals exact congrArg Host.Outcome.next (State.restrictedRequest_open h ho _ tag _)

/-! ### OPEN_BRACKET (R145) -/

section openBracket
variable {kind : BracketKind} {count : Nat} {strict notify : Bool}

theorem State.openBracket_outside (hi : s.bracket.state = .idle) (outside : s.inRun = false) :
    s.openBracket kind count strict notify = (s, some (.plain .state)) := by
  simp [State.openBracket, hi, outside]

theorem State.openBracket_guarded (hi : s.bracket.state = .idle) (run : s.inRun = true)
    (critical : s.watch.guard = .critical) :
    s.openBracket kind count strict notify = (s, some (.plain .guarded)) := by
  simp [State.openBracket, hi, run, critical]

section level
variable (hi : s.bracket.state = .idle) (run : s.inRun = true) (level : s.watch.guard ≠ .critical)
include hi run level

theorem State.openBracket_miscounted (hk : kind = .countedKind) (hc : count < 1 ∨ 8 < count) :
    s.openBracket kind count strict notify = (s, some (.badEntry none)) := by
  have out : kind = .countedKind ∧ (count < 1 ∨ 8 < count) := ⟨hk, hc⟩
  simp only [State.openBracket, hi, run, if_neg level, if_pos out]
  rfl

theorem State.openBracket_opens (fits : kind = .openKind ∨ (1 ≤ count ∧ count ≤ 8)) :
    s.openBracket kind count strict notify = ({ s with bracket := {
      state := if kind = BracketKind.openKind then .opened 1 else .counted count 0
      kind := kind
      strict := strict
      notify := notify
      ordinal := 0
      openMs := 0
      stage := []
      timer := some (1000 * s.tables.timers.bracketLimit)
      record := s.bracket.record } }, some (.plain .done)) := by
  have counts : ¬ (kind = .countedKind ∧ (count < 1 ∨ 8 < count)) := by
    rintro ⟨rfl, out⟩
    exact fits.elim nofun fun inRange => by omega
  simp only [State.openBracket, hi, run, level, counts]
  cases kind <;> rfl

end level

theorem State.openBracket_deepens {d : Nat} (ho : s.bracket.state = .opened d) (hk : kind = .openKind) (hd : d < 4) :
    s.openBracket kind count strict notify =
      ({ s.countOrdinal with bracket := { s.countOrdinal.bracket with state := .opened (d + 1) } },
        some (.plain .done)) := by
  simp [State.openBracket, ho, hk, Config.nestingDepth, hd]

theorem State.openBracket_nested {d : Nat} (ho : s.bracket.state = .opened d) (hk : kind = .openKind) (hd : 4 ≤ d) :
    s.openBracket kind count strict notify =
      (s.countOrdinal.abortBracket .nest (some (satSucc s.bracket.ordinal)) none, some (.plain .aborted)) := by
  simp [State.openBracket, ho, hk, Config.nestingDepth, hd]

theorem State.openBracket_restricted (ho : s.bracket.state.isOpen = true)
    (hk : kind = BracketKind.countedKind ∨ ∃ n k, s.bracket.state = .counted n k) :
    s.openBracket kind count strict notify =
      (s.countOrdinal.abortBracket .restricted (some (satSucc s.bracket.ordinal)) none, some (.plain .aborted)) := by
  obtain ⟨d, hd⟩ | ⟨n, k, hc⟩ := (BracketState.isOpen_iff _).1 ho
  · have counted : kind = .countedKind := hk.resolve_right (by simp [hd])
    simp [State.openBracket, hd, counted]
  · simp [State.openBracket, hc]

theorem State.openBracket_aborted {r : Nat} (ha : s.bracket.state = .aborted r) :
    s.openBracket kind count strict notify = (s, some (.plain .aborted)) := by
  simp [State.openBracket, ha]

end openBracket

/-- Settles O47: the state of the bracket in turn. -/
theorem openBracketTaken : Obligations.OpenBracketTaken := by
  intro tag kind count strict notify s h run o
  have answered {t : State} {a : Answer}
      (taken : s.goodFrame.openBracket kind count.toNat strict notify = (t, some a)) :
      run = .next (t.place tag 0x0F a.result a.data) :=
    congrArg Host.Outcome.next (State.request_answers h taken tag codeOpenBracket)
  refine ⟨fun hi outside => ?outside, fun hi inRun critical => ?guarded, fun hi inRun level hk hc => ?miscounted,
    fun hi inRun level fits => ?opened, fun d ho hk hd => ?deeper, fun d ho hk hd => ?nested, fun ho hk => ?restricted,
    fun r ha => ?aborted⟩
  case outside => exact answered (State.openBracket_outside (s := s.goodFrame) hi outside)
  case guarded => exact answered (State.openBracket_guarded (s := s.goodFrame) hi inRun critical)
  case miscounted => exact answered (State.openBracket_miscounted (s := s.goodFrame) hi inRun level hk hc)
  case opened => exact answered (State.openBracket_opens (s := s.goodFrame) hi inRun level fits)
  case deeper => exact answered (State.openBracket_deepens (s := s.goodFrame) ho hk hd)
  case nested => exact answered (State.openBracket_nested (s := s.goodFrame) ho hk hd)
  case restricted => exact answered (State.openBracket_restricted (s := s.goodFrame) ho hk)
  case aborted => exact answered (State.openBracket_aborted (s := s.goodFrame) ha)

/-! ### A commit (R152) -/

/-- No item of a stage reaches the bracket. -/
@[simp] theorem State.takeItem_bracket (s : State) (r : StagedReq) : (s.takeItem r).1.bracket = s.bracket := by
  cases r with
  | setChannel ch v => simp [State.takeItem]
  | setZone z o a b => simp [State.takeItem]
  | cue b r fade rel =>
    unfold State.takeItem State.takeCue
    dsimp only
    split <;> (repeat' split) <;> simp
  | releaseBank b =>
    unfold State.takeItem State.takeRelease
    dsimp only
    split <;> simp

@[simp] theorem State.applyStage_bracket (s : State) (stage : List StageItem) :
    (s.applyStage stage).bracket = s.bracket :=
  foldl_keep State.bracket (f := fun s (i : StageItem) => (s.takeItem i.request).1)
    (fun s i => s.takeItem_bracket i.request) stage s

theorem State.commit_passes (h : checkStage s.workingCopy s.bracket.stage = true) (ordinal : Nat) :
    s.commit ordinal = ({ s.applyStage s.bracket.stage with
      bracket := { s.bracket with state := .idle, stage := [], timer := none } }, true) := by
  rw [State.commit, if_pos h, State.bracketIdle, State.applyStage_bracket]

theorem State.commit_conflicts (h : checkStage s.workingCopy s.bracket.stage = false) (ordinal : Nat) :
    s.commit ordinal = (s.abortBracket .conflict (some ordinal) none, false) := by
  rw [State.commit, if_neg (by simp [h])]

/-! ### CLOSE_BRACKET (R149) -/

theorem State.closeBracket_idle (hi : s.bracket.state = .idle) : s.closeBracket = (s, some (.plain .noBracket)) := by
  simp [State.closeBracket, hi]

theorem State.closeBracket_shallower {d : Nat} (ho : s.bracket.state = .opened d) (hd : 1 < d) : s.closeBracket =
    ({ s.countOrdinal with bracket := { s.countOrdinal.bracket with state := .opened (d - 1) } },
      some (.plain .done)) := by
  simp [State.closeBracket, ho, hd]

/-- R149: the close of the outermost level is the commit. -/
theorem State.closeBracket_commits (ho : s.bracket.state = .opened 1) : s.closeBracket =
    ((s.countOrdinal.commit (satSucc s.bracket.ordinal)).1,
      some (.plain (if (s.countOrdinal.commit (satSucc s.bracket.ordinal)).2 then .done else .aborted))) := by
  simp [State.closeBracket, ho]

theorem State.closeBracket_counted {n k : Nat} (hc : s.bracket.state = .counted n k) : s.closeBracket =
    (s.countOrdinal.abortBracket .restricted (some (satSucc s.bracket.ordinal)) none, some (.plain .aborted)) := by
  simp [State.closeBracket, hc]

theorem State.closeBracket_aborted {r : Nat} (ha : s.bracket.state = .aborted r) : s.closeBracket =
    ({ s with bracket := { s.bracket with state := if r ≤ 1 then .idle else .aborted (r - 1) } },
      some (.plain .aborted)) := by
  simp [State.closeBracket, ha]

/-- Settles O48: the state of the bracket in turn, and at depth 1 the check of the stage. -/
theorem closeBracketTaken : Obligations.CloseBracketTaken := by
  intro tag s h o counted
  have answered {t : State} {a : Answer} (taken : s.goodFrame.closeBracket = (t, some a)) :
      exec (.closeBracket tag) s = .next (t.place tag 0x10 a.result a.data) :=
    congrArg Host.Outcome.next (State.request_answers h taken tag codeCloseBracket)
  have commits (ho : s.bracket.state = .opened 1) : s.goodFrame.closeBracket =
      ((counted.commit o).1, some (.plain (if (counted.commit o).2 then .done else .aborted))) :=
    State.closeBracket_commits (s := s.goodFrame) ho
  refine ⟨fun d ho hd => ?shallower, fun ho passes => ?passes, fun ho fails => ?conflict, fun n k hc => ?counted,
    fun hi => ?idle, fun r ha => ?aborted⟩
  case shallower => exact answered (State.closeBracket_shallower (s := s.goodFrame) ho hd)
  case passes =>
    have committed := State.commit_passes (s := counted) passes o
    rw [committed] at commits
    exact answered (commits ho)
  case conflict =>
    have aborted := State.commit_conflicts (s := counted) fails o
    rw [aborted] at commits
    exact answered (commits ho)
  case counted => exact answered (State.closeBracket_counted (s := s.goodFrame) hc)
  case idle => exact answered (State.closeBracket_idle (s := s.goodFrame) hi)
  case aborted => exact answered (State.closeBracket_aborted (s := s.goodFrame) ha)

/-! ### ABANDON_BRACKET (R150) -/

theorem State.abandonBracket_idle (hi : s.bracket.state = .idle) :
    s.abandonBracket = (s, some (.plain .noBracket)) := by simp [State.abandonBracket, hi]

theorem State.abandonBracket_open (ho : s.bracket.state.isOpen = true) : s.abandonBracket =
    (s.countOrdinal.abortBracket .abandoned (some (satSucc s.bracket.ordinal)) none, some (.plain .done)) := by
  obtain ⟨d, hd⟩ | ⟨n, k, hc⟩ := (BracketState.isOpen_iff _).1 ho
  · simp [State.abandonBracket, hd]
  · simp [State.abandonBracket, hc]

theorem State.abandonBracket_aborted {r : Nat} (ha : s.bracket.state = .aborted r) : s.abandonBracket =
    ({ s with bracket := { s.bracket with state := .idle } }, some (.plain .done)) := by
  simp [State.abandonBracket, ha]

/-- Settles O49. -/
theorem abandonBracketTaken : Obligations.AbandonBracketTaken := by
  intro tag s h
  have answered {t : State} {a : Answer} (taken : s.goodFrame.abandonBracket = (t, some a)) :
      exec (.abandonBracket tag) s = .next (t.place tag 0x11 a.result a.data) :=
    congrArg Host.Outcome.next (State.request_answers h taken tag codeAbandonBracket)
  refine ⟨fun ho => ?abandoned, fun r ha => ?aborted, fun hi => ?idle⟩
  case abandoned =>
    have opened : s.goodFrame.countOrdinal.bracket.state.isOpen = true := ho
    have bracket := State.abortBracket_bracket opened .abandoned (some (satSucc s.bracket.ordinal)) none
    have rest := s.goodFrame.countOrdinal.abortBracket_rest .abandoned (some (satSucc s.bracket.ordinal)) none
    refine ⟨_, answered (State.abandonBracket_open (s := s.goodFrame) ho), ?_, ?_, ?_,
      ⟨_, congrArg BracketUnit.record bracket, rfl, rfl⟩, ?_, ?_⟩
    · exact congrArg BracketUnit.state bracket
    · exact congrArg BracketUnit.stage bracket
    · exact congrArg BracketUnit.timer bracket
    · simp [Answer.plain, TrunkUnit.countGoodFrame, TrunkUnit.restartSilence]
    · exact congrArg (State.place · tag 0x11 .done []) rest
  case aborted => exact answered (State.abandonBracket_aborted (s := s.goodFrame) ha)
  case idle => exact answered (State.abandonBracket_idle (s := s.goodFrame) hi)

end Sys2Proof.Machine
end

section
/-! Stageable requests in a bracket (R144, R146, R147, R155), and the check of a commit on its working copy (R152). -/

namespace Sys2Proof.Machine

open Sys2Proof

variable {s : State}

/-! ### The checks of SET_CHANNEL and SET_ZONE (R110, R164) -/

section channel
variable {channel value : Word16}

theorem State.checkSetChannel_outside (h : s.inRun = false) :
    s.checkSetChannel channel value = .refused (.plain .state) := by
  simp [State.checkSetChannel, h]

variable (run : s.inRun = true)
include run

theorem State.checkSetChannel_unknown
    (unknown : 512 ≤ channel.toNat ∨ (s.tables.channels.get channel.toNat).mapped = false) :
    s.checkSetChannel channel value = .refused (.badEntry none) := by
  have out : 512 ≤ channel.toNat ∨ (!(s.tables.channels.get channel.toNat).mapped) = true := by simpa using unknown
  simp only [State.checkSetChannel, run, Config.channelCount, if_pos out]
  rfl

variable (lt : channel.toNat < 512) (mapped : (s.tables.channels.get channel.toNat).mapped = true)
include lt mapped

theorem State.checkSetChannel_owned (other : (s.tables.channels.get channel.toNat).owner ≠ .supervisor) :
    s.checkSetChannel channel value = .refused (.plain .owned) := by
  simp [State.checkSetChannel, run, Config.channelCount, lt, mapped, other]

theorem State.checkSetChannel_good (own : (s.tables.channels.get channel.toNat).owner = .supervisor) :
    s.checkSetChannel channel value =
      .good (.setChannel channel.toNat (clampChannel (s.tables.channels.get channel.toNat) value.toInt))
        ((clampChannel (s.tables.channels.get channel.toNat) value.toInt : Int) != value.toInt) := by
  simp [State.checkSetChannel, run, Config.channelCount, lt, mapped, own]

end channel

/-- R110 step 3: the setpoint that a word gives. -/
def setpointOf (w : Word16) : Int := max (-400) (min w.toInt 600)

theorem setpointClamped_eq (v : Option Word16) :
    setpointClamped (v.map BitVec.toInt) = (v.map setpointOf != v.map BitVec.toInt) := by
  rw [Bool.eq_iff_iff, setpointClamped_iff, bne_iff_ne, Option.map_map]
  rfl

theorem State.checkSetZone_good {zone : Byte} {occupied : Option Bool} {occ unocc : Option Word16}
    (given : occupied ≠ none ∨ occ ≠ none ∨ unocc ≠ none) (lt : zone.toNat < 16)
    (inUse : s.inRun = true → s.tables.zoneInUse zone.toNat = true) :
    s.checkSetZone zone occupied (occ.map BitVec.toInt) (unocc.map BitVec.toInt) =
      .good (.setZone zone.toNat occupied (occ.map setpointOf) (unocc.map setpointOf))
        (occ.map setpointOf != occ.map BitVec.toInt || unocc.map setpointOf != unocc.map BitVec.toInt) := by
  have good := State.checkSetZone_known (s := s) (occ := occ.map BitVec.toInt) (unocc := unocc.map BitVec.toInt)
    (by simpa [zonePartGiven] using given) lt inUse
  rw [good, Option.map_map, Option.map_map, setpointClamped_eq, setpointClamped_eq]
  rfl

/-! ### A stageable request by the bracket state (R144) -/

section refused
variable (a : Answer)

theorem State.takeStageable_tolerated (ho : s.bracket.state.isOpen = true) (lax : s.bracket.strict = false) :
    s.takeStageable (.refused a) = (s.countOrdinal, some a) := by
  simp [State.takeStageable, State.refuseItem, ho, lax]

theorem State.takeStageable_strict (ho : s.bracket.state.isOpen = true) (strict : s.bracket.strict = true) :
    s.takeStageable (.refused a) =
      (s.countOrdinal.abortBracket .strictRefusal (some (satSucc s.bracket.ordinal)) (some a.result), some a) := by
  simp [State.takeStageable, State.refuseItem, ho, strict]

theorem State.takeStageable_refusedClosed (hc : s.bracket.state.isOpen = false) :
    s.takeStageable (.refused a) = (s, some a) := by
  simp [State.takeStageable, hc]

end refused

theorem State.takeStageable_goodAborted {r : Nat} (ha : s.bracket.state = .aborted r) (req : StagedReq)
    (clamped : Bool) : s.takeStageable (.good req clamped) = (s, some (.plain .aborted)) := by
  simp [State.takeStageable, ha, BracketState.isOpen]

/-- R146: the request counted and staged under its ordinal. -/
def State.staged (s : State) (req : StagedReq) : State := { s with bracket := { s.bracket with
  ordinal := satSucc s.bracket.ordinal
  stage := s.bracket.stage ++ [⟨satSucc s.bracket.ordinal, req⟩] } }

/-- R147: the same in a COUNTED bracket, which has then counted `k` of its `n` items. -/
def State.stagedAs (s : State) (req : StagedReq) (n k : Nat) : State :=
  { s with bracket := { (s.staged req).bracket with state := .counted n k } }

section good
variable (req : StagedReq) (clamped : Bool)

theorem State.takeStageable_full (ho : s.bracket.state.isOpen = true) (full : 64 ≤ s.bracket.stage.length) :
    s.takeStageable (.good req clamped) =
      (s.countOrdinal.abortBracket .capacity (some (satSucc s.bracket.ordinal)) none, some (.plain .aborted)) := by
  simp [State.takeStageable, State.stageItem, ho, Config.stageRoom, full]

variable (room : s.bracket.stage.length < 64)
include room

theorem State.takeStageable_opened {d : Nat} (ho : s.bracket.state = .opened d) :
    s.takeStageable (.good req clamped) =
      (s.staged req, some ⟨if clamped then .clamped else .staged, u16 (satSucc s.bracket.ordinal)⟩) := by
  simp [State.takeStageable, State.stageItem, ho, BracketState.isOpen, Config.stageRoom, room.not_ge, State.staged]

variable {n k : Nat} (hc : s.bracket.state = .counted n k)
include hc

theorem State.takeStageable_counts (more : k + 1 ≠ n) : s.takeStageable (.good req clamped) =
    (s.stagedAs req n (k + 1),
      some ⟨if clamped then .clamped else .staged, u16 (satSucc s.bracket.ordinal)⟩) := by
  simp [State.takeStageable, State.stageItem, hc, BracketState.isOpen, Config.stageRoom, room.not_ge, more,
    State.stagedAs, State.staged]

/-- R147: the item that reaches the count commits. -/
theorem State.takeStageable_commits (last : k + 1 = n) {t : State} {made : Bool}
    (commit : (s.stagedAs req n (k + 1)).commit (satSucc s.bracket.ordinal) = (t, made)) :
    s.takeStageable (.good req clamped) = (t, some (if made then
      (if clamped then ⟨.clamped, u16 (satSucc s.bracket.ordinal)⟩ else .plain .done) else .plain .aborted)) := by
  simp only [State.stagedAs, State.staged, last] at commit
  simp [State.takeStageable, State.stageItem, hc, BracketState.isOpen, Config.stageRoom, room.not_ge, last, commit]

end good

end Sys2Proof.Machine
end

section
/-! The commit's check, item by item on its working copy (R131, R137, R152), and the four stageable requests as commands
by the state of the bracket (R144, R146, R147, R155). -/

namespace Sys2Proof.Machine

open Sys2Proof

/-! ### The working copy (R131, R137, R152) -/

section copy
variable {w : WorkingCopy} {b r : Nat}

theorem checkStage_cue {w' : WorkingCopy} (altered : w.cue b r = some w') (o : Nat) (fade : Option Nat) (rel : Bool)
    (rest : List StageItem) : checkStage w (⟨o, .cue b r fade rel⟩ :: rest) = checkStage w' rest := by
  simp only [checkStage, altered]

theorem checkStage_cue_fails (fails : w.cue b r = none) (o : Nat) (fade : Option Nat) (rel : Bool)
    (rest : List StageItem) : checkStage w (⟨o, .cue b r fade rel⟩ :: rest) = false := by
  simp only [checkStage, fails]

theorem checkStage_release {w' : WorkingCopy} (altered : w.release b = some w') (o : Nat) (rest : List StageItem) :
    checkStage w (⟨o, .releaseBank b⟩ :: rest) = checkStage w' rest := by
  simp only [checkStage, altered]

theorem checkStage_release_fails (fails : w.release b = none) (o : Nat) (rest : List StageItem) :
    checkStage w (⟨o, .releaseBank b⟩ :: rest) = false := by
  simp only [checkStage, fails]

theorem WorkingCopy.cue_busy (engaged : (w.engines.get b).1 ≠ .free) (other : (w.engines.get b).2 ≠ some r) :
    w.cue b r = none := by
  cases state : (w.engines.get b).1 with
  | free => exact absurd state engaged
  | pending | running => simp [WorkingCopy.cue, cueAction, state, other]

theorem WorkingCopy.cue_replaces (pending : (w.engines.get b).1 = .pending) (same : (w.engines.get b).2 = some r) :
    w.cue b r = some w := by
  simp [WorkingCopy.cue, cueAction, pending, same]

theorem WorkingCopy.cue_starts (start : w.engines.get b = (.running, some r) ∨
    ((w.engines.get b).1 = .free ∧ w.banks.get b = (.active, some r))) :
    w.cue b r = some { w with engines := w.engines.set b (.running, some r) } := by
  obtain running | ⟨free, active⟩ := start
  · simp [WorkingCopy.cue, cueAction, running]
  · simp [WorkingCopy.cue, cueAction, free, active]

section free
variable (free : (w.engines.get b).1 = .free)
include free

theorem WorkingCopy.cue_closes (active : (w.banks.get b).1 = .active) (other : (w.banks.get b).2 ≠ some r) :
    w.cue b r = some { w with
      banks := w.banks.set b (.closing, (w.banks.get b).2)
      engines := w.engines.set b (.pending, some r) } := by
  simp [WorkingCopy.cue, cueAction, free, active, other]

theorem WorkingCopy.cue_noRoom (idle : (w.banks.get b).1 = .idle) (full : w.free = 0) : w.cue b r = none := by
  simp [WorkingCopy.cue, cueAction, free, idle, full]

theorem WorkingCopy.cue_activates (idle : (w.banks.get b).1 = .idle) (room : 0 < w.free) : w.cue b r = some {
    banks := w.banks.set b (.activating, some r)
    engines := w.engines.set b (.pending, some r)
    free := w.free - 1 } := by
  simp [WorkingCopy.cue, cueAction, free, idle, room.ne']

theorem WorkingCopy.cue_waits (closing : (w.banks.get b).1 = .closing) :
    w.cue b r = some { w with engines := w.engines.set b (.pending, some r) } := by
  simp [WorkingCopy.cue, cueAction, free, closing]

theorem WorkingCopy.release_closes (active : (w.banks.get b).1 = .active) :
    w.release b = some { w with banks := w.banks.set b (.closing, (w.banks.get b).2) } := by
  simp [WorkingCopy.release, free, active]

theorem WorkingCopy.release_rests (inactive : (w.banks.get b).1 ≠ .active) : w.release b = some w := by
  simp [WorkingCopy.release, free, inactive]

end free

theorem WorkingCopy.release_pending (pending : (w.engines.get b).1 = .pending) : w.release b = none := by
  simp [WorkingCopy.release, pending]

theorem WorkingCopy.release_running (running : (w.engines.get b).1 = .running) : w.release b = some w := by
  simp [WorkingCopy.release, running]

end copy

/-- R152: the application item by item, each as its block takes it alone. -/
theorem State.applyStage_eq (s : State) (stage : List StageItem) :
    s.applyStage stage = s.asCommit (stage.foldl (fun t item =>
      match item.request with
      | .setChannel ch v => t.writeDemand ch v
      | .setZone z x y u => t.applyZone z x y u
      | .cue b r fade rel => (t.takeCue b r fade rel).1
      | .releaseBank b => (t.takeRelease b).1) s) := by
  unfold State.applyStage
  congr
  funext t ⟨o, request⟩
  cases request <;> rfl

/-! ### A stageable request as a command (R144) -/

/-- The command is a stageable request under this tag and code, with these checks. -/
def StageableAs (c : Instr) (tag code : Byte) (check : State → Checked) : Prop :=
  ∀ s : State, exec c s = .next (s.request tag code fun t => t.takeStageable (check t))

theorem setChannel_stageable (tag : Byte) (channel value : Word16) :
    StageableAs (.setChannel tag channel value false) tag 0x0A fun t => t.checkSetChannel channel value :=
  fun _ => rfl

theorem setZone_stageable (tag zone : Byte) (occupied : Option Bool) (occ unocc : Option Word16) :
    StageableAs (.setZone tag zone occupied occ unocc) tag 0x0B fun t =>
      t.checkSetZone zone occupied (occ.map BitVec.toInt) (unocc.map BitVec.toInt) := fun _ => rfl

theorem cue_stageable (tag bank row : Byte) (fade : Option Word16) (rel : Bool) :
    StageableAs (.cue tag bank row fade rel) tag 0x0C fun t => t.checkCue bank row fade rel := fun _ => rfl

theorem releaseBank_stageable (tag bank : Byte) :
    StageableAs (.releaseBank tag bank) tag 0x0D fun t => t.checkRelease bank := fun _ => rfl

section request
variable {s : State} {c : Instr} {tag code : Byte} {check : State → Checked} (hc : StageableAs c tag code check)
  (h : s.serves)
include hc h

theorem StageableAs.exec_eq {checked : Checked} (hk : check s.goodFrame = checked) {t : State} {a : Answer}
    (taken : s.goodFrame.takeStageable checked = (t, some a)) :
    exec c s = .next (t.place tag code a.result a.data) := by
  subst hk
  exact (hc s).trans (congrArg Host.Outcome.next (State.request_answers h taken tag code))

/-- R146: refused in a bracket, it takes its ordinal, and aborts a STRICT one alone; in ABORTED it is refused too. -/
theorem StageableAs.refused {result : ResultCode} {data : List Byte}
    (hk : check s.goodFrame = .refused ⟨result, data⟩) :
    (s.bracket.state.isOpen = true → s.bracket.strict = false →
      exec c s = .next (s.goodFrame.countOrdinal.place tag code result data)) ∧
    (s.bracket.state.isOpen = true → s.bracket.strict = true →
      exec c s = .next ((s.goodFrame.countOrdinal.abortBracket .strictRefusal
        (some (min 65535 (s.bracket.ordinal + 1))) (some result)).place tag code result data)) ∧
    (∀ r, s.bracket.state = .aborted r → exec c s = .next (s.goodFrame.place tag code result data)) :=
  ⟨fun ho lax => hc.exec_eq h hk (State.takeStageable_tolerated (s := s.goodFrame) _ ho lax),
    fun ho strict => hc.exec_eq h hk (State.takeStageable_strict (s := s.goodFrame) _ ho strict),
    fun _ ha => hc.exec_eq h hk
      (State.takeStageable_refusedClosed (s := s.goodFrame) _ (congrArg BracketState.isOpen ha))⟩

section good
variable {req : StagedReq} {clamped : Bool} (hk : check s.goodFrame = .good req clamped)
include hk

/-- R155: in ABORTED one that passes its checks is not done. -/
theorem StageableAs.passed (r : Nat) (ha : s.bracket.state = .aborted r) :
    exec c s = .next (s.goodFrame.place tag code .aborted []) :=
  hc.exec_eq h hk (State.takeStageable_goodAborted (s := s.goodFrame) ha req clamped)

theorem StageableAs.joins {d : Nat} (ho : s.bracket.state = .opened d) (room : s.bracket.stage.length < 64) :
    exec c s = .next ((s.goodFrame.staged req).place tag code (if clamped then .clamped else .staged)
      (u16 (min 65535 (s.bracket.ordinal + 1)))) :=
  hc.exec_eq h hk (State.takeStageable_opened (s := s.goodFrame) req clamped room ho)

theorem StageableAs.overflows (ho : s.bracket.state.isOpen = true) (full : 64 ≤ s.bracket.stage.length) :
    exec c s = .next ((s.goodFrame.countOrdinal.abortBracket .capacity
      (some (min 65535 (s.bracket.ordinal + 1))) none).place tag code .aborted []) :=
  hc.exec_eq h hk (State.takeStageable_full (s := s.goodFrame) req clamped ho full)

section counted
variable {n k : Nat} (hn : s.bracket.state = .counted n k) (room : s.bracket.stage.length < 64)
include hn room

theorem StageableAs.counts (more : k + 1 ≠ n) :
    exec c s = .next ((s.goodFrame.stagedAs req n (k + 1)).place tag code (if clamped then .clamped else .staged)
      (u16 (min 65535 (s.bracket.ordinal + 1)))) :=
  hc.exec_eq h hk (State.takeStageable_counts (s := s.goodFrame) req clamped room hn more)

variable (last : k + 1 = n)
include last

theorem StageableAs.commits (passes : checkStage s.workingCopy
      (s.bracket.stage ++ [StageItem.mk (min 65535 (s.bracket.ordinal + 1)) req]) = true) :
    exec c s = .next ({ (s.goodFrame.stagedAs req n (k + 1)).applyStage
        (s.bracket.stage ++ [StageItem.mk (min 65535 (s.bracket.ordinal + 1)) req]) with
      bracket := { s.bracket with
        ordinal := min 65535 (s.bracket.ordinal + 1), state := .idle, stage := [], timer := none } }.place tag code
      (if clamped then .clamped else .done) (if clamped then u16 (min 65535 (s.bracket.ordinal + 1)) else [])) := by
  have committed := State.commit_passes (s := s.goodFrame.stagedAs req n (k + 1)) passes (satSucc s.bracket.ordinal)
  have taken := hc.exec_eq h hk (State.takeStageable_commits (s := s.goodFrame) req clamped room hn last committed)
  cases clamped <;> exact taken

theorem StageableAs.conflicts (fails : checkStage s.workingCopy
      (s.bracket.stage ++ [StageItem.mk (min 65535 (s.bracket.ordinal + 1)) req]) = false) :
    exec c s = .next (((s.goodFrame.stagedAs req n (k + 1)).abortBracket .conflict
      (some (min 65535 (s.bracket.ordinal + 1))) none).place tag code .aborted []) :=
  hc.exec_eq h hk (State.takeStageable_commits (s := s.goodFrame) req clamped room hn last
    (State.commit_conflicts (s := s.goodFrame.stagedAs req n (k + 1)) fails (satSucc s.bracket.ordinal)))

end counted
end good
end request

/-! ### The results where a clamp changed a value (R110, R164) -/

theorem clampedResult_channel {v : Nat} {z : Int} (plain : ResultCode) :
    (if ((v : Int) != z) = true then .clamped else plain) = if (v : Int) = z then plain else ResultCode.clamped := by
  by_cases same : (v : Int) = z <;> simp [same]

theorem clampedResult_zone {a a' b b' : Option Int} (plain : ResultCode) :
    (if (a != a' || b != b') = true then .clamped else plain) =
      if a = a' ∧ b = b' then plain else ResultCode.clamped := by
  by_cases same : a = a' ∧ b = b'
  · simp [same]
  · rw [if_neg same, if_pos]
    simpa [imp_iff_not_or] using same

/-- Settles O46: an open bracket with room, the refusals, a COUNTED bracket and a full stage, the working copy, the
check, the application, and the requests outside a bracket. -/
theorem requestsStaged : Obligations.RequestsStaged := by
  refine ⟨fun tag s d h run ho room => ?opened, fun tag s h => ?refused, fun tag s h run ho => ?counted,
    fun s => ⟨rfl, fun b hb => ⟨Tab.get_map _ _ _ hb, Tab.get_map _ _ _ hb⟩⟩,
    fun w o b r fade rel rest hb => ?check, State.applyStage_eq, fun tag s h run hi => ?idle⟩
  case opened =>
    intro o staged
    refine ⟨fun channel value lt mapped own => ?_, fun zone occupied occ unocc lt inUse given => ?_,
      fun bank row fade rel hb hr hf => ?_, fun bank hb => ?_⟩
    · have joined := (setChannel_stageable tag channel value).joins h
        (State.checkSetChannel_good (s := s.goodFrame) run lt mapped own) ho room
      rwa [clampedResult_channel] at joined
    · have joined := (setZone_stageable tag zone occupied occ unocc).joins h
        (State.checkSetZone_good (s := s.goodFrame) given lt fun _ => inUse) ho room
      rwa [clampedResult_zone] at joined
    · exact (cue_stageable tag bank row fade rel).joins h
        (State.checkCue_inRange (s := s.goodFrame) run hb hr hf) ho room
    · exact (releaseBank_stageable tag bank).joins h (State.checkRelease_inRange (s := s.goodFrame) run hb) ho room
  case refused =>
    intro o refused passed
    refine ⟨fun channel value => ?channel, fun zone occupied occ unocc => ?zone, fun bank row fade rel => ?cue,
      fun bank => ?release⟩
    case channel =>
      have stageable := setChannel_stageable tag channel value
      exact ⟨fun out => stageable.refused h (State.checkSetChannel_outside (s := s.goodFrame) out),
        fun run unknown => stageable.refused h (State.checkSetChannel_unknown (s := s.goodFrame) run unknown),
        fun run lt mapped other =>
          stageable.refused h (State.checkSetChannel_owned (s := s.goodFrame) run lt mapped other),
        fun run lt mapped own => stageable.passed h (State.checkSetChannel_good (s := s.goodFrame) run lt mapped own)⟩
    case zone =>
      have stageable := setZone_stageable tag zone occupied occ unocc
      intro c given known
      refine ⟨fun missing => ?missing, fun hg unknown => ?unknown, fun hg hk => ?known⟩
      case missing =>
        obtain ⟨hp, ha, hb⟩ : occupied = none ∧ occ = none ∧ unocc = none := by simpa [given] using missing
        exact stageable.refused h (State.checkSetZone_noPart (s := s.goodFrame) hp (by simp [ha]) (by simp [hb]))
      case unknown =>
        refine stageable.refused h
          (State.checkSetZone_unknown (s := s.goodFrame) (by simpa [zonePartGiven] using hg) ?_)
        by_cases lt : zone.toNat < 16
        · have notKnown : ¬ (s.inRun = false ∨ s.tables.zoneInUse zone.toNat = true) := fun hk => unknown ⟨lt, hk⟩
          exact .inr (by simpa [not_or] using notKnown)
        · exact .inl (Nat.le_of_not_lt lt)
      case known =>
        obtain ⟨lt, inUse⟩ := hk
        exact stageable.passed h (State.checkSetZone_good (s := s.goodFrame) hg lt
          fun run => inUse.resolve_left (by simpa using run))
    case cue =>
      have stageable := cue_stageable tag bank row fade rel
      exact ⟨fun out => stageable.refused h (State.checkCue_outside (s := s.goodFrame) out),
        fun run beyond => stageable.refused h (State.checkCue_beyond (s := s.goodFrame) run (by omega)),
        fun run ⟨hb, hr, hf⟩ => stageable.passed h (State.checkCue_inRange (s := s.goodFrame) run hb hr hf)⟩
    case release =>
      have stageable := releaseBank_stageable tag bank
      exact ⟨fun out => stageable.refused h (State.checkRelease_outside (s := s.goodFrame) out),
        fun run beyond => stageable.refused h (State.checkRelease_beyond (s := s.goodFrame) run beyond),
        fun run hb => stageable.passed h (State.checkRelease_inRange (s := s.goodFrame) run hb)⟩
  case counted =>
    intro o counts
    have taken {c : Instr} {code : Byte} {check : State → Checked} {req : StagedReq} {clamped : Bool}
        (hc : StageableAs c tag code check) (hk : check s.goodFrame = .good req clamped) :
        counts c code req clamped :=
      ⟨hc.overflows h hk ho, fun n k hn room => ⟨hc.counts h hk hn room, hc.commits h hk hn room,
        hc.conflicts h hk hn room⟩⟩
    exact ⟨fun channel value lt mapped own => taken (setChannel_stageable tag channel value)
        (State.checkSetChannel_good (s := s.goodFrame) run lt mapped own),
      fun zone occupied occ unocc lt inUse given => taken (setZone_stageable tag zone occupied occ unocc)
        (State.checkSetZone_good (s := s.goodFrame) given lt fun _ => inUse),
      fun bank row fade rel hb hr hf => taken (cue_stageable tag bank row fade rel)
        (State.checkCue_inRange (s := s.goodFrame) run hb hr hf),
      fun bank hb => taken (releaseBank_stageable tag bank) (State.checkRelease_inRange (s := s.goodFrame) run hb)⟩
  case check =>
    intro e k passes frees
    exact ⟨rfl, fun _ _ => rfl, fun _ _ _ _ => rfl,
      fun engaged other => checkStage_cue_fails (WorkingCopy.cue_busy engaged other) ..,
      fun pending same => checkStage_cue (WorkingCopy.cue_replaces pending same) ..,
      fun start => checkStage_cue (WorkingCopy.cue_starts start) ..,
      fun free active other => checkStage_cue (WorkingCopy.cue_closes free active other) ..,
      fun free idle full => checkStage_cue_fails (WorkingCopy.cue_noRoom free idle full) ..,
      fun free idle room => checkStage_cue (WorkingCopy.cue_activates free idle room) ..,
      fun free closing => checkStage_cue (WorkingCopy.cue_waits free closing) ..,
      fun pending => checkStage_release_fails (WorkingCopy.release_pending pending) ..,
      fun running => checkStage_release (WorkingCopy.release_running running) ..,
      fun free active => checkStage_release (WorkingCopy.release_closes free active) ..,
      fun free inactive => checkStage_release (WorkingCopy.release_rests free inactive) ..⟩
  case idle =>
    refine ⟨fun bank row fade rel hb hr hf => exec_cue_taken h hi run hb hr hf rfl,
      fun bank hb => exec_releaseBank_taken h hi run hb rfl, fun zone occupied occ unocc lt inUse given => ?_⟩
    have taken := exec_setZone_good (tag := tag) h hi (State.checkSetZone_good given lt fun _ => inUse)
    rwa [clampedResult_zone] at taken

end Sys2Proof.Machine
end

section
/-! The bracket law (R143, R145): what keeps it, from an abort and an event of the surface watch to every command, and
over a step. -/

namespace Sys2Proof.Machine

open Sys2Proof

variable {s t : State}

/-! ### The law in two parts -/

/-- R143: what the law asks of the bracket unit alone: the depth, residual or count in its state, and its stage. -/
def BracketUnit.shaped (b : BracketUnit) : Prop :=
  match b.state with
  | .idle => b.stage = []
  | .aborted r => b.stage = [] ∧ 1 ≤ r ∧ r ≤ 4
  | .opened d => 1 ≤ d ∧ d ≤ 4
  | .counted n k => b.stage.length = k ∧ k < n ∧ n ≤ 8

/-- R145: what it asks of the rest of the part. -/
def State.mayHoldOpen (s : State) : Prop := s.inRun = true ∧ s.watch.guard ≠ .critical

/-- The law in these two parts. -/
structure State.BracketLawful (s : State) : Prop where
  shaped : s.bracket.shaped
  held : s.bracket.state.isOpen = true → s.mayHoldOpen

theorem State.bracketLaw_iff : s.bracketLaw ↔ s.BracketLawful := by
  have parts : s.bracketLaw ↔ s.bracket.shaped ∧ (s.bracket.state.isOpen = true → s.mayHoldOpen) := by
    unfold State.bracketLaw BracketUnit.shaped State.mayHoldOpen
    cases s.bracket.state <;> simp [BracketState.isOpen] <;> tauto
  exact parts.trans ⟨fun ⟨shaped, held⟩ => ⟨shaped, held⟩, fun ⟨shaped, held⟩ => ⟨shaped, held⟩⟩

theorem State.BracketLawful.of_closed (h : s.bracket.shaped) (hc : s.bracket.state.isOpen = false) :
    s.BracketLawful := ⟨h, fun ho => absurd (hc.symm.trans ho) nofun⟩

/-- R148: outside RUN no bracket is open. -/
theorem State.BracketLawful.closed (h : s.BracketLawful) (hr : s.inRun = false) : s.bracket.state.isOpen = false :=
  Bool.eq_false_iff.2 fun ho => absurd (hr.symm.trans (h.held ho).1) nofun

/-- The law reads the operating state, the guard level and the bracket. -/
theorem State.BracketLawful.of_parts (h : s.BracketLawful) (hop : t.loader.op = s.loader.op)
    (hg : t.watch.guard = s.watch.guard) (hb : t.bracket = s.bracket) : t.BracketLawful := by
  obtain ⟨shaped, held⟩ := h
  refine ⟨by rwa [hb], ?_⟩
  rwa [hb, State.mayHoldOpen, State.inRun, hop, hg]

theorem State.BracketLawful.of_view (h : s.BracketLawful) (hv : t.watchView = s.watchView)
    (hb : t.bracket = s.bracket) : t.BracketLawful := by
  simp only [State.watchView, Prod.mk.injEq] at hv
  obtain ⟨hop, -, hwatch⟩ := hv
  exact h.of_parts hop (congrArg WatchUnit.guard hwatch) hb

theorem State.BracketLawful.setTrunk (s : State) (t : TrunkUnit) (h : s.BracketLawful) :
    State.BracketLawful { s with trunk := t } := ⟨h.shaped, h.held⟩

theorem State.BracketLawful.ite {c : Prop} [Decidable c] {t u : State} (ht : t.BracketLawful) (hu : u.BracketLawful) :
    State.BracketLawful (if c then t else u) := by
  split
  · exact ht
  · exact hu

/-- A bracket unit that has become IDLE with nothing staged. -/
theorem State.BracketLawful.of_idle (hi : s.bracket.state = .idle) (empty : s.bracket.stage = []) :
    s.BracketLawful := by
  refine .of_closed ?_ (by rw [hi]; rfl)
  rw [BracketUnit.shaped, hi]
  exact empty

section shape
variable {b : BracketUnit} (h : b.shaped)
include h

theorem BracketUnit.shaped.opened {d : Nat} (state : b.state = .opened d) : 1 ≤ d ∧ d ≤ 4 := by
  rwa [BracketUnit.shaped, state] at h

theorem BracketUnit.shaped.counted {n k : Nat} (state : b.state = .counted n k) :
    b.stage.length = k ∧ k < n ∧ n ≤ 8 := by
  rwa [BracketUnit.shaped, state] at h

theorem BracketUnit.shaped.aborted {r : Nat} (state : b.state = .aborted r) : b.stage = [] ∧ 1 ≤ r ∧ r ≤ 4 := by
  rwa [BracketUnit.shaped, state] at h

/-- The residual that an abort leaves. -/
theorem BracketUnit.shaped.depth_le (ho : b.state.isOpen = true) : 1 ≤ b.state.depth ∧ b.state.depth ≤ 4 := by
  obtain ⟨d, state⟩ | ⟨n, k, state⟩ := (BracketState.isOpen_iff _).1 ho
  · rw [state]
    exact h.opened state
  · rw [state]
    exact ⟨Nat.le_add_left 1 0, Nat.le_add_left 1 3⟩

end shape

/-! ### Aborts and commits (R151, R152) -/

/-- R151: an abort leaves the depth of the open bracket as residual, and no stage. -/
theorem State.abortBracket_bracketLawful (ho : s.bracket.state.isOpen = true)
    (depth : 1 ≤ s.bracket.state.depth ∧ s.bracket.state.depth ≤ 4) (c : AbortCode) (o : Option Nat)
    (r : Option ResultCode) : (s.abortBracket c o r).BracketLawful := by
  refine .of_closed ?_ (s.abortBracket_closes c o r)
  rw [State.abortBracket_bracket ho]
  unfold BracketUnit.shaped
  by_cases abandoned : c = .abandoned
  · simp [abandoned]
  · simpa [abandoned] using depth

theorem State.abort_bracketLawful (h : s.bracket.shaped) (c : AbortCode) (o : Option Nat) (r : Option ResultCode) :
    (s.abortBracket c o r).BracketLawful := by
  cases ho : s.bracket.state.isOpen
  · rw [State.abortBracket_closed ho]
    exact .of_closed h ho
  · exact State.abortBracket_bracketLawful ho (h.depth_le ho) c o r

theorem State.countedAbort_bracketLawful (s : State) (c : AbortCode) (o : Option Nat) (r : Option ResultCode)
    (h : s.BracketLawful) : (s.countOrdinal.abortBracket c o r).BracketLawful :=
  State.abort_bracketLawful (s := s.countOrdinal) h.shaped c o r

/-- R152: a commit ends in IDLE, or aborts. -/
theorem State.commit_bracketLawful (ho : s.bracket.state.isOpen = true)
    (depth : 1 ≤ s.bracket.state.depth ∧ s.bracket.state.depth ≤ 4) (ordinal : Nat) :
    (s.commit ordinal).1.BracketLawful := by
  cases passes : checkStage s.workingCopy s.bracket.stage
  · rw [State.commit_conflicts passes]
    exact State.abortBracket_bracketLawful ho depth ..
  · rw [State.commit_passes passes]
    exact .of_idle rfl rfl

/-! ### Stageable requests and the bracket (R144 to R150) -/

section requests
variable (h : s.BracketLawful)
include h

theorem State.takeItem_bracketLawful (r : StagedReq) : (s.takeItem r).1.BracketLawful :=
  h.of_view (s.takeItem_watchView r) (s.takeItem_bracket r)

theorem State.refused_bracketLawful (a : Answer) : (s.takeStageable (.refused a)).1.BracketLawful := by
  cases ho : s.bracket.state.isOpen
  · rw [State.takeStageable_refusedClosed a ho]
    exact h
  · cases strict : s.bracket.strict
    · rw [State.takeStageable_tolerated a ho strict]
      exact ⟨h.shaped, h.held⟩
    · rw [State.takeStageable_strict a ho strict]
      exact State.countedAbort_bracketLawful _ _ _ _ h

/-- R147: the item that reaches the count commits; with one before it the stage stays as long as the count. -/
theorem State.counted_bracketLawful {n k : Nat} (state : s.bracket.state = .counted n k)
    (room : s.bracket.stage.length < 64) (req : StagedReq) (clamped : Bool) :
    (s.takeStageable (.good req clamped)).1.BracketLawful := by
  obtain ⟨length, below, most⟩ := h.shaped.counted state
  by_cases last : k + 1 = n
  · have committed : ((s.stagedAs req n (k + 1)).commit (satSucc s.bracket.ordinal)).1.BracketLawful :=
      State.commit_bracketLawful (s := s.stagedAs req n (k + 1)) rfl ⟨Nat.le_add_left 1 0, Nat.le_add_left 1 3⟩ _
    rw [State.takeStageable_commits req clamped room state last rfl]
    exact committed
  · rw [State.takeStageable_counts req clamped room state last]
    refine ⟨⟨?_, by omega, most⟩, fun _ => h.held (congrArg BracketState.isOpen state)⟩
    rw [← length]
    exact List.length_append

theorem State.good_bracketLawful (req : StagedReq) (clamped : Bool) :
    (s.takeStageable (.good req clamped)).1.BracketLawful := by
  have overflows (ho : s.bracket.state.isOpen = true) (full : 64 ≤ s.bracket.stage.length) :
      (s.takeStageable (.good req clamped)).1.BracketLawful := by
    rw [State.takeStageable_full req clamped ho full]
    exact State.countedAbort_bracketLawful _ _ _ _ h
  cases state : s.bracket.state with
  | idle =>
    rw [State.takeStageable_good state]
    exact State.takeItem_bracketLawful h req
  | opened d =>
    have ho := congrArg BracketState.isOpen state
    by_cases room : s.bracket.stage.length < 64
    · rw [State.takeStageable_opened req clamped room state]
      refine ⟨?_, fun _ => h.held ho⟩
      rw [BracketUnit.shaped, show (s.staged req).bracket.state = .opened d from state]
      exact h.shaped.opened state
    · exact overflows ho (Nat.le_of_not_lt room)
  | counted n k =>
    by_cases room : s.bracket.stage.length < 64
    · exact State.counted_bracketLawful h state room req clamped
    · exact overflows (congrArg BracketState.isOpen state) (Nat.le_of_not_lt room)
  | aborted r =>
    rw [State.takeStageable_goodAborted state]
    exact h

theorem State.takeStageable_bracketLawful (c : Checked) : (s.takeStageable c).1.BracketLawful := by
  cases c with
  | refused a => exact State.refused_bracketLawful h a
  | good req clamped => exact State.good_bracketLawful h req clamped

theorem State.takeDirect_bracketLawful (c : Checked) : (s.takeDirect c).1.BracketLawful := by
  cases c with
  | refused a => exact h
  | good r clamped => exact State.takeItem_bracketLawful h r

/-- R145: a bracket opens in RUN below CRITICAL, and nests to depth 4. -/
theorem State.openBracket_bracketLawful (kind : BracketKind) (count : Nat) (strict notify : Bool) :
    (s.openBracket kind count strict notify).1.BracketLawful := by
  cases state : s.bracket.state with
  | idle =>
    cases run : s.inRun
    · rw [State.openBracket_outside state run]
      exact h
    · by_cases level : s.watch.guard = .critical
      · rw [State.openBracket_guarded state run level]
        exact h
      · by_cases fits : kind = .openKind ∨ (1 ≤ count ∧ count ≤ 8)
        · rw [State.openBracket_opens state run level fits]
          cases kind with
          | openKind => exact ⟨⟨Nat.le_refl 1, by decide⟩, fun _ => ⟨run, level⟩⟩
          | countedKind =>
            obtain ⟨least, most⟩ := fits.resolve_left nofun
            exact ⟨⟨rfl, least, most⟩, fun _ => ⟨run, level⟩⟩
        · cases kind with
          | openKind => exact absurd (.inl rfl) fits
          | countedKind =>
            rw [State.openBracket_miscounted state run level rfl (by omega)]
            exact h
  | opened d =>
    cases kind with
    | openKind =>
      by_cases deep : 4 ≤ d
      · rw [State.openBracket_nested state rfl deep]
        exact State.countedAbort_bracketLawful _ _ _ _ h
      · rw [State.openBracket_deepens state rfl (Nat.lt_of_not_le deep)]
        exact ⟨⟨Nat.le_add_left 1 d, Nat.lt_of_not_le deep⟩, fun _ => h.held (by rw [state]; rfl)⟩
    | countedKind =>
      rw [State.openBracket_restricted (by rw [state]; rfl) (.inl rfl)]
      exact State.countedAbort_bracketLawful _ _ _ _ h
  | counted n k =>
    rw [State.openBracket_restricted (by rw [state]; rfl) (.inr ⟨n, k, state⟩)]
    exact State.countedAbort_bracketLawful _ _ _ _ h
  | aborted r =>
    rw [State.openBracket_aborted state]
    exact h

theorem State.closeBracket_bracketLawful : s.closeBracket.1.BracketLawful := by
  cases state : s.bracket.state with
  | idle =>
    rw [State.closeBracket_idle state]
    exact h
  | opened d =>
    by_cases deeper : 1 < d
    · rw [State.closeBracket_shallower state deeper]
      obtain ⟨-, most⟩ := h.shaped.opened state
      exact ⟨⟨Nat.le_sub_one_of_lt deeper, (Nat.sub_le d 1).trans most⟩, fun _ => h.held (by rw [state]; rfl)⟩
    · have outermost : s.bracket.state = .opened 1 := by
        obtain ⟨least, -⟩ := h.shaped.opened state
        rw [state, Nat.le_antisymm (Nat.le_of_not_lt deeper) least]
      have ho : s.countOrdinal.bracket.state.isOpen = true := congrArg BracketState.isOpen outermost
      rw [State.closeBracket_commits outermost]
      exact State.commit_bracketLawful ho (h.shaped.depth_le ho) _
  | counted n k =>
    rw [State.closeBracket_counted state]
    exact State.countedAbort_bracketLawful _ _ _ _ h
  | aborted r =>
    rw [State.closeBracket_aborted state]
    obtain ⟨empty, -, most⟩ := h.shaped.aborted state
    by_cases last : r ≤ 1
    · exact .of_idle (if_pos last) empty
    · rw [if_neg last]
      refine .of_closed ?_ rfl
      exact ⟨empty, Nat.le_sub_one_of_lt (Nat.lt_of_not_le last), (Nat.sub_le r 1).trans most⟩

theorem State.abandonBracket_bracketLawful : s.abandonBracket.1.BracketLawful := by
  cases state : s.bracket.state with
  | idle =>
    rw [State.abandonBracket_idle state]
    exact h
  | opened | counted =>
    rw [State.abandonBracket_open (by rw [state]; rfl)]
    exact State.countedAbort_bracketLawful _ _ _ _ h
  | aborted r =>
    rw [State.abandonBracket_aborted state]
    exact .of_idle rfl (h.shaped.aborted state).1

/-! ### Events of the surface watch (R58, R154) -/

/-- R154: the change to CRITICAL aborts an open bracket. -/
theorem State.setGuard_bracketLawful (g : GuardLevel) : (s.setGuard g).BracketLawful := by
  by_cases same : g = s.watch.guard
  · rw [same, State.setGuard_same]
    exact h
  · have stored : (s.levelStored g).bracket = s.bracket := rfl
    rw [State.setGuard_changed same]
    split
    · exact State.abort_bracketLawful (s := s.levelStored g) h.shaped ..
    · exact ⟨h.shaped, fun ho => ⟨(h.held ho).1, ‹_›⟩⟩

theorem State.watchEvent_bracketLawful (act : Nat → WatchRec → WatchRun → EntryOutcome) :
    (s.watchEvent act).BracketLawful := by
  unfold State.watchEvent
  dsimp only
  refine State.setGuard_bracketLawful (h.of_parts ?_ ?_ ?_) _ <;> simp

theorem State.watchValue_bracketLawful (p : Nat) (v : Int) : (s.watchValue p v).BracketLawful := by
  rw [State.watchValue]
  exact State.watchEvent_bracketLawful h _

theorem State.watchLoss_bracketLawful (p : Nat) : (s.watchLoss p).BracketLawful := by
  rw [State.watchLoss]
  exact State.watchEvent_bracketLawful h _

theorem State.valueUpdate_bracketLawful (p : Nat) (v : Int) : (s.valueUpdate p v).BracketLawful := by
  refine (State.watchValue_bracketLawful h p v).of_view ?_ ?_ <;> simp [State.valueUpdate, State.watchView]

theorem State.lossOfUse_bracketLawful (p : Nat) : (s.lossOfUse p).BracketLawful := by
  refine (State.watchLoss_bracketLawful h p).of_view ?_ ?_ <;> simp [State.lossOfUse, State.watchView]

theorem State.setPoint_bracketLawful (p : Nat) (r : PointRun) : (s.setPoint p r).BracketLawful := by
  refine h.of_view ?_ ?_ <;> rfl

theorem State.faultItem_bracketLawful (p : Nat) : (s.faultItem p).BracketLawful := by
  have faulted (r : PointRun) := State.setPoint_bracketLawful h p r
  exact .ite (State.lossOfUse_bracketLawful (faulted _) p) (faulted _)

theorem State.applyItem_bracketLawful (n : Nat) (item : Item) : (s.applyItem n item).BracketLawful := by
  unfold State.applyItem
  split
  · split
    · exact State.valueUpdate_bracketLawful (State.setPoint_bracketLawful h _ _) ..
    · exact State.faultItem_bracketLawful h _
  · exact h

theorem State.sendUplink_bracketLawful (points : List Nat) : (s.sendUplink points).BracketLawful :=
  h.of_view (by simp [State.watchView]) (by simp)

theorem State.takeItems_bracketLawful (n : Nat) (items : List Item) : (s.takeItems n items).BracketLawful := by
  unfold State.takeItems
  refine State.sendUplink_bracketLawful ?_ _
  induction items generalizing s with
  | nil => exact h
  | cons item items ih => exact ih (State.applyItem_bracketLawful h n item)

theorem State.goStale_bracketLawful (p : Nat) : (s.goStale p).BracketLawful := by
  have staled (r : PointRun) := State.setPoint_bracketLawful h p r
  have lost (r : PointRun) (c : Bool) :
      State.BracketLawful (if c then (s.setPoint p r).lossOfUse p else s.setPoint p r) :=
    .ite (State.lossOfUse_bracketLawful (staled r) p) (staled r)
  exact .ite (.ite (State.sendUplink_bracketLawful (lost _ _) _) (lost _ _)) h

end requests

end Sys2Proof.Machine
end

section
/-! The bracket law command by command, and over a step. -/

namespace Sys2Proof.Machine

open Sys2Proof

variable {s : State}

/-! ### The tables and the memory port (R161, R162, R179) -/

theorem State.writeConfig_bracket (s : State) (id : TableId) (first n : Nat) (content : List Byte) :
    (s.writeConfig id first n content).1.bracket = s.bracket := by
  cases id
  case fogMap => simp only [State.writeConfig, State.resetWritten]; split <;> rfl
  all_goals rfl

/-- R162 step 7: of the tunable tables THRESHOLDS alone reaches the bracket, by the guard level. -/
theorem State.writeRunning_bracket (s : State) {id : TableId} (h : id ≠ .thresholds) (first n : Nat)
    (content : List Byte) : (s.writeRunning id first n content).1.bracket = s.bracket := by
  cases id
  case thresholds => exact absurd rfl h
  case fogTune | sinkTune | dispatch | zoneSet | timers | flagEnables | lightProfile =>
    simp only [State.writeRunning, State.writeFogTune, State.writeSinkTune, State.writeDispatch, State.restartDispatch,
      State.writeZoneSet, State.writeTimers, State.writeProfile]
    (repeat' split) <;> simp
  all_goals rfl

theorem State.writeRow_bracket (s : State) (tag : Byte) (bank row : Nat) (content : List Byte) :
    (s.writeRow tag bank row content).1.bracket = s.bracket := by
  unfold State.writeRow
  (repeat' split) <;> rfl

theorem State.readTable_bracket (s : State) (tag table : Byte) (first count : Word16) :
    (s.readTable tag table first count).1.bracket = s.bracket := by
  unfold State.readTable State.readRow
  (repeat' split) <;> rfl

theorem State.trySave_bracket (s : State) (tag : Byte) : (s.trySave tag).1.bracket = s.bracket := by
  unfold State.trySave
  (repeat' split) <;> rfl

theorem State.writeRunning_bracketLawful (h : s.BracketLawful) (id : TableId) (first n : Nat) (content : List Byte) :
    (s.writeRunning id first n content).1.BracketLawful := by
  by_cases hid : id = .thresholds
  · subst hid
    have stored : (s.storeRun .thresholds first n content).BracketLawful := ⟨h.shaped, h.held⟩
    simp only [State.writeRunning, State.writeThresholds]
    split
    · exact h
    · exact State.watchEvent_bracketLawful stored _
  · exact h.of_view (s.writeRunning_watchView hid ..) (s.writeRunning_bracket hid ..)

/-- R148: in CONFIG no bracket is open, and a write of a table leaves it so. -/
theorem State.writeConfig_bracketLawful (h : s.BracketLawful) (outside : s.inRun = false) (id : TableId)
    (first n : Nat) (content : List Byte) : (s.writeConfig id first n content).1.BracketLawful := by
  have same := s.writeConfig_bracket id first n content
  refine .of_closed ?_ ?_
  · rw [same]
    exact h.shaped
  · rw [same]
    exact h.closed outside

theorem State.writeTable_bracketLawful (tag table : Byte) (first count : Word16) (content : List Byte) (s : State)
    (h : s.BracketLawful) : (s.writeTable tag table first count content).1.BracketLawful := by
  unfold State.writeTable
  split
  · exact h
  · split
    · exact h
    · split
      · exact h
      · split
        · split
          · exact h.of_view (s.writeRow_watchView ..) (s.writeRow_bracket ..)
          · exact h
        · split
          · exact h
          · dsimp only
            split
            · exact State.writeRunning_bracketLawful h ..
            · exact State.writeConfig_bracketLawful h (by simpa using ‹¬s.inRun = true›) ..

/-! ### The operating state (R143, R148, R174, R177) -/

/-- R143: on entry to RUN the bracket is IDLE. -/
theorem State.enterRun_bracketLawful (s : State) (receiving : Bool) : (s.enterRun receiving).BracketLawful := by
  refine .of_idle ?_ ?_ <;> simp [State.enterRun]

theorem State.tryEnterRun_bracketLawful (receiving : Bool) (s : State) (h : s.BracketLawful) :
    (s.tryEnterRun receiving).1.BracketLawful := by
  unfold State.tryEnterRun
  split
  · exact h
  · split
    · exact h
    · split
      · exact h
      · dsimp only
        exact s.enterRun_bracketLawful receiving

/-- R148: ENTER_CONFIG leaves no bracket open. -/
theorem State.leaveRun_bracketLawful (h : s.BracketLawful) : s.leaveRun.BracketLawful := by
  have stopped : s.stopBracket.BracketLawful := .ite (State.countedAbort_bracketLawful s _ _ _ h) h
  have closed : s.stopBracket.bracket.state.isOpen = false := by
    unfold State.stopBracket
    split
    · exact State.abortBracket_closes ..
    · simpa using ‹¬s.bracket.state.isOpen = true›
  have same : s.leaveRun.bracket = s.stopBracket.bracket := by simp [State.leaveRun]
  exact .of_closed (same ▸ stopped.shaped) (same ▸ closed)

theorem State.enterConfig_bracketLawful (s : State) (h : s.BracketLawful) : s.enterConfig.1.BracketLawful :=
  .ite (State.leaveRun_bracketLawful h) h

/-- R177: a load that fails leaves the bracket as it stood in LOADING, closed. -/
theorem State.endLoad_bracketLawful (h : s.BracketLawful) (outside : s.inRun = false) (receiving : Bool) :
    (s.endLoad receiving).BracketLawful := by
  unfold State.endLoad
  split
  · exact State.enterRun_bracketLawful _ receiving
  · exact .of_closed h.shaped (h.closed outside)

theorem State.imageLoad_bracketLawful (h : s.BracketLawful) (receiving : Bool) :
    (s.imageLoad receiving).BracketLawful := by
  unfold State.imageLoad
  split
  · rename_i loading
    have hop : s.loader.op = .loading := by simpa using (Bool.and_eq_true_iff.1 loading).2
    exact State.endLoad_bracketLawful h (by simp [State.inRun, hop]) receiving
  · exact h

theorem State.start_bracketLawful (s : State) (straps : Straps) (cause : ResetCause) (cut : Nat) :
    (s.start straps cause cut).BracketLawful := .of_idle rfl rfl

theorem State.stopped_bracketLawful (s : State) (cut : Nat) (p : Power) : (s.stopped cut p).BracketLawful :=
  .of_idle rfl rfl

/-! ### The events that reach the surface watch, and those that abort (R45, R154, R171) -/

section events
variable (h : s.BracketLawful)
include h

theorem State.watchTimer_bracketLawful (k : Nat) (act : WatchRec → WatchRun → EntryOutcome) :
    (s.watchTimer k act).BracketLawful := .ite (State.watchEvent_bracketLawful h _) h

theorem State.goodReport_bracketLawful (address : Byte) (items : List Item) :
    (s.goodReport address items).BracketLawful := by
  have moved : State.BracketLawful
      (((s.setReplyTimer none).endSlotAmid false).moveNode address.toNat NodeRun.reported) :=
    h.of_view (by simp [State.watchView]) (by simp)
  have taken := State.takeItems_bracketLawful moved address.toNat items
  have reported : (s.reportTaken address.toNat items).BracketLawful :=
    taken.of_view (by simp [State.watchView, State.reportTaken]) (by simp [State.reportTaken])
  exact .ite (.ite reported (h.of_view (by simp [State.watchView]) (by simp))) h

theorem State.pointStale_bracketLawful (p : Nat) : (s.pointStale p).BracketLawful := by
  have stale := State.goStale_bracketLawful h p
  exact .ite (stale.of_view (by simp [State.watchView]) (by simp)) h

theorem State.bracketTimerEnds_bracketLawful : s.bracketTimerEnds.BracketLawful :=
  .ite (State.abort_bracketLawful h.shaped ..) h

theorem State.silenceEnds_bracketLawful : s.silenceEnds.BracketLawful :=
  .ite (State.abort_bracketLawful
    (s := State.raise { s with trunk := { s.trunk with silence := none } } .trunkSilent) h.shaped ..) h

/-! ### Every command, and a millisecond -/

/-- A request whose own rule keeps the law keeps it. -/
theorem State.request_bracketLawful {serve : State → State × Option Answer}
    (hs : ∀ u : State, u.BracketLawful → (serve u).1.BracketLawful) (tag code : Byte) :
    (s.request tag code serve).BracketLawful := State.request_keeps State.BracketLawful.setTrunk hs h tag code

/-- R144: so does a restricted one. -/
theorem State.restrictedRequest_bracketLawful {serve : State → State × Option Answer}
    (hs : ∀ u : State, u.BracketLawful → (serve u).1.BracketLawful) (tag code : Byte) :
    (s.request tag code (restricted serve)).BracketLawful :=
  State.request_bracketLawful h (restricted_keeps State.countedAbort_bracketLawful hs) tag code

theorem exec_bracketLawful (c : Instr) : Holds State.BracketLawful (exec c s) := by
  cases c
  case powerOn straps cut => exact holds_next (.ite (s.stopped_bracketLawful ..) (s.start_bracketLawful ..))
  case resetPin straps cut => exact holds_next (.ite (s.start_bracketLawful ..) ⟨h.shaped, h.held⟩)
  case softReset straps cut => exact holds_next (.ite (s.start_bracketLawful ..) h)
  case resetPinAsserted cut => exact holds_next (.ite (s.stopped_bracketLawful ..) ⟨h.shaped, h.held⟩)
  case powerFails cut => exact holds_next (s.stopped_bracketLawful ..)
  case trunkFrameSent => exact holds_next (.ite (.ite (s.start_bracketLawful ..) (h.setTrunk _ _)) h)
  case imageLoad receiving => exact holds_next (State.imageLoad_bracketLawful h receiving)
  -- the requests
  case readInfo tag =>
    exact holds_next (State.passRequest_keeps (serve := serveInfo) State.BracketLawful.setTrunk (fun _ hu => hu) h _ _)
  case readStatus tag =>
    exact holds_next
      (State.passRequest_keeps (serve := serveStatus) State.BracketLawful.setTrunk (fun _ hu => hu) h _ _)
  case malformedRequest tag code =>
    exact holds_next
      (State.passRequest_keeps (serve := serveMalformed) State.BracketLawful.setTrunk (fun _ hu => hu) h _ _)
  case readTable tag table first count =>
    exact holds_next (State.request_bracketLawful h
      (fun u hu => hu.of_view (u.readTable_watchView ..) (u.readTable_bracket ..)) _ _)
  case writeTable tag table first count content =>
    exact holds_next
      (State.restrictedRequest_bracketLawful h (State.writeTable_bracketLawful tag table first count content) _ _)
  case clearFlags tag mask value =>
    exact holds_next (State.request_bracketLawful h (serve := serveClear mask value) (fun _ hu => hu.setTrunk _ _) _ _)
  case enterRun tag receiving =>
    exact holds_next (State.restrictedRequest_bracketLawful h (State.tryEnterRun_bracketLawful receiving) _ _)
  case enterConfig tag => exact holds_next (State.request_bracketLawful h State.enterConfig_bracketLawful _ _)
  case saveImage tag =>
    exact holds_next (State.restrictedRequest_bracketLawful h
      (fun u hu => hu.of_view (u.trySave_watchView tag) (u.trySave_bracket tag)) _ _)
  case resetPart tag =>
    exact holds_next (State.request_bracketLawful h (serve := serveResetPart) (fun _ hu => hu) _ _)
  case setChannel tag channel value direct =>
    refine holds_next (State.request_bracketLawful h (fun u hu => ?_) _ _)
    split
    · exact State.takeDirect_bracketLawful hu _
    · exact State.takeStageable_bracketLawful hu _
  case setZone | cue | releaseBank =>
    exact holds_next (State.request_bracketLawful h (fun u hu => State.takeStageable_bracketLawful hu _) _ _)
  case releaseWatch tag mask =>
    exact holds_next (State.request_bracketLawful h (serve := serveRelease mask)
      (fun u hu => State.watchEvent_bracketLawful hu _) _ _)
  case openBracket tag kind count strict notify =>
    exact holds_next (State.request_bracketLawful h (fun u hu => State.openBracket_bracketLawful hu ..) _ _)
  case closeBracket tag =>
    exact holds_next (State.request_bracketLawful h (fun u hu => State.closeBracket_bracketLawful hu) _ _)
  case abandonBracket tag =>
    exact holds_next (State.request_bracketLawful h (fun u hu => State.abandonBracket_bracketLawful hu) _ _)
  -- the events that reach the guard level or the bracket
  case goodReport address items => exact holds_next (State.goodReport_bracketLawful h address items)
  case pointStale p => exact holds_next (State.pointStale_bracketLawful h p)
  case qualifyExpiry | releaseExpiry | holdExpiry | windowExpiry =>
    exact holds_next (State.watchTimer_bracketLawful h _ _)
  case bracketTimerExpiry => exact holds_next (State.bracketTimerEnds_bracketLawful h)
  case trunkSilenceExpiry => exact holds_next (State.silenceEnds_bracketLawful h)
  -- the events that reach neither
  case trunkBadFrame | pollSent | replyTimeout | fieldBadFrame | setSent | ignoredFieldFrameEnd | refreshExpiry
      | refreshLapse | patternStepExpiry | dehumidRunExpiry | dehumidRestExpiry | dispatchTimerExpiry
      | dispatchResultDelivery | activateComplete | rowWriteComplete | rowReadComplete | imageSaveComplete
      | activationDelivery | settleExpiry | fadeStepExpiry =>
    refine holds_next (h.of_view ?_ ?_) <;>
    · simp only [State.watchView, State.badTrunkFrame, State.pollSent, State.replyTimeout, State.fieldBadFrame,
        State.setSent, State.ignoredFrameEnds, State.refreshExpiry, State.refreshLapse, State.patternStep,
        State.dehumidRunEnds, State.dehumidRestEnds, State.dispatchTimerEnds, State.deliverResult,
        State.activateComplete, State.rowWriteComplete, State.rowReadComplete, State.imageSaveComplete,
        State.activationDelivered, State.settleExpiry, State.fadeStepExpiry]
      (repeat' split) <;> simp [State.saveEnds_op]

/-- A millisecond moves the bracket timer and the open time alone. -/
theorem State.tick_bracketLawful : s.tick.BracketLawful := by
  have passed : s.passRun.BracketLawful := ⟨h.shaped, h.held⟩
  exact .ite (.setTrunk _ _ (.ite passed h)) h

end events

/-- A command that waits, one that is due, or a millisecond. -/
theorem step_bracketLawful : KeptByStep State.BracketLawful := by
  intro s t h ht
  unfold step at ht
  split at ht
  · rename_i c rest _
    exact exec_bracketLawful (s := { s with pending := rest }) ⟨h.shaped, h.held⟩ c t ht
  · unfold State.idle at ht
    split at ht
    · exact exec_bracketLawful h _ t ht
    · cases ht
      exact State.tick_bracketLawful h

/-- Settles O51. -/
theorem bracketLawKept : Obligations.BracketLawKept := fun s t h ht =>
  State.bracketLaw_iff.2 (step_bracketLawful s t (State.bracketLaw_iff.1 h) ht)

end Sys2Proof.Machine
end

section
/-! The event flags, their NOTICEs and ATTN (R168 to R170): a raise by itself, and the raises of CLEAR_FLAGS one after
the other. -/

namespace Sys2Proof.Machine

open Sys2Proof

variable {s : State}

/-! ### The bits of the flags (R168) -/

theorem EventFlag.num_lt (f : EventFlag) : f.num < 16 := by cases f <;> decide

theorem EventFlag.all_num (f : EventFlag) : EventFlag.all[f.num]? = some f := by cases f <;> rfl

theorem EventFlag.num_inj {f g : EventFlag} : f.num = g.num ↔ f = g :=
  ⟨fun h => Option.some.inj (by rw [← f.all_num, h, g.all_num]), congrArg EventFlag.num⟩

theorem EventFlag.getLsbD_bit (f : EventFlag) (n : Nat) : f.bit.getLsbD n = (n == f.num) := by
  rw [EventFlag.bit, ← BitVec.twoPow_eq, BitVec.getLsbD_twoPow, decide_eq_true f.num_lt, Bool.true_and, Bool.eq_iff_iff,
    decide_eq_true_iff, beq_iff_eq, eq_comm]

theorem EventFlag.of_bit_iff (f g : EventFlag) : f.of g.bit = decide (f = g) := by
  rw [EventFlag.of, EventFlag.getLsbD_bit, Bool.eq_iff_iff]
  simp [EventFlag.num_inj]

theorem EventFlag.of_orBit (f g : EventFlag) (w : Word16) : f.of (w ||| g.bit) = (f.of w || decide (f = g)) := by
  rw [EventFlag.of_or, EventFlag.of_bit_iff]

theorem EventFlag.of_and (f : EventFlag) (a b : Word16) : f.of (a &&& b) = (f.of a && f.of b) := by simp [EventFlag.of]

theorem EventFlag.of_not (f : EventFlag) (w : Word16) : f.of (~~~w) = !f.of w := by simp [EventFlag.of, f.num_lt]

/-- A flag that is set is not set again. -/
theorem EventFlag.or_bit_of_set {f : EventFlag} {w : Word16} (h : f.of w = true) : w ||| f.bit = w := by
  refine BitVec.eq_of_getLsbD_eq fun n _ => ?_
  rw [BitVec.getLsbD_or, EventFlag.getLsbD_bit]
  by_cases hn : n = f.num
  · subst hn
    simpa [EventFlag.of] using h
  · simp [hn]

/-- R168: ATTN is asserted while some flag is set with its enable. -/
theorem State.attn_iff : s.attn = true ↔
    ∃ n, n < 16 ∧ s.trunk.flags.getLsbD n = true ∧ s.tables.enables.getLsbD n = true := by
  rw [State.attn, bne_iff_ne, Ne, ← not_iff_not, not_not]
  constructor
  · rintro h ⟨n, -, flag, enable⟩
    have := congrArg (BitVec.getLsbD · n) h
    simp [flag, enable] at this
  · intro h
    refine BitVec.eq_of_getLsbD_eq fun n hn => ?_
    have := fun flag enable => h ⟨n, hn, flag, enable⟩
    simpa using this

/-! ### A raise by itself (R168, R169) -/

/-- R169: the NOTICEs that UPLINK_DROPPED itself adds to those dropped, with these flags and enables. -/
def ownDropped (e flags : Word16) : Nat :=
  if EventFlag.uplinkDropped.of e = true ∧ EventFlag.uplinkDropped.of flags = false then 1 else 0

theorem satSucc_iterate (n c : Nat) : satSucc^[n + 1] c = min 65535 (c + (n + 1)) := by
  induction n with
  | zero => exact satSucc_eq c
  | succ n ih => rw [Function.iterate_succ_apply', ih, satSucc_eq]; omega

/-- `n` NOTICEs dropped and counted, and the flags as they then stand. -/
def TrunkUnit.dropNotices (t : TrunkUnit) (n : Nat) (flags : Word16) : TrunkUnit :=
  { t with flags := flags, counters := { t.counters with noticesDropped := satSucc^[n] t.counters.noticesDropped } }

theorem TrunkUnit.dropNotices_twice (t : TrunkUnit) (m n : Nat) (v w : Word16) :
    (t.dropNotices m v).dropNotices n w = t.dropNotices (n + m) w := by
  simp only [TrunkUnit.dropNotices, Function.iterate_add_apply]

section raise
variable {t : TrunkUnit} {f : EventFlag} {e : Word16} (r : Option AbortRecord)

theorem TrunkUnit.raise_set (h : f.of t.flags = true) (e : Word16) : t.raise f e r = t := if_pos h

variable (clear : f.of t.flags = false)
include clear

theorem TrunkUnit.raise_disabled (off : f.of e = false) : t.raise f e r = { t with flags := t.flags ||| f.bit } := by
  simp [TrunkUnit.raise, clear, off]

variable (on : f.of e = true)
include on

theorem TrunkUnit.raise_queued (room : t.reports.length < 16) : t.raise f e r = { t with
    flags := t.flags ||| f.bit
    reports := t.reports ++ [.notice (t.flags ||| f.bit) e r]
    sending := if t.sending ≠ .idle then t.sending else if t.replies ≠ [] then .reply else .report } := by
  have free : ({ t with flags := t.flags ||| f.bit } : TrunkUnit).reportsFull = false :=
    decide_eq_false (Nat.not_le.2 room)
  rw [TrunkUnit.raise, if_neg (by simp [clear]), if_pos on, TrunkUnit.offerNotice, free, if_neg Bool.false_ne_true,
    TrunkUnit.queueReport, TrunkUnit.startSending]
  cases t.sending <;> simp
  split <;> rfl

theorem TrunkUnit.raise_dropped (full : 16 ≤ t.reports.length) : t.raise f e r =
    t.dropNotices (ownDropped e (t.flags ||| f.bit) + 1) (t.flags ||| f.bit ||| EventFlag.uplinkDropped.bit) := by
  have noRoom : ({ t with flags := t.flags ||| f.bit } : TrunkUnit).reportsFull = true := decide_eq_true full
  rw [TrunkUnit.raise, if_neg (by simp [clear]), if_pos on, TrunkUnit.offerNotice, noRoom, if_pos rfl,
    TrunkUnit.raiseDropped, ownDropped, TrunkUnit.dropNotices]
  by_cases told : EventFlag.uplinkDropped.of (t.flags ||| f.bit) = true
  · simp [told, EventFlag.or_bit_of_set told]
  · cases tells : EventFlag.uplinkDropped.of e <;> simp [told]

end raise

/-- R158: no raise moves a counter but that of the NOTICEs dropped. -/
theorem TrunkUnit.raise_counters (t : TrunkUnit) (f : EventFlag) (e : Word16) (r : Option AbortRecord) :
    (t.raise f e r).counters = { t.counters with noticesDropped := (t.raise f e r).counters.noticesDropped } := by
  cases clear : f.of t.flags
  · cases on : f.of e
    · rw [TrunkUnit.raise_disabled r clear on]
    · by_cases room : t.reports.length < 16
      · rw [TrunkUnit.raise_queued r clear on room]
      · rw [TrunkUnit.raise_dropped r clear on (Nat.not_lt.1 room)]
        rfl
  · rw [TrunkUnit.raise_set r clear]

/-! ### Several raises, one after the other (R170) -/

/-- The flags with those of a list set. -/
def withFlags (l : List EventFlag) (flags : Word16) : Word16 := l.foldl (fun w f => w ||| f.bit) flags

/-- The NOTICEs that the raises of a list ask for, each with the flags as they then stand. -/
def noticesOf (e : Word16) (r : Option AbortRecord) : List EventFlag → Word16 → List Report
  | [], _ => []
  | f :: l, flags =>
    if f.of flags = true ∨ f.of e = false then noticesOf e r l (flags ||| f.bit)
    else .notice (flags ||| f.bit) e r :: noticesOf e r l (flags ||| f.bit)

/-- The raises of a list of flags, in its order. -/
def TrunkUnit.raiseAll (t : TrunkUnit) (l : List EventFlag) (e : Word16) (r : Option AbortRecord) : TrunkUnit :=
  l.foldl (fun t f => t.raise f e r) t

section raises
variable {e : Word16} {r : Option AbortRecord}

theorem withFlags_or (l : List EventFlag) (b : Word16) : ∀ flags, withFlags l (flags ||| b) = withFlags l flags ||| b := by
  induction l with
  | nil => exact fun _ => rfl
  | cons f l ih =>
    intro flags
    show withFlags l (flags ||| b ||| f.bit) = withFlags l (flags ||| f.bit) ||| b
    rw [← ih, BitVec.or_assoc, BitVec.or_comm b, ← BitVec.or_assoc]

theorem noticesOf_rises {f : EventFlag} {flags : Word16} (clear : f.of flags = false) (on : f.of e = true)
    (l : List EventFlag) :
    noticesOf e r (f :: l) flags = .notice (flags ||| f.bit) e r :: noticesOf e r l (flags ||| f.bit) :=
  if_neg (by simp [clear, on])

theorem noticesOf_silent {f : EventFlag} {flags : Word16} (h : f.of flags = true ∨ f.of e = false) (l : List EventFlag) :
    noticesOf e r (f :: l) flags = noticesOf e r l (flags ||| f.bit) := if_pos h

/-- With UPLINK_DROPPED set beforehand, its own NOTICE is missing among those asked for, and is its own drop instead. -/
theorem noticesOf_told (l : List EventFlag) : ∀ flags : Word16,
    (noticesOf e r l flags).length + ownDropped e (withFlags l flags) =
      ownDropped e flags + (noticesOf e r l (flags ||| EventFlag.uplinkDropped.bit)).length := by
  induction l with
  | nil => intro flags; simp [noticesOf, withFlags]
  | cons f l ih =>
    intro flags
    have rest := ih (flags ||| f.bit)
    have comm : flags ||| EventFlag.uplinkDropped.bit ||| f.bit = flags ||| f.bit ||| EventFlag.uplinkDropped.bit := by
      rw [BitVec.or_assoc, BitVec.or_comm _ f.bit, ← BitVec.or_assoc]
    have front : withFlags (f :: l) flags = withFlags l (flags ||| f.bit) := rfl
    rw [front, noticesOf, noticesOf, comm]
    by_cases own : f = .uplinkDropped
    · subst own
      cases clear : EventFlag.uplinkDropped.of flags <;> cases on : EventFlag.uplinkDropped.of e <;>
        simp [ownDropped, EventFlag.of_orBit, clear, on] at rest ⊢ <;> omega
    · have same : ownDropped e (flags ||| f.bit) = ownDropped e flags := by
        simp [ownDropped, EventFlag.of_orBit, Ne.symm own]
      rw [same] at rest
      cases clear : f.of flags <;> cases on : f.of e <;>
        simp [EventFlag.of_orBit, clear, own] at rest ⊢ <;> omega

/-- With the queue full and UPLINK_DROPPED set, every NOTICE asked for is dropped and counted. -/
theorem TrunkUnit.raiseAll_full (l : List EventFlag) : ∀ t : TrunkUnit, 16 ≤ t.reports.length →
    EventFlag.uplinkDropped.of t.flags = true →
    t.raiseAll l e r = t.dropNotices (noticesOf e r l t.flags).length (withFlags l t.flags) := by
  induction l with
  | nil => exact fun _ _ _ => rfl
  | cons f l ih =>
    intro t full told
    have still : EventFlag.uplinkDropped.of (t.flags ||| f.bit) = true := by rw [EventFlag.of_or, told]; rfl
    show (t.raise f e r).raiseAll l e r = t.dropNotices _ (withFlags l (t.flags ||| f.bit))
    cases clear : f.of t.flags
    · cases on : f.of e
      · rw [TrunkUnit.raise_disabled r clear on, noticesOf_silent (.inr on)]
        exact ih (t.dropNotices 0 (t.flags ||| f.bit)) full still
      · have none_ : ownDropped e (t.flags ||| f.bit) = 0 := by simp [ownDropped, still]
        rw [TrunkUnit.raise_dropped r clear on full, EventFlag.or_bit_of_set still, none_, noticesOf_rises clear on]
        exact (ih (t.dropNotices 1 (t.flags ||| f.bit)) full still).trans (TrunkUnit.dropNotices_twice ..)
    · rw [TrunkUnit.raise_set r clear, noticesOf_silent (.inl clear), EventFlag.or_bit_of_set clear]
      exact ih t full told

/-- The NOTICEs asked for are queued as far as there is room; from the first without room on they are dropped. -/
theorem TrunkUnit.raiseAll_reports (l : List EventFlag) : ∀ t : TrunkUnit,
    (t.raiseAll l e r).reports = t.reports ++ (noticesOf e r l t.flags).take (16 - t.reports.length) ∧
    ((noticesOf e r l t.flags).length ≤ 16 - t.reports.length →
      (t.raiseAll l e r).flags = withFlags l t.flags ∧ (t.raiseAll l e r).counters = t.counters) ∧
    (16 - t.reports.length < (noticesOf e r l t.flags).length →
      (t.raiseAll l e r).flags = withFlags l t.flags ||| EventFlag.uplinkDropped.bit ∧
      (t.raiseAll l e r).counters = { t.counters with
        noticesDropped := satSucc^[(noticesOf e r l t.flags).length - (16 - t.reports.length) +
          ownDropped e (withFlags l t.flags)] t.counters.noticesDropped }) := by
  induction l with
  | nil => intro t; simp [TrunkUnit.raiseAll, noticesOf, withFlags]
  | cons f l ih =>
    intro t
    have front : t.raiseAll (f :: l) e r = (t.raise f e r).raiseAll l e r := rfl
    have set_ : withFlags (f :: l) t.flags = withFlags l (t.flags ||| f.bit) := rfl
    rw [front, set_]
    cases clear : f.of t.flags
    · cases on : f.of e
      · rw [TrunkUnit.raise_disabled r clear on, noticesOf_silent (.inr on)]
        exact ih _
      · rw [noticesOf_rises clear on]
        by_cases room : t.reports.length < 16
        · rw [TrunkUnit.raise_queued r clear on room]
          have rest := ih { t with
            flags := t.flags ||| f.bit
            reports := t.reports ++ [.notice (t.flags ||| f.bit) e r]
            sending := if t.sending ≠ .idle then t.sending else if t.replies ≠ [] then .reply else .report }
          have less : 16 - t.reports.length = 16 - (t.reports.length + 1) + 1 := by omega
          simpa [less] using rest
        · have full := Nat.not_lt.1 room
          have none_ : 16 - t.reports.length = 0 := by omega
          have count := noticesOf_told (e := e) (r := r) l (t.flags ||| f.bit)
          have rest := TrunkUnit.raiseAll_full (e := e) (r := r) l (t.dropNotices (ownDropped e (t.flags ||| f.bit) + 1)
            (t.flags ||| f.bit ||| EventFlag.uplinkDropped.bit)) full
            ((EventFlag.of_or ..).trans (by rw [EventFlag.of_bit, Bool.or_true]))
          have total : (noticesOf e r l (t.flags ||| f.bit)).length + 1 - 0 +
              ownDropped e (withFlags l (t.flags ||| f.bit)) =
              (noticesOf e r l (t.flags ||| f.bit ||| EventFlag.uplinkDropped.bit)).length +
                (ownDropped e (t.flags ||| f.bit) + 1) := by omega
          rw [TrunkUnit.raise_dropped r clear on full, rest, TrunkUnit.dropNotices_twice, none_, List.length_cons, total]
          exact ⟨(List.append_nil _).symm, fun h => absurd h (Nat.not_succ_le_zero _), fun _ => ⟨withFlags_or .., rfl⟩⟩
    · rw [TrunkUnit.raise_set r clear, noticesOf_silent (.inl clear), EventFlag.or_bit_of_set clear]
      exact ih t

end raises

/-! ### The flags in ascending number (R168, R170) -/

/-- The word with the bits below `k` set. -/
def bitsBelow (k : Nat) : Word16 := (1#16 <<< k) - 1#16

theorem getLsbD_bitsBelow {k n : Nat} (hk : k ≤ 16) (hn : n < 16) : (bitsBelow k).getLsbD n = decide (n < k) := by
  have all : ∀ k, k < 17 → ∀ n, n < 16 → (bitsBelow k).getLsbD n = decide (n < k) := by decide +kernel
  exact all k (by omega) n hn

section ascending
variable {f : EventFlag} {l : List EventFlag} {k : Nat}

/-- A list of flags that holds those from number `k` on, one after the other. -/
def Ascending (l : List EventFlag) (k : Nat) : Prop := l.map EventFlag.num = List.range' k l.length

theorem ascending_all : Ascending EventFlag.all 0 := rfl

theorem Ascending.head (h : Ascending (f :: l) k) : f.num = k := (List.cons.inj h).1

theorem Ascending.tail (h : Ascending (f :: l) k) : Ascending l (k + 1) := (List.cons.inj h).2

variable (w : Word16)

theorem EventFlag.of_bitsBelow (f : EventFlag) : f.of (w &&& bitsBelow f.num) = false := by
  rw [EventFlag.of_and, EventFlag.of, EventFlag.of, getLsbD_bitsBelow f.num_lt.le f.num_lt]
  simp

theorem and_bitsBelow_succ (f : EventFlag) : w &&& bitsBelow (f.num + 1) =
    if f.of w = true then (w &&& bitsBelow f.num) ||| f.bit else w &&& bitsBelow f.num := by
  refine BitVec.eq_of_getLsbD_eq fun n hn => ?_
  have bits : (w &&& bitsBelow (f.num + 1)).getLsbD n = (w.getLsbD n && decide (n < f.num + 1)) := by
    rw [BitVec.getLsbD_and, getLsbD_bitsBelow f.num_lt hn]
  have below : (w &&& bitsBelow f.num).getLsbD n = (w.getLsbD n && decide (n < f.num)) := by
    rw [BitVec.getLsbD_and, getLsbD_bitsBelow f.num_lt.le hn]
  rw [apply_ite (BitVec.getLsbD · n), BitVec.getLsbD_or, bits, below, EventFlag.getLsbD_bit, EventFlag.of]
  obtain lt | rfl | gt := Nat.lt_trichotomy n f.num
  · simp [lt, lt.ne, Nat.lt_succ_of_lt lt]
  · cases w.getLsbD f.num <;> simp
  · simp [gt.not_gt, gt.ne', Nat.not_lt.2 (Nat.succ_le_of_lt gt)]

variable (base : Word16)

/-- The flags of a word set one after the other, as far as the list goes. -/
theorem withFlags_ascending (l : List EventFlag) : ∀ k, Ascending l k →
    withFlags (l.filter fun f => f.of w) (base ||| (w &&& bitsBelow k)) =
      base ||| (w &&& bitsBelow (k + l.length)) := by
  induction l with
  | nil => exact fun _ _ => rfl
  | cons f l ih =>
    intro k h
    have rest := ih (k + 1) h.tail
    have succ := and_bitsBelow_succ w f
    rw [h.head] at succ
    rw [List.length_cons, Nat.add_comm l.length, ← Nat.add_assoc, ← rest, succ]
    by_cases set_ : f.of w = true
    · rw [List.filter_cons_of_pos (p := fun f : EventFlag => f.of w) set_, if_pos set_, ← BitVec.or_assoc]
      rfl
    · rw [List.filter_cons_of_neg (p := fun f : EventFlag => f.of w) set_, if_neg set_]

/-- The NOTICEs of the flags of a word, set one after the other: each shows those up to its own. -/
theorem noticesOf_ascending (e : Word16) (r : Option AbortRecord) (l : List EventFlag) : ∀ k, Ascending l k →
    noticesOf e r (l.filter fun f => f.of w) (base ||| (w &&& bitsBelow k)) =
      (l.filter fun f => f.of w && !f.of base && f.of e).map fun f =>
        .notice (base ||| (w &&& bitsBelow (f.num + 1))) e r := by
  induction l with
  | nil => exact fun _ _ => rfl
  | cons f l ih =>
    intro k h
    have rest := ih (k + 1) h.tail
    have succ := and_bitsBelow_succ w f
    have before : f.of (base ||| (w &&& bitsBelow k)) = f.of base := by
      rw [EventFlag.of_or, ← h.head, EventFlag.of_bitsBelow, Bool.or_false]
    by_cases set_ : f.of w = true
    · rw [if_pos set_] at succ
      have after : base ||| (w &&& bitsBelow k) ||| f.bit = base ||| (w &&& bitsBelow (f.num + 1)) := by
        rw [succ, h.head, BitVec.or_assoc]
      rw [h.head] at after
      rw [List.filter_cons_of_pos (p := fun f : EventFlag => f.of w) set_, noticesOf, before, after, rest]
      cases clear : f.of base <;> cases on : f.of e <;> simp [clear, on, set_, h.head]
    · rw [if_neg set_, h.head] at succ
      rw [List.filter_cons_of_neg (p := fun f : EventFlag => f.of w) set_, List.filter_cons_of_neg (by simp [set_]), ← rest, succ]

end ascending

/-! ### CLEAR_FLAGS (R170) -/

section clear
variable (t : TrunkUnit) (mask value e : Word16) (r : Option AbortRecord)

/-- The flags that the clears of CLEAR_FLAGS leave. -/
def TrunkUnit.cleared (t : TrunkUnit) (mask value : Word16) : Word16 := t.flags &&& ~~~(mask &&& ~~~value)

theorem TrunkUnit.cleared_or (t : TrunkUnit) (mask value : Word16) :
    t.cleared mask value ||| (mask &&& value) = (t.flags &&& ~~~mask) ||| (mask &&& value) := by
  refine BitVec.eq_of_getLsbD_eq fun n hn => ?_
  simp only [TrunkUnit.cleared, BitVec.getLsbD_or, BitVec.getLsbD_and, BitVec.getLsbD_not, hn, decide_true,
    Bool.true_and]
  cases t.flags.getLsbD n <;> cases mask.getLsbD n <;> cases value.getLsbD n <;> rfl

theorem TrunkUnit.clearFlags_eq (t : TrunkUnit) (mask value e : Word16) (r : Option AbortRecord) :
    t.clearFlags mask value e r = TrunkUnit.raiseAll { t with flags := t.cleared mask value }
      (EventFlag.all.filter fun f => f.of (mask &&& value)) e r := by
  simp only [EventFlag.of_and]
  rfl

/-- The flags that CLEAR_FLAGS takes from 0 to 1 with a NOTICE. -/
def TrunkUnit.rises (t : TrunkUnit) (mask value e : Word16) : List EventFlag :=
  EventFlag.all.filter fun f => f.of mask && f.of value && !f.of t.flags && f.of e

theorem bitsBelow_zero (w base : Word16) : base ||| (w &&& bitsBelow 0) = base := by simp [bitsBelow]

theorem bitsBelow_all (w : Word16) : w &&& bitsBelow 16 = w := BitVec.and_allOnes

theorem TrunkUnit.clearFlags_flags (t : TrunkUnit) (mask value : Word16) :
    withFlags (EventFlag.all.filter fun f => f.of (mask &&& value)) (t.cleared mask value) =
      (t.flags &&& ~~~mask) ||| (mask &&& value) := by
  have all := withFlags_ascending (mask &&& value) (t.cleared mask value) EventFlag.all 0 ascending_all
  rw [bitsBelow_zero] at all
  rw [all, ← TrunkUnit.cleared_or]
  exact congrArg _ (bitsBelow_all _)

theorem TrunkUnit.clearFlags_notices (t : TrunkUnit) (mask value e : Word16) (r : Option AbortRecord) :
    noticesOf e r (EventFlag.all.filter fun f => f.of (mask &&& value)) (t.cleared mask value) =
      (t.rises mask value e).map fun f =>
        .notice (t.cleared mask value ||| (mask &&& value &&& bitsBelow (f.num + 1))) e r := by
  have all := noticesOf_ascending (mask &&& value) (t.cleared mask value) e r EventFlag.all 0 ascending_all
  rw [bitsBelow_zero] at all
  rw [all, TrunkUnit.rises]
  refine congrArg _ (List.filter_congr fun f _ => ?_)
  simp only [TrunkUnit.cleared, EventFlag.of_and, EventFlag.of_not]
  cases f.of mask <;> cases f.of value <;> cases f.of t.flags <;> rfl

theorem TrunkUnit.raiseAll_replies (l : List EventFlag) : ∀ t : TrunkUnit, (t.raiseAll l e r).replies = t.replies := by
  induction l with
  | nil => exact fun _ => rfl
  | cons f l ih => exact fun t => (ih _).trans (TrunkUnit.raise_frame ..).1

theorem bitsBelow_succ_num (f : EventFlag) : bitsBelow (f.num + 1) = (2#16 <<< f.num) - 1#16 := by cases f <;> rfl

/-- R170: what CLEAR_FLAGS makes of the reports, the flags and the counters. -/
theorem TrunkUnit.clearFlags_effect :
    let room := 16 - t.reports.length
    let flags := (t.flags &&& ~~~mask) ||| (mask &&& value)
    let rises := t.rises mask value e
    (t.clearFlags mask value e r).reports = t.reports ++ (rises.take room).map (fun f =>
      .notice (t.cleared mask value ||| (mask &&& value &&& ((2#16 <<< f.num) - 1#16))) e r) ∧
    (rises.length ≤ room → (t.clearFlags mask value e r).flags = flags ∧
      (t.clearFlags mask value e r).counters = t.counters) ∧
    (room < rises.length → (t.clearFlags mask value e r).flags = flags ||| EventFlag.uplinkDropped.bit ∧
      (t.clearFlags mask value e r).counters = { t.counters with
        noticesDropped := min 65535 (t.counters.noticesDropped + (rises.length - room) + ownDropped e flags) }) := by
  intro room flags rises
  have raises := TrunkUnit.raiseAll_reports (e := e) (r := r) (EventFlag.all.filter fun f => f.of (mask &&& value))
    { t with flags := t.cleared mask value }
  simp only [← TrunkUnit.clearFlags_eq, TrunkUnit.clearFlags_flags, TrunkUnit.clearFlags_notices, bitsBelow_succ_num,
    List.length_map, ← List.map_take] at raises
  obtain ⟨reports, queued, dropped⟩ := raises
  refine ⟨reports, queued, fun more => ⟨(dropped more).1, (dropped more).2.trans ?_⟩⟩
  obtain ⟨n, count⟩ : ∃ n, rises.length - room + ownDropped e flags = n + 1 := ⟨_, (Nat.succ_pred (by omega)).symm⟩
  rw [Nat.add_assoc, count, ← satSucc_iterate, ← count]

end clear

/-! ### The request, and all of it -/

/-- R170: the flags changed behind the good frame, before the reply is placed. -/
def State.flagsChanged (s : State) (mask value : Word16) : State :=
  { s with trunk := s.goodFrame.trunk.clearFlags mask value s.tables.enables s.bracket.record }

theorem exec_clearFlags (h : s.serves) (tag : Byte) (mask value : Word16) : exec (.clearFlags tag mask value) s =
    .next ((s.flagsChanged mask value).place tag 0x05 .done
      (u16 (s.flagsChanged mask value).trunk.flags.toNat ++ u16 s.tables.enables.toNat)) :=
  congrArg Host.Outcome.next (State.request_served h tag codeClearFlags (serveClear mask value))

/-- Settles O15: the raises of CLEAR_FLAGS by `TrunkUnit.clearFlags_effect`, and a raise by itself. -/
theorem clearFlagsReply : Obligations.ClearFlagsReply := by
  refine ⟨fun tag mask value s h => ⟨_, exec_clearFlags h tag mask value, rfl, ?replies, ?raises⟩,
    fun s f => ⟨rfl, rfl, fun set_ => ?set_, fun clear off => ?disabled, fun clear on room => ?room,
      fun clear on full => ?full⟩, fun s => State.attn_iff, fun f w => ⟨rfl, f.getLsbD_bit⟩, rfl⟩
  case replies =>
    have kept : (s.flagsChanged mask value).trunk.replies = s.trunk.replies := by
      rw [State.flagsChanged, TrunkUnit.clearFlags_eq, TrunkUnit.raiseAll_replies]
      rfl
    simp only [State.place, TrunkUnit.place_frame, kept]
  case raises =>
    simp only [State.place, TrunkUnit.place_frame]
    exact TrunkUnit.clearFlags_effect s.goodFrame.trunk mask value s.tables.enables s.bracket.record
  case set_ => exact congrArg (fun u => { s with trunk := u }) (TrunkUnit.raise_set _ set_ _)
  case disabled => exact congrArg (fun u => { s with trunk := u }) (TrunkUnit.raise_disabled _ clear off)
  case room => exact congrArg (fun u => { s with trunk := u }) (TrunkUnit.raise_queued _ clear on room)
  case full =>
    refine congrArg (fun u => { s with trunk := u }) ((TrunkUnit.raise_dropped _ clear on full).trans ?_)
    rw [TrunkUnit.dropNotices, satSucc_iterate, Nat.add_comm _ 1, ← Nat.add_assoc]
    rfl

end Sys2Proof.Machine
end

section
/-! Requests that are answered at once or turned away (R158 to R160, R164, R165, R167). -/

namespace Sys2Proof.Machine

open Sys2Proof

variable {s : State}

/-! ### A reply placed (R160, R167) -/

/-- An idle transmitter begins the reply: the queue that now holds it is not empty. -/
theorem TrunkUnit.place_eq (t : TrunkUnit) (r : Reply) : t.place r = { t with
    replies := t.replies ++ [r]
    sending := if t.sending = .idle then .reply else t.sending } := by
  cases h : t.sending <;> simp [TrunkUnit.place, TrunkUnit.startSending, h]

/-! ### A request and its rule (R158, R159) -/

/-- A request that is answered from the state alone, in every operating state. -/
theorem State.passRequest_answers (h : s.receives) {serve : State → State × Option Answer} {a : Answer}
    (answered : serve s.goodFrame = (s.goodFrame, some a)) (tag code : Byte) :
    s.passRequest tag code serve = s.goodFrame.place tag code a.result a.data := by
  rw [State.passRequest_received h, answered]
  rfl

/-- Every request is passed to some rule of its own behind the check for reply room. -/
theorem exec_isRequest {c : Instr} (h : c.isRequest = true) : ∃ tag code serve, ∀ s : State,
    exec c s = .next (s.passRequest tag code serve) := by
  cases c
  case readInfo | readStatus | readTable | writeTable | clearFlags | enterRun | enterConfig | saveImage | resetPart
    | setChannel | setZone | cue | releaseBank | releaseWatch | openBracket | closeBracket | abandonBracket
    | malformedRequest => exact ⟨_, _, _, fun _ => rfl⟩
  all_goals cases h

/-- Every request but READ_INFO and READ_STATUS is passed to its rule outside LOADING alone. -/
theorem exec_encoded {c : Instr} {tag code : Byte} {args : List Byte} (h : encodeRequest c = some (tag, code, args))
    (info : code ≠ 0x01) (status : code ≠ 0x02) : ∃ serve, ∀ s : State, exec c s = .next (s.request tag code serve) := by
  cases c
  case readInfo => cases h; exact absurd rfl info
  case readStatus => cases h; exact absurd rfl status
  case readTable | writeTable | clearFlags | enterRun | enterConfig | saveImage | resetPart | setChannel | setZone | cue
    | releaseBank | releaseWatch | openBracket | closeBracket | abandonBracket => cases h; exact ⟨_, fun _ => rfl⟩
  all_goals cases h

/-! ### Frames answered at once -/

/-- Settles O9. -/
theorem framesAnswered : Obligations.FramesAnswered := by
  refine ⟨fun s live => ?bad, fun tag code s => ⟨fun h => ?reset, fun h => ?malformed⟩⟩
  case bad => exact congrArg Host.Outcome.next (if_pos live)
  case reset => exact congrArg Host.Outcome.next (State.request_served h ..)
  case malformed => exact congrArg Host.Outcome.next (State.passRequest_answers h (serve := serveMalformed) rfl tag code)

/-- R165: the structure with its four tuples written out. -/
theorem infoStructure_spelled : infoStructure =
    [1, 17, 0x53, 0x48, 0x45, 0x4C, 0x44, 0x52, 0x41, 0, 0x53, 0x41, 0x32, 0x36, 0x34, 0x30, 0, 0, 0x43] ++
    [2, 54, 0, 48, 0, 62, 1, 0, 0, 12, 2, 0, 0, 16, 0, 128, 0, 48, 0, 32, 0, 32, 0, 101, 0, 8, 0, 8, 0, 4,
      0, 16, 0, 4, 0, 32, 0, 48, 0, 4, 0, 8, 0, 4, 0, 64, 0, 8, 0, 16, 0, 8, 0, 16, 0, 2] ++
    [3, 1, 3] ++ [0, 0] := by decide

/-- Settles O10: the reply placed behind the good frame, with the structure written out. -/
theorem infoReply : Obligations.InfoReply := by
  intro tag s h
  rw [← infoStructure_spelled]
  refine congrArg Host.Outcome.next ((State.passRequest_answers h (serve := serveInfo) rfl tag codeReadInfo).trans ?_)
  rw [State.place, TrunkUnit.place_eq]
  rfl

/-! ### Requests turned away -/

/-- Settles O16: STARTING by the check for LOADING before each rule, and the discard by the check for room before both. -/
theorem requestsTurnedAway : Obligations.RequestsTurnedAway := by
  refine ⟨fun c tag code args s h loading encoded info status => ?starting, fun c s request live full => ?discarded⟩
  case starting =>
    obtain ⟨serve, rule⟩ := exec_encoded encoded info status
    rw [rule, State.request_loading h loading]
  case discarded =>
    obtain ⟨tag, code, serve, rule⟩ := exec_isRequest request
    have counted := TrunkUnit.raise_counters { s.goodFrame.trunk with counters := { s.goodFrame.trunk.counters with
      requestsDropped := satSucc s.trunk.counters.requestsDropped } } .requestDropped s.tables.enables s.bracket.record
    exact ⟨_, (rule s).trans (congrArg Host.Outcome.next (State.passRequest_full live full tag code serve)), rfl,
      (TrunkUnit.raise_frame ..).1, congrArg Counters.requestsDropped counted, TrunkUnit.raise_sets ..⟩

/-! ### SET_CHANNEL outside a bracket, and with DIRECT in any (R164) -/

section channel
variable {tag : Byte} {channel value : Word16} {direct : Bool} (h : s.serves)
  (alone : direct = true ∨ s.bracket.state = .idle)
include h alone

theorem exec_setChannel_refused {a : Answer} (refused : s.checkSetChannel channel value = .refused a) :
    exec (.setChannel tag channel value direct) s = .next (s.goodFrame.place tag codeSetChannel a.result a.data) := by
  refine congrArg Host.Outcome.next (State.request_answers h ?_ tag codeSetChannel)
  have same : s.goodFrame.checkSetChannel channel value = .refused a := refused
  cases direct
  · rw [if_neg Bool.false_ne_true, same]
    exact State.takeStageable_refused (s := s.goodFrame) (alone.resolve_left Bool.false_ne_true) a
  · rw [if_pos rfl, same]
    rfl

theorem exec_setChannel_good {ch v : Nat} {clamped : Bool}
    (good : s.checkSetChannel channel value = .good (.setChannel ch v) clamped) :
    exec (.setChannel tag channel value direct) s =
      .next ((s.goodFrame.writeDemand ch v).place tag codeSetChannel (if clamped = true then .clamped else .done) []) := by
  refine congrArg Host.Outcome.next (State.request_answers (a := .plain (if clamped = true then .clamped else .done)) h ?_
    tag codeSetChannel)
  have same : s.goodFrame.checkSetChannel channel value = .good (.setChannel ch v) clamped := good
  cases direct
  · rw [if_neg Bool.false_ne_true, same,
      State.takeStageable_good (s := s.goodFrame) (alone.resolve_left Bool.false_ne_true)]
    simp [State.takeItem]
  · rw [if_pos rfl, same]
    rfl

end channel

/-- Settles O45: the checks of R164 in turn, then the clamped value written. -/
theorem setChannelWritten : Obligations.SetChannelWritten := by
  intro tag channel value direct s h alone r v
  refine ⟨fun outside => ?state, fun run unknown => ?badEntry, fun run lt mapped other => ?owned,
    fun run lt mapped own => ?written⟩
  case state => exact exec_setChannel_refused h alone (State.checkSetChannel_outside outside)
  case badEntry => exact exec_setChannel_refused h alone (State.checkSetChannel_unknown run unknown)
  case owned => exact exec_setChannel_refused h alone (State.checkSetChannel_owned run lt mapped other)
  case written =>
    rw [exec_setChannel_good h alone (State.checkSetChannel_good run lt mapped own)]
    refine congrArg (fun result => Host.Outcome.next (State.place _ tag codeSetChannel result [])) ?_
    show (if ((v : Int) != value.toInt) = true then ResultCode.clamped else .done) = _
    by_cases same : (v : Int) = value.toInt <;> simp [same]

end Sys2Proof.Machine
end

section
/-! The trunk link's own events (R154, R167, R171, R180), and the bytes of the frame in transmission (R20, R160, R169,
R172, R173). -/

namespace Sys2Proof.Machine

open Sys2Proof

variable {s : State}

/-! ### The end of a transmission (R167, R180) -/

section sent
variable {t : TrunkUnit}

theorem TrunkUnit.endSending_reply (sending : t.sending = .reply) : t.endSending = { t with
    replies := t.replies.tail
    sending := if t.replies.tail ≠ [] then .reply else if t.reports ≠ [] then .report else .idle } := by
  rw [TrunkUnit.endSending, sending]
  show TrunkUnit.startSending { t with replies := t.replies.tail, sending := .idle } = _
  rw [TrunkUnit.startSending]
  by_cases replies : t.replies.tail = [] <;> by_cases reports : t.reports = [] <;> simp [replies, reports]

theorem TrunkUnit.endSending_report (sending : t.sending = .report) : t.endSending = { t with
    reports := t.reports.tail
    sending := if t.replies ≠ [] then .reply else if t.reports.tail ≠ [] then .report else .idle } := by
  rw [TrunkUnit.endSending, sending]
  show TrunkUnit.startSending { t with reports := t.reports.tail, sending := .idle } = _
  rw [TrunkUnit.startSending]
  by_cases replies : t.replies = [] <;> by_cases reports : t.reports.tail = [] <;> simp [replies, reports]

theorem TrunkUnit.sendingReset_reply (sending : t.sending = .reply) {r : Reply} {rest : List Reply}
    (head : t.replies = r :: rest) : t.sendingReset = r.resets := by
  simp [TrunkUnit.sendingReset, sending, head]

theorem TrunkUnit.sendingReset_report (sending : t.sending = .report) : t.sendingReset = false := by
  simp [TrunkUnit.sendingReset, sending]

variable (live : s.live = true)
include live

theorem exec_trunkFrameSent (ordinary : s.trunk.sendingReset = false) :
    exec .trunkFrameSent s = .next { s with trunk := s.trunk.endSending } := by
  show Host.Outcome.next s.frameSent = _
  rw [State.frameSent, if_pos live, ordinary, if_neg Bool.false_ne_true]

theorem exec_trunkFrameSent_reset (resets : s.trunk.sendingReset = true) :
    exec .trunkFrameSent s = .next (s.start s.power.straps .soft 0) := by
  show Host.Outcome.next s.frameSent = _
  rw [State.frameSent, if_pos live, resets, if_pos rfl]

end sent

/-! ### The expiry of the silence timer (R154, R171) -/

theorem TrunkUnit.raiseAborted_silence (t : TrunkUnit) (notify : Bool) (e : Word16) (r : Option AbortRecord) :
    (t.raiseAborted notify e r).silence = t.silence := by
  rw [TrunkUnit.raiseAborted]
  split
  · exact (TrunkUnit.offerNotice_frame ..).2
  · exact (TrunkUnit.raise_frame ..).2

/-- R171: the part when the expiry has been told of, before the bracket is seen to. -/
def State.silenceTold (s : State) : State :=
  State.raise { s with trunk := { s.trunk with silence := none } } .trunkSilent

theorem State.silenceTold_trunk (s : State) : s.silenceTold.trunk.silence = none ∧
    EventFlag.trunkSilent.of s.silenceTold.trunk.flags = true :=
  ⟨(TrunkUnit.raise_frame ..).2, TrunkUnit.raise_sets ..⟩

theorem exec_trunkSilenceExpiry (live : s.live = true) {n : Nat} (running : s.trunk.silence = some n) :
    exec .trunkSilenceExpiry s = .next (s.silenceTold.abortBracket .link none none) := by
  show Host.Outcome.next s.silenceEnds = _
  rw [State.silenceEnds, running, live]
  rfl

/-! ### The bytes on the trunk (R172) -/

theorem UplinkEntry.bytes_spelled (e : UplinkEntry) : e.bytes = u16 e.point ++ s16 (e.value.getD 0) ++
    [(match e.quality with | .never => (0 : Byte) | .good => 1 | .suspect => 2 | .fault => 3 | .stale => 4) +
      if e.value = none then 0x80 else 0] := by
  rw [UplinkEntry.bytes, u8, BitVec.ofNat_add]
  cases e.quality <;> cases e.value <;> rfl

theorem recordField_none : recordField none = List.replicate 12 0 := rfl

theorem recordField_some (a : AbortRecord) : recordField (some a) = [1] ++ u8 a.code.code ++
    [match a.kind with | .openKind => (0 : Byte) | .countedKind => 1] ++ u8 a.depth ++ u8 a.stagedCount ++
    u8 ((if a.ordinal.isSome = true then 1 else 0) + if a.refusal.isSome = true then 2 else 0) ++
    u16 (a.ordinal.getD 0) ++ u8 ((a.refusal.map ResultCode.code).getD 0) ++
    [match a.guard with | .normal => (0 : Byte) | .warm => 1 | .critical => 2] ++ u16 a.duration := by
  rw [recordField, optField, AbortRecord.bytes]
  cases a.kind <;> cases a.guard <;> rfl

/-- Settles O17: the ends of transmissions, the expiry, the reset, and the bytes of each frame. -/
theorem trunkEvents : Obligations.TrunkEvents := by
  refine ⟨fun s live => ⟨fun r rest sending head ordinary => ?reply, fun r rest sending head => ?report⟩,
    fun s n live running => ?silence, fun s tag data rest live sending head => ?reset,
    fun s => ⟨fun idle => ?idle, fun r rest sending head => ?replyBytes, fun es rest sending head => ?uplinkBytes,
      fun flags enables record rest sending head => ?noticeBytes⟩, rfl, rfl⟩
  case reply =>
    have not_reset : r.resets = false := by
      rw [Reply.resets, Bool.and_eq_false_iff, beq_eq_false_iff_ne, beq_eq_false_iff_ne]
      exact ordinary
    rw [exec_trunkFrameSent live ((TrunkUnit.sendingReset_reply sending head).trans not_reset),
      TrunkUnit.endSending_reply sending, head]
    rfl
  case report =>
    rw [exec_trunkFrameSent live (TrunkUnit.sendingReset_report sending), TrunkUnit.endSending_report sending, head]
    rfl
  case silence =>
    obtain ⟨stopped, told⟩ := s.silenceTold_trunk
    refine ⟨_, exec_trunkSilenceExpiry live running, ?_⟩
    cases open_ : s.bracket.state.isOpen
    · rw [State.abortBracket_closed (s := s.silenceTold) open_]
      exact ⟨stopped, told, fun _ => rfl, fun h => by cases h⟩
    · have trunk := State.abortBracket_trunk (s := s.silenceTold) open_ .link none none
      have bracket := State.abortBracket_bracket (s := s.silenceTold) open_ .link none none
      rw [trunk, bracket]
      refine ⟨(TrunkUnit.raiseAborted_silence ..).trans stopped, TrunkUnit.raiseAborted_keeps told .., fun h => (by cases h),
        fun _ => ⟨?_, rfl, rfl, rfl, rfl, TrunkUnit.raiseAborted_sets ..⟩⟩
      rw [State.abortBracket, if_pos (show s.silenceTold.bracket.state.isOpen = true from open_)]
      rfl
  case reset =>
    rw [exec_trunkFrameSent_reset live ((TrunkUnit.sendingReset_reply sending head).trans rfl)]
    rfl
  case idle => rw [State.frameOnTrunk, idle]
  case replyBytes =>
    rw [State.frameOnTrunk, sending, head]
    rfl
  case uplinkBytes =>
    rw [State.frameOnTrunk, sending, head]
    show some (trunkFrame 3 (u8 es.length ++ es.flatMap UplinkEntry.bytes)) = _
    rw [funext UplinkEntry.bytes_spelled]
    rfl
  case noticeBytes =>
    rw [State.frameOnTrunk, sending, head]
    cases record with
    | none => rfl
    | some a =>
      show some (trunkFrame 4 (u16 flags.toNat ++ u16 enables.toNat ++ recordField (some a))) = _
      rw [recordField_some]
      rfl

end Sys2Proof.Machine
end

section
/-! Frames written and read back (R1, R8, R9, R158, R172, R173), and frames found in a stream of bytes. -/

namespace Sys2Proof.Machine

open Sys2Proof

/-! ### The CRC-16, bit by bit (R172) -/

/-- One bit taken into the check. -/
def crcStep (check : Word16) (bit : Bool) : Word16 :=
  (check <<< 1) ^^^ if check.getLsbD 15 = bit then 0#16 else 0x1021#16

/-- A byte waits in the upper half of the check: what its first bit does there, it does as the next bit. -/
theorem crcBit_xor (r x : Word16) : crcBit (r ^^^ x) = crcStep r (x.getLsbD 15) ^^^ (x <<< 1) := by
  have comm (p q c : Word16) : p ^^^ c ^^^ q = p ^^^ q ^^^ c := by ac_rfl
  rw [crcBit, crcStep, comm, BitVec.msb_eq_getLsbD_last, BitVec.getLsbD_xor, BitVec.shiftLeft_xor_distrib]
  cases r.getLsbD 15 <;> cases x.getLsbD 15 <;> simp

theorem crcByte_eq (r : Word16) (b : Byte) :
    crcByte r b = ((List.range 8).map fun k => b.getLsbD (7 - k)).foldl crcStep r := by
  simp only [crcByte, crcBit_xor, List.range, List.range.loop, List.map, List.foldl]
  simp

theorem crc16_bits (bytes : List Byte) : crc16 bytes =
    (bytes.flatMap fun b => (List.range 8).map fun k => b.getLsbD (7 - k)).foldl crcStep 0xFFFF#16 := by
  rw [List.foldl_flatMap, crc16]
  exact congrArg (fun f => bytes.foldl f 0xFFFF#16) (funext fun r => funext (crcByte_eq r))

/-! ### Words and flags as bytes -/

theorem word_wordBytes (w : Word16) : word (w.extractLsb' 8 8) (w.extractLsb' 0 8) = w := by
  refine BitVec.eq_of_getLsbD_eq fun i hi => ?_
  rw [word, BitVec.getLsbD_append, BitVec.getLsbD_extractLsb', BitVec.getLsbD_extractLsb']
  by_cases low : i < 8
  · simp [low]
  · have split : 8 + (i - 8) = i := by omega
    simp [low, split]
    omega

theorem word32_wordBytes (m : BitVec 32) :
    ((m.extractLsb' 16 16).extractLsb' 8 8 ++ (m.extractLsb' 16 16).extractLsb' 0 8 ++
      (m.extractLsb' 0 16).extractLsb' 8 8 ++ (m.extractLsb' 0 16).extractLsb' 0 8 : BitVec 32) = m := by
  refine BitVec.eq_of_getLsbD_eq fun i hi => ?_
  simp only [BitVec.getLsbD_append, BitVec.getLsbD_extractLsb']
  by_cases first : i < 8
  · simp [first]
    omega
  · by_cases second : i < 16
    · simp [first, show i - 8 < 8 by omega, show 8 + (i - 8) = i by omega]
      omega
    · by_cases third : i < 24
      · simp [first, show ¬ i - 8 < 8 by omega, show i - 8 - 8 < 8 by omega, show 16 + (i - 8 - 8) = i by omega]
        omega
      · simp [first, show ¬ i - 8 < 8 by omega, show ¬ i - 8 - 8 < 8 by omega, show i - 8 - 8 - 8 < 8 by omega,
          show 16 + (8 + (i - 8 - 8 - 8)) = i by omega]
        omega

/-- A value that is absent leaves its bytes 0, and its mark says that it is absent. -/
theorem whenSet_optWord (w : Option Word16) :
    whenSet w.isSome (word ((w.getD 0).extractLsb' 8 8) ((w.getD 0).extractLsb' 0 8)) = w := by
  cases w
  · rfl
  · exact congrArg some (word_wordBytes _)

theorem whenSet_optFlag (b : Option Bool) : whenSet b.isSome ((flagByte (b.getD false)).getLsbD 0) = b := by
  obtain _ | _ | _ := b <;> rfl

theorem flagByte_le (b : Bool) : (flagByte b).toNat ≤ 1 := by cases b <;> decide

theorem getLsbD_flagByte (b : Bool) : (flagByte b).getLsbD 0 = b := by cases b <;> rfl

theorem twoValued_flagByte (b : Bool) : twoValuedByte (flagByte b) = true := decide_eq_true (flagByte_le b)

/-- The three part marks of SET_ZONE in one byte. -/
def partsByte (a b c : Bool) : Byte := flagByte a ||| flagByte b <<< 1 ||| flagByte c <<< 2

theorem partsByte_spelled (a b c : Bool) : (partsByte a b c).toNat ≤ 7 ∧ (partsByte a b c).getLsbD 0 = a ∧
    (partsByte a b c).getLsbD 1 = b ∧ (partsByte a b c).getLsbD 2 = c := by
  cases a <;> cases b <;> cases c <;> decide

/-! ### Requests by their arguments (R159, R172) -/

/-- The arguments of a well-formed request leave room for its kind, tag and code. -/
theorem encodeRequest_length {c : Instr} {tag code : Byte} {args : List Byte} (fits : c.wellFormed = true)
    (h : encodeRequest c = some (tag, code, args)) : args.length + 3 ≤ 1024 := by
  cases c
  case writeTable =>
    cases h
    simp [Instr.wellFormed, contentWellFormed, Config.trunkLength] at fits
    simp [wordBytes]
    omega
  case readInfo | readStatus | readTable | clearFlags | enterRun | enterConfig | saveImage | resetPart
    | setChannel | setZone | cue | releaseBank | releaseWatch | openBracket | closeBracket | abandonBracket =>
    cases h
    simp [wordBytes, optWordBytes]
  all_goals cases h

theorem decodeRequest_encodeRequest {receiving : Bool} {c : Instr} {tag code : Byte} {args : List Byte}
    (moment : ∀ tag r, c = .enterRun tag r → r = receiving)
    (h : encodeRequest c = some (tag, code, args)) : decodeRequest receiving tag code args = c := by
  cases c
  case readInfo | readStatus | enterConfig | saveImage | resetPart | releaseBank | closeBracket | abandonBracket =>
    cases h
    rfl
  case readTable => cases h; exact congrArg₂ (Instr.readTable _ _) (word_wordBytes _) (word_wordBytes _)
  case writeTable => cases h; exact congrArg₂ (Instr.writeTable _ _ · · _) (word_wordBytes _) (word_wordBytes _)
  case clearFlags => cases h; exact congrArg₂ (Instr.clearFlags _) (word_wordBytes _) (word_wordBytes _)
  case enterRun t r =>
    cases h
    cases moment _ _ rfl
    rfl
  case setChannel tag channel value direct =>
    cases h
    show (if (flagByte direct).toNat ≤ 1 then Instr.setChannel tag (word _ _) (word _ _) ((flagByte direct).getLsbD 0)
      else _) = _
    rw [if_pos (flagByte_le direct), word_wordBytes, word_wordBytes, getLsbD_flagByte]
  case setZone tag z o a b =>
    cases h
    obtain ⟨seven, occupied, first, second⟩ := partsByte_spelled o.isSome a.isSome b.isSome
    show (if (partsByte o.isSome a.isSome b.isSome).toNat ≤ 7 ∧ twoValuedByte (flagByte (o.getD false)) = true then
      Instr.setZone tag z (whenSet ((partsByte _ _ _).getLsbD 0) _) (whenSet ((partsByte _ _ _).getLsbD 1) (word _ _))
        (whenSet ((partsByte _ _ _).getLsbD 2) (word _ _)) else _) = _
    rw [if_pos ⟨seven, twoValued_flagByte _⟩, occupied, first, second, whenSet_optFlag, whenSet_optWord, whenSet_optWord]
  case cue tag b r f rel =>
    cases h
    show (if twoValuedByte (flagByte f.isSome) = true ∧ twoValuedByte (flagByte rel) = true then
      Instr.cue tag b r (whenSet ((flagByte f.isSome).getLsbD 0) (word _ _)) ((flagByte rel).getLsbD 0) else _) = _
    rw [if_pos ⟨twoValued_flagByte _, twoValued_flagByte _⟩, getLsbD_flagByte, getLsbD_flagByte, whenSet_optWord]
  case releaseWatch tag mask =>
    cases h
    exact congrArg (Instr.releaseWatch tag) (word32_wordBytes mask)
  case openBracket tag kind count strict notify =>
    cases h
    cases kind <;> cases strict <;> cases notify <;> rfl
  all_goals cases h

/-! ### Trunk frames (R158, R172) -/

theorem rd16_cons (b : Byte) (bs : List Byte) (i : Nat) : rd16 (b :: bs) (i + 1) = rd16 bs i := rfl

/-- A front part that holds both bytes of a number reads the same. -/
theorem rd16_take {n i : Nat} (h : i + 2 ≤ n) (bs : List Byte) : rd16 (bs.take n) i = rd16 bs i := by
  simp [rd16, rd8, List.getD_eq_getElem?_getD, show i < n by omega, show i + 1 < n by omega]

section trunkFrame
variable {kind : Nat} {body : List Byte}

theorem length_trunkFrame : (trunkFrame kind body).length = body.length + 6 := by
  simp [trunkFrame, closeFrame]
  omega

variable (fits : body.length < 1024)
include fits

theorem rd16_trunkFrame : rd16 (trunkFrame kind body) 1 = body.length + 1 := by
  rw [trunkFrame, closeFrame, List.cons_append, rd16_cons, List.append_assoc, List.append_assoc]
  exact rd16_u16 (by omega) _

theorem trunkFrameWhole_trunkFrame : trunkFrameWhole (trunkFrame kind body) = true := by
  rw [trunkFrameWhole, rd16_trunkFrame fits, length_trunkFrame]
  simp

/-- No shorter run of its bytes is all that its length field asks for. -/
theorem trunkFrameWhole_take {n : Nat} (h : n < (trunkFrame kind body).length) :
    trunkFrameWhole ((trunkFrame kind body).take n) = false := by
  rw [trunkFrameWhole, List.length_take, Nat.min_eq_left h.le, Bool.and_eq_false_iff]
  by_cases short : 3 ≤ n
  · rw [length_trunkFrame] at h
    rw [rd16_take (by omega), rd16_trunkFrame fits]
    exact .inr (by simpa using by omega)
  · exact .inl (decide_eq_false short)

end trunkFrame

theorem decodeTrunkFrame_request (receiving : Bool) {tag code : Byte} {args : List Byte} (fits : args.length + 3 ≤ 1024) :
    decodeTrunkFrame receiving (trunkFrame 1 (tag :: code :: args)) = decodeRequest receiving tag code args := by
  have small : (tag :: code :: args).length < 1024 := by simpa using by omega
  have field := rd16_trunkFrame (kind := 1) small
  have length := length_trunkFrame (kind := 1) (body := tag :: code :: args)
  let covered := u16 ((tag :: code :: args).length + 1) ++ u8 1 ++ tag :: code :: args
  have count : (tag :: code :: args).length + 1 + 2 = covered.length := by simp [covered]; omega
  have behind : (trunkFrame 1 (tag :: code :: args)).drop 1 = covered ++ u16 (crc16 covered).toNat := rfl
  have inner : ((trunkFrame 1 (tag :: code :: args)).drop 1).take ((tag :: code :: args).length + 1 + 2) = covered := by
    rw [behind, count, List.take_left]
  have check : (trunkFrame 1 (tag :: code :: args)).drop ((tag :: code :: args).length + 1 + 3) =
      u16 (crc16 covered).toNat := by
    rw [Nat.add_comm _ 3, Nat.add_comm 3, ← Nat.add_assoc _ 2 1, Nat.add_comm _ 1, ← List.drop_drop, behind, count,
      List.drop_left]
  unfold decodeTrunkFrame
  simp only [field, inner]
  rw [if_pos ⟨length, rfl, Nat.succ_pos _, small, check⟩]
  rfl

/-- R172: a request's frame is read back as that request. -/
theorem decodeTrunkFrame_encodeTrunkFrame {receiving : Bool} {c : Instr} {frame : List Byte} (wf : c.wellFormed = true)
    (moment : ∀ tag r, c = .enterRun tag r → r = receiving) (h : encodeTrunkFrame c = some frame) :
    (∃ body : List Byte, body.length < 1024 ∧ frame = trunkFrame 1 body) ∧ decodeTrunkFrame receiving frame = c := by
  obtain ⟨⟨tag, code, args⟩, request, rfl⟩ := Option.map_eq_some_iff.1 h
  have fits := encodeRequest_length wf request
  exact ⟨⟨tag :: code :: args, by simpa using by omega, rfl⟩,
    (decodeTrunkFrame_request receiving fits).trans (decodeRequest_encodeRequest moment request)⟩

/-! ### Requests in a stream (R158) -/

section trunkStream
variable (receiving : Bool)

theorem receiveTrunk_idle {idle : List Byte} (quiet : Config.startMark ∉ idle) (rest : List Byte) :
    receiveTrunk receiving [] (idle ++ rest) = receiveTrunk receiving [] rest := by
  induction idle with
  | nil => rfl
  | cons b idle ih =>
    obtain ⟨other, quiet⟩ := not_or.1 (mt List.mem_cons.2 quiet)
    rw [List.cons_append, receiveTrunk, if_neg (Ne.symm other), ih quiet]

/-- While the frame is not whole its bytes are gathered. -/
theorem receiveTrunk_gathers (bytes rest : List Byte) : ∀ got : List Byte, got ≠ [] →
    (∀ n, 0 < n → n ≤ bytes.length → trunkFrameWhole (got ++ bytes.take n) = false) →
    receiveTrunk receiving got (bytes ++ rest) = receiveTrunk receiving (got ++ bytes) rest := by
  induction bytes with
  | nil => intro got _ _; rw [List.append_nil]; rfl
  | cons b bytes ih =>
    intro got some_ short
    obtain ⟨a, frame, rfl⟩ := List.exists_cons_of_ne_nil some_
    have one : trunkFrameWhole (a :: frame ++ [b]) = false := short 1 Nat.one_pos (by simp)
    have more := ih (a :: frame ++ [b]) (by simp) fun n pos le => by
      simpa using short (n + 1) (Nat.succ_pos n) (by simpa using le)
    rw [List.cons_append, receiveTrunk, one, if_neg Bool.false_ne_true, more, List.append_assoc]
    rfl

/-- The byte that makes the frame whole ends it. -/
theorem receiveTrunk_ends {got : List Byte} (some_ : got ≠ []) {b : Byte} (whole : trunkFrameWhole (got ++ [b]) = true)
    (rest : List Byte) : receiveTrunk receiving got (b :: rest) =
      decodeTrunkFrame receiving (got ++ [b]) :: receiveTrunk receiving [] rest := by
  obtain ⟨a, frame, rfl⟩ := List.exists_cons_of_ne_nil some_
  rw [receiveTrunk, whole, if_pos rfl]

theorem receiveTrunk_gap {got : List Byte} (some_ : got ≠ []) : receiveTrunk receiving got [] = [.trunkBadFrame] := by
  obtain ⟨a, frame, rfl⟩ := List.exists_cons_of_ne_nil some_
  rfl

variable {body : List Byte} (fits : body.length < 1024)
include fits

theorem receiveTrunk_part {n : Nat} (pos : 0 < n) (lt : n < (trunkFrame 1 body).length) (rest : List Byte) :
    receiveTrunk receiving [] ((trunkFrame 1 body).take n ++ rest) =
      receiveTrunk receiving ((trunkFrame 1 body).take n) rest := by
  obtain ⟨m, rfl⟩ : ∃ m, n = m + 1 := ⟨n - 1, by omega⟩
  have gathers := receiveTrunk_gathers receiving ((trunkFrame 1 body).tail.take m) rest [Config.startMark]
    (List.cons_ne_nil _ _) fun k _ le => by
      have le_m : k ≤ m := le.trans (List.length_take_le ..)
      rw [List.take_take, Nat.min_eq_left le_m]
      exact trunkFrameWhole_take fits (n := k + 1) (by omega)
  exact gathers

theorem receiveTrunk_frame (rest : List Byte) : receiveTrunk receiving [] (trunkFrame 1 body ++ rest) =
    decodeTrunkFrame receiving (trunkFrame 1 body) :: receiveTrunk receiving [] rest := by
  have some_ : trunkFrame 1 body ≠ [] := List.cons_ne_nil _ _
  have split := List.dropLast_concat_getLast some_
  rw [List.dropLast_eq_take] at split
  have long : 1 < (trunkFrame 1 body).length := by rw [length_trunkFrame]; omega
  have part := receiveTrunk_part receiving fits (n := (trunkFrame 1 body).length - 1) (by omega) (by omega)
    ((trunkFrame 1 body).getLast some_ :: rest)
  rw [← List.singleton_append, ← List.append_assoc, split] at part
  rw [part, List.singleton_append, receiveTrunk_ends receiving (by rw [← List.length_pos_iff, List.length_take]; omega)
    (by rw [split]; exact trunkFrameWhole_trunkFrame fits), split]

end trunkStream

/-! ### REPORTs (R8, R9, R172) -/

theorem decodeItems_bytes (items : List Item) : decodeItems (items.flatMap Item.bytes) = some items := by
  induction items with
  | nil => rfl
  | cons item items ih =>
    have quality : NodeQuality.ofByte item.quality.byte = some item.quality := by cases item.quality <;> rfl
    show decodeItems (item.index :: item.value.extractLsb' 8 8 :: item.value.extractLsb' 0 8 :: item.quality.byte ::
      items.flatMap Item.bytes) = _
    rw [decodeItems, quality, ih, word_wordBytes]

theorem length_itemBytes (items : List Item) : (items.flatMap Item.bytes).length = 4 * items.length := by
  induction items with
  | nil => rfl
  | cons item items ih =>
    rw [List.flatMap_cons, List.length_append, ih, List.length_cons]
    show 4 + 4 * items.length = _
    omega

section report
variable {address : Byte} {items : List Item} (fits : itemsWellFormed items = true)
include fits

/-- R172: a REPORT as a field frame: its count, its items and its check. -/
theorem encodeReport_shape : 1 ≤ items.length ∧ items.length ≤ 12 ∧
    (BitVec.ofNat 8 items.length).toNat = items.length ∧
    encodeReport address items = Config.startMark :: address :: 0x11 :: BitVec.ofNat 8 items.length ::
      (items.flatMap Item.bytes ++
        u16 (crc16 (address :: 0x11 :: BitVec.ofNat 8 items.length :: items.flatMap Item.bytes)).toNat) := by
  obtain ⟨least, most⟩ := Bool.and_eq_true_iff.1 fits
  have most := of_decide_eq_true most
  exact ⟨of_decide_eq_true least, most, by rw [BitVec.toNat_ofNat]; omega, rfl⟩

theorem decodeFieldFrame_encodeReport : decodeFieldFrame (encodeReport address items) = .goodReport address items := by
  obtain ⟨least, most, count, shape⟩ := encodeReport_shape (address := address) fits
  have length := length_itemBytes items
  rw [shape, decodeFieldFrame, count, ← length, List.take_left, List.drop_left, decodeItems_bytes,
    if_pos ⟨rfl, rfl, by omega, by omega, by simp, rfl⟩]

end report

/-! ### Field frames in a stream (R1, R9, R172) -/

/-- A field frame before its end, or one whose kind has no length of its own. -/
def fieldFrame (address kind count : Byte) (body : List Byte) : List Byte :=
  Config.startMark :: address :: kind :: count :: body

theorem decodeFieldFrame_bad {address kind count : Byte} (bad : kind ≠ 0x11 ∨ count = 0 ∨ 12 < count.toNat)
    (body : List Byte) : decodeFieldFrame (fieldFrame address kind count body) = .fieldBadFrame := by
  refine if_neg fun ⟨_, report, least, most, _⟩ => ?_
  obtain other | rfl | many := bad
  · exact other report
  · exact absurd least (by decide)
  · omega

section stream
variable (ignored : Bool)

theorem receiveField_idle {idle : List Byte} (quiet : Config.startMark ∉ idle) (rest : List Byte) :
    receiveField ignored [] (idle ++ rest) = receiveField false [] rest := by
  have first (ignored : Bool) : receiveField ignored [] rest = receiveField false [] rest := by cases rest <;> rfl
  induction idle generalizing ignored with
  | nil => exact first ignored
  | cons b idle ih =>
    obtain ⟨other, quiet⟩ := not_or.1 (mt List.mem_cons.2 quiet)
    rw [List.cons_append, receiveField, if_neg (Ne.symm other), ih false quiet]

/-- While the frame is not whole its bytes are gathered. -/
theorem receiveField_gathers (bytes rest : List Byte) : ∀ got : List Byte, got ≠ [] →
    (∀ n, 0 < n → n ≤ bytes.length → fieldFrameWhole (got ++ bytes.take n) = false) →
    receiveField ignored got (bytes ++ rest) = receiveField ignored (got ++ bytes) rest := by
  induction bytes with
  | nil => intro got _ _; rw [List.append_nil]; rfl
  | cons b bytes ih =>
    intro got some_ short
    obtain ⟨a, frame, rfl⟩ := List.exists_cons_of_ne_nil some_
    have one : fieldFrameWhole (a :: frame ++ [b]) = false := short 1 Nat.one_pos (by simp)
    have more := ih (a :: frame ++ [b]) (by simp) fun n pos le => by
      simpa using short (n + 1) (Nat.succ_pos n) (by simpa using le)
    rw [List.cons_append, receiveField, one, if_neg Bool.false_ne_true, more, List.append_assoc]
    rfl

/-- The byte that makes the frame whole ends it. -/
theorem receiveField_ends {got : List Byte} (some_ : got ≠ []) {b : Byte} (whole : fieldFrameWhole (got ++ [b]) = true)
    (rest : List Byte) : receiveField ignored got (b :: rest) =
      fieldFrameEnd ignored (got ++ [b]) :: receiveField false [] rest := by
  obtain ⟨a, frame, rfl⟩ := List.exists_cons_of_ne_nil some_
  rw [receiveField, whole, if_pos rfl]

theorem receiveField_gap {got : List Byte} (some_ : got ≠ []) :
    receiveField ignored got [] = [fieldFrameEnd ignored got] := by
  obtain ⟨a, frame, rfl⟩ := List.exists_cons_of_ne_nil some_
  rfl

/-- A frame of no kind runs to the gap. -/
theorem receiveField_unbounded {kind : Byte} (none_ : fieldUnitBytes kind = none) (address count : Byte)
    (body : List Byte) : receiveField ignored [] (fieldFrame address kind count body) =
      [fieldFrameEnd false (fieldFrame address kind count body)] := by
  have whole (l : List Byte) : fieldFrameWhole (Config.startMark :: address :: kind :: l) = false := by
    cases l with
    | nil => rfl
    | cons count l => simp [fieldFrameWhole, none_]
  have gathers := receiveField_gathers false (address :: kind :: count :: body) [] [Config.startMark]
    (List.cons_ne_nil _ _) fun n pos _ => by
      obtain _ | _ | n := n
      · cases pos
      · rfl
      · exact whole _
  rw [List.append_nil] at gathers
  exact gathers.trans (receiveField_gap false (List.cons_ne_nil _ _))

section counted
variable {address kind count : Byte} {body : List Byte} {units : Nat} (unit : fieldUnitBytes kind = some units)
  (length : body.length = units * count.toNat + 2)
include unit length

theorem fieldFrameWhole_fieldFrame : fieldFrameWhole (fieldFrame address kind count body) = true := by
  simp [fieldFrame, fieldFrameWhole, unit, length]

theorem fieldFrameWhole_take {n : Nat} (lt : n < (fieldFrame address kind count body).length) :
    fieldFrameWhole ((fieldFrame address kind count body).take n) = false := by
  obtain _ | _ | _ | _ | n := n
  case succ.succ.succ.succ =>
    have less : n < body.length := by simpa [fieldFrame] using lt
    simp only [fieldFrame, List.take_succ_cons, fieldFrameWhole, unit, Option.any_some, List.length_take]
    rw [beq_eq_false_iff_ne]
    omega
  all_goals rfl

/-- The rest of a frame of which something has been received. -/
theorem receiveField_rest {n m : Nat} (pos : 0 < n) (le : n ≤ m) (lt : m < (fieldFrame address kind count body).length)
    (rest : List Byte) : receiveField ignored ((fieldFrame address kind count body).take n)
      (((fieldFrame address kind count body).take m).drop n ++ rest) =
      receiveField ignored ((fieldFrame address kind count body).take m) rest := by
  have some_ : (fieldFrame address kind count body).take n ≠ [] := by
    rw [← List.length_pos_iff, List.length_take]
    omega
  have start : (fieldFrame address kind count body).take n = ((fieldFrame address kind count body).take m).take n := by
    rw [List.take_take, Nat.min_eq_left le]
  have gathers := receiveField_gathers ignored (((fieldFrame address kind count body).take m).drop n) rest _ some_
    fun k _ le_k => by
      have upTo : n + k ≤ m := by
        rw [List.length_drop, List.length_take] at le_k
        omega
      rw [start, ← List.take_add, List.take_take, Nat.min_eq_left upTo]
      exact fieldFrameWhole_take unit length (by omega)
  rw [gathers]
  conv_lhs => rw [start, List.take_append_drop]

/-- A frame of which something has been received, to its end. -/
theorem receiveField_whole {n : Nat} (pos : 0 < n) (lt : n < (fieldFrame address kind count body).length)
    (rest : List Byte) : receiveField ignored ((fieldFrame address kind count body).take n)
      ((fieldFrame address kind count body).drop n ++ rest) =
      fieldFrameEnd ignored (fieldFrame address kind count body) :: receiveField false [] rest := by
  have some_ : fieldFrame address kind count body ≠ [] := List.cons_ne_nil _ _
  have split := List.dropLast_concat_getLast some_
  rw [List.dropLast_eq_take] at split
  have behind : (fieldFrame address kind count body).drop n = ((fieldFrame address kind count body).take
      ((fieldFrame address kind count body).length - 1)).drop n ++ [(fieldFrame address kind count body).getLast some_] := by
    conv_lhs => rw [← split]
    rw [List.drop_append_of_le_length (by rw [List.length_take]; omega)]
  rw [behind, List.append_assoc, receiveField_rest ignored unit length pos (by omega) (by omega), List.singleton_append,
    receiveField_ends ignored (by rw [← List.length_pos_iff, List.length_take]; omega)
      (by rw [split]; exact fieldFrameWhole_fieldFrame unit length), split]

/-- A frame from its start mark to its end. -/
theorem receiveField_frame (rest : List Byte) : receiveField ignored [] (fieldFrame address kind count body ++ rest) =
    fieldFrameEnd false (fieldFrame address kind count body) :: receiveField false [] rest :=
  receiveField_whole false unit length (n := 1) Nat.one_pos (by simp [fieldFrame]) rest

theorem receiveField_bad (bad : kind ≠ 0x11 ∨ count = 0 ∨ 12 < count.toNat) (rest : List Byte) :
    receiveField ignored [] (fieldFrame address kind count body ++ rest) = .fieldBadFrame :: receiveField false [] rest :=
  (receiveField_frame ignored unit length rest).trans (congrArg (· :: _) (decodeFieldFrame_bad bad body))

/-- A frame that the gap ends short. -/
theorem receiveField_short {n : Nat} (pos : 0 < n) (lt : n < (fieldFrame address kind count body).length) :
    receiveField ignored [] ((fieldFrame address kind count body).take n) =
      [fieldFrameEnd false ((fieldFrame address kind count body).take n)] := by
  have gathers := receiveField_rest false unit length Nat.one_pos pos lt []
  obtain ⟨m, rfl⟩ : ∃ m, n = m + 1 := ⟨n - 1, by omega⟩
  rw [List.append_nil] at gathers
  exact gathers.trans (receiveField_gap false (List.cons_ne_nil _ _))

end counted

/-- R9: a field frame without its last bytes is a bad one. -/
theorem decodeFieldFrame_take {address kind count : Byte} {body : List Byte}
    (length : body.length = 4 * count.toNat + 2) {n : Nat} (lt : n < (fieldFrame address kind count body).length) :
    decodeFieldFrame ((fieldFrame address kind count body).take n) = .fieldBadFrame := by
  obtain _ | _ | _ | _ | n := n
  case succ.succ.succ.succ =>
    have less : n < body.length := by simpa [fieldFrame] using lt
    refine if_neg fun ⟨_, _, _, _, whole, _⟩ => ?_
    rw [List.length_take] at whole
    omega
  all_goals rfl

end stream

/-- Settles O60: the check, the two round trips, and the two streams. -/
theorem framesReadBack : Obligations.FramesReadBack := by
  refine ⟨crc16_bits, fun receiving c frame wf moment h => (decodeTrunkFrame_encodeTrunkFrame wf moment h).2,
    fun address items fits => decodeFieldFrame_encodeReport fits, fun receiving idle quiet =>
      ⟨receiveTrunk_idle receiving quiet, fun c frame wf moment h => ⟨fun rest => ?request, fun n pos lt => ?cut⟩⟩,
    fun ignored idle rest quiet => ⟨receiveField_idle ignored quiet rest, fun address items fits => ?report,
      fun address kind count body => ⟨fun poll two => ?poll, fun report bad length => ?count, fun set_ length => ?set_,
        fun other₀ other₁ other₂ => ?other⟩⟩⟩
  case request =>
    obtain ⟨⟨body, fits, rfl⟩, decoded⟩ := decodeTrunkFrame_encodeTrunkFrame wf moment h
    rw [List.append_assoc, receiveTrunk_idle receiving quiet, receiveTrunk_frame receiving fits, decoded]
  case cut =>
    obtain ⟨⟨body, fits, rfl⟩, -⟩ := decodeTrunkFrame_encodeTrunkFrame wf moment h
    have part := receiveTrunk_part receiving fits pos lt []
    rw [List.append_nil] at part
    rw [receiveTrunk_idle receiving quiet, part, receiveTrunk_gap receiving (by
      rw [← List.length_pos_iff, List.length_take]; omega)]
  case report =>
    obtain ⟨-, -, count, shape⟩ := encodeReport_shape (address := address) fits
    have length : (items.flatMap Item.bytes ++
        u16 (crc16 (address :: 0x11 :: BitVec.ofNat 8 items.length :: items.flatMap Item.bytes)).toNat).length =
        4 * (BitVec.ofNat 8 items.length).toNat + 2 := by
      rw [List.length_append, length_itemBytes, count]
      rfl
    have decoded := decodeFieldFrame_encodeReport (address := address) fits
    rw [shape] at decoded ⊢
    refine ⟨?_, fun n pos lt => ⟨?_, ?_⟩⟩
    · rw [List.append_assoc, receiveField_idle ignored quiet]
      exact (receiveField_frame ignored rfl length rest).trans (congrArg (· :: _) decoded)
    · rw [receiveField_idle ignored quiet]
      exact (receiveField_short false rfl length pos lt).trans (congrArg (fun c => [c]) (decodeFieldFrame_take length lt))
    · exact receiveField_whole true rfl length pos lt rest
  case poll =>
    subst poll
    have length : body.length = 0 * count.toNat + 2 := by rw [two, Nat.zero_mul]
    rw [List.append_assoc, receiveField_idle ignored quiet]
    exact receiveField_bad ignored rfl length (.inl (by decide)) rest
  case count =>
    subst report
    rw [List.append_assoc, receiveField_idle ignored quiet]
    exact receiveField_bad ignored rfl length (.inr bad) rest
  case set_ =>
    subst set_
    rw [List.append_assoc, receiveField_idle ignored quiet]
    exact receiveField_bad ignored rfl length (.inl (by decide)) rest
  case other =>
    have none_ : fieldUnitBytes kind = none := by
      rw [fieldUnitBytes, if_neg other₀, if_neg other₁, if_neg other₂]
    rw [List.append_assoc, receiveField_idle ignored quiet]
    exact (receiveField_unbounded false none_ address count (body ++ rest)).trans
      (congrArg (fun c => [c]) (decodeFieldFrame_bad (.inl other₁) _))

end Sys2Proof.Machine
end

section
/-! The reads (R161, R165, R166): the data of READ_STATUS item by item, the entries of the read-only tables field by field,
and as many entries of a run as a reply holds. -/

namespace Sys2Proof.Machine

open Sys2Proof

variable {s : State}

/-! ### Named values and absent parts as bytes (R173 points 2, 3 and 5) -/

theorem congr_append {a b c d : List Byte} (h : a = b) (h' : c = d) : a ++ c = b ++ d := h ▸ h' ▸ rfl

theorem flag_mark (b : Bool) : flag b = [if b = true then (1 : Byte) else 0] := by cases b <;> rfl

theorem flag_marks (l : List Byte) (a b : Bool) :
    l ++ flag a ++ flag b = l ++ [if a = true then (1 : Byte) else 0, if b = true then 1 else 0] := by
  rw [flag_mark, flag_mark, List.append_assoc]
  rfl

theorem opt16_number (n : Option Nat) : opt16 n = match n with | some n => [1] ++ u16 n | none => [0, 0, 0] := by
  cases n <;> rfl

theorem optS16_value (v : Option Int) : optS16 v = match v with | some v => [1] ++ s16 v | none => [0, 0, 0] := by
  cases v <;> rfl

theorem u8_opState (x : OpState) : u8 x.code = [match x with | .loading => (0 : Byte) | .config => 1 | .run => 2] := by
  cases x <;> rfl

theorem u8_cause (x : ResetCause) : u8 x.code = [match x with | .power => (0 : Byte) | .pin => 1 | .soft => 2] := by
  cases x <;> rfl

theorem u8_reason (x : JoinReason) : u8 x.code = [match x with | .start => (0 : Byte) | .value => 1 | .refresh => 2] := by
  cases x <;> rfl

theorem u8_guard (x : GuardLevel) : u8 x.code = [match x with | .normal => (0 : Byte) | .warm => 1 | .critical => 2] := by
  cases x <;> rfl

theorem u8_bank (x : BankState) :
    u8 x.code = [match x with | .idle => (0 : Byte) | .activating => 1 | .active => 2 | .closing => 3] := by
  cases x <;> rfl

theorem u8_engine (x : EngineState) :
    u8 x.code = [match x with | .free => (0 : Byte) | .pending => 1 | .running => 2] := by
  cases x <;> rfl

theorem u8_kind (x : BracketKind) :
    u8 (BracketKind.code x) = [match x with | .openKind => (0 : Byte) | .countedKind => 1] := by
  cases x <;> rfl

theorem u8_node (x : NodeState) :
    u8 x.code = [match x with | .unknown => (0 : Byte) | .online => 1 | .silent => 2 | .offline => 3] := by
  cases x <;> rfl

theorem u8_quality (x : Quality) : u8 x.code =
    [match x with | .never => (0 : Byte) | .good => 1 | .suspect => 2 | .fault => 3 | .stale => 4] := by
  cases x <;> rfl

theorem u8_watch (x : WatchState) : u8 x.code =
    [match x with | .idle => (0 : Byte) | .qualifying => 1 | .tripped => 2 | .releasing => 3 | .latched => 4] := by
  cases x <;> rfl

theorem u8_fog (x : FogState) :
    u8 x.code = [match x with | .unknown => (0 : Byte) | .clear => 1 | .watch => 2 | .risk => 3] := by
  cases x <;> rfl

theorem u8_dehumid (x : DehumidState) :
    u8 x.code = [match x with | .off => (0 : Byte) | .running => 1 | .resting => 2] := by
  cases x <;> rfl

theorem sinkKind_byte (x : SinkKind) : x.byte = match x with
    | .unused => (0 : Byte) | .zones => 1 | .dehumid => 2 | .proportional => 3 | .fixed => 4 | .unlisted byte => byte := by
  cases x <;> rfl

/-! ### READ_STATUS (R166) -/

/-- R174: the image status. -/
theorem ImageStatus.bytes_spelled (x : ImageStatus) : x.bytes = match x with
    | .notLoaded => [0, 0, 0, 0, 0, 0, 0, 0]
    | .valid => [1, 0, 0, 0, 0, 0, 0, 0]
    | .invalid .noSignature => [2, 1, 0, 0, 0, 0, 0, 0]
    | .invalid .format => [2, 1, 1, 0, 0, 0, 0, 0]
    | .invalid .length => [2, 1, 2, 0, 0, 0, 0, 0]
    | .invalid .check => [2, 1, 3, 0, 0, 0, 0, 0]
    | .invalid (.validation id entry) => [2, 1, 4, 1] ++ u8 id.code ++ [1] ++ u16 entry := by
  cases x with
  | invalid reason => cases reason <;> rfl
  | notLoaded | valid => rfl

/-- R168: ATTN as a flag. -/
theorem flag_attn (s : State) : flag s.attn = [if s.trunk.flags &&& s.tables.enables = 0#16 then (0 : Byte) else 1] := by
  rw [flag_mark, State.attn]
  by_cases clear : s.trunk.flags &&& s.tables.enables = 0#16 <;> simp [clear]

theorem UrgentEntry.bytes_spelled (e : UrgentEntry) : e.bytes = u16 e.address ++
    [match e.reason with | .start => (0 : Byte) | .value => 1 | .refresh => 2] :=
  congr_append rfl (u8_reason _)

/-- R166 item 6: the banks in ascending number, each with its engine. -/
theorem State.bankStates_spelled (s : State) : s.bankStates = (List.range 4).flatMap fun b =>
    [match (s.bank b).state with | .idle => (0 : Byte) | .activating => 1 | .active => 2 | .closing => 3,
      match (s.engine b).state with | .free => (0 : Byte) | .pending => 1 | .running => 2] := by
  rw [State.bankStates, Tab.list_eq_map, List.flatMap_map]
  refine List.flatMap_congr fun b hb => ?_
  rw [Tab.get_zip _ _ _ (List.mem_range.1 hb)]
  exact congr_append (u8_bank _) (u8_engine _)

/-- R157: the bracket state. -/
theorem BracketState.bytes_spelled (x : BracketState) :
    let number := fun n : Option Nat => match n with | some n => [1] ++ u16 n | none => [0, 0, 0]
    x.bytes = match x with
      | .idle => [0] ++ number none ++ number none ++ number none ++ number none
      | .opened d => [1] ++ number (some d) ++ number none ++ number none ++ number none
      | .counted n k => [2] ++ number none ++ number (some n) ++ number (some k) ++ number none
      | .aborted r => [3] ++ number none ++ number none ++ number none ++ number (some r) := by
  cases x <;> rfl

/-- R157: the kind, the strict flag and the notify flag. -/
theorem bracketMarks_spelled (l : List Byte) (kind : BracketKind) (strict notify : Bool) :
    l ++ u8 (BracketKind.code kind) ++ flag strict ++ flag notify =
      l ++ [match kind with | .openKind => (0 : Byte) | .countedKind => 1, if strict = true then 1 else 0,
        if notify = true then 1 else 0] := by
  rw [u8_kind, flag_mark, flag_mark, List.append_assoc, List.append_assoc]
  rfl

theorem exec_readStatus (h : s.receives) (tag : Byte) :
    exec (.readStatus tag) s = .next (s.goodFrame.place tag 0x02 .done s.goodFrame.statusBytes) :=
  congrArg Host.Outcome.next (State.passRequest_answers h (serve := serveStatus) rfl tag codeReadStatus)

/-! ### READ_TABLE (R119, R161) -/

section readTable
variable {tag table : Byte} {first count : Word16}

theorem exec_readTable (h : s.serves) {a : Answer}
    (answered : s.goodFrame.readTable tag table first count = (s.goodFrame, some a)) :
    exec (.readTable tag table first count) s = .next (s.goodFrame.place tag 0x03 a.result a.data) :=
  congrArg Host.Outcome.next (State.request_answers h answered tag codeReadTable)

theorem State.readTable_unknown (unknown : TableId.ofCode table.toNat = none) :
    s.readTable tag table first count = (s, some (.plain .badRequest)) := by
  rw [State.readTable, unknown]

section run
variable {id : TableId} (known : TableId.ofCode table.toNat = some id) (other : id ≠ .scenes)
include known other

theorem State.readTable_outside (outside : runInTable id first.toNat count.toNat = false) :
    s.readTable tag table first count = (s, some (.badEntry none)) := by
  simp [State.readTable, known, other, outside]

theorem State.readTable_inside (inside : runInTable id first.toNat count.toNat = true) :
    s.readTable tag table first count = (s, some ⟨.done, s.readRun id first.toNat count.toNat⟩) := by
  simp [State.readTable, known, other, inside]

end run

section scenes
variable (known : TableId.ofCode table.toNat = some .scenes)
include known

/-- R119: a count that is not 1, or a bank or row out of range. -/
theorem State.readTable_noRow (noRow : ¬ (count.toNat = 1 ∧ first.toNat / 256 < 4 ∧ first.toNat % 256 < 32)) :
    s.readTable tag table first count = (s, some (.badEntry none)) := by
  by_cases one : count.toNat = 1
  · have outside : sceneInRange (sceneBank first) (sceneRow first) = false :=
      Bool.eq_false_iff.2 fun inside => by
        rw [sceneInRange, Bool.and_eq_true, decide_eq_true_iff, decide_eq_true_iff] at inside
        exact noRow ⟨one, inside⟩
    simp [State.readTable, known, one, State.readRow, outside]
  · simp [State.readTable, known, one]

theorem State.readTable_barred (row : count.toNat = 1 ∧ first.toNat / 256 < 4 ∧ first.toNat % 256 < 32)
    (barred : s.longBarred = true) : s.readTable tag table first count = (s, some (.plain .busy)) := by
  obtain ⟨one, bank, row⟩ := row
  have inside : sceneInRange (sceneBank first) (sceneRow first) = true := by simp [sceneInRange, sceneBank, sceneRow, bank, row]
  simp [State.readTable, known, one, State.readRow, inside, barred]

end scenes

end readTable

theorem runInTable_iff {id : TableId} {first count : Nat} :
    runInTable id first count = true ↔ first < id.entries ∧ (count = 0 ∨ first + count ≤ id.entries) := by
  rw [runInTable, Bool.and_eq_true, decide_eq_true_iff, decide_eq_true_iff, runCount]
  refine and_congr_right fun lt => ?_
  by_cases all : count = 0 <;> simp [all]
  omega

/-! ### As many entries as fit (R161) -/

/-- The entries carried fit, and one more would not. -/
theorem entriesThatFit_greatest (entries : List (List Byte)) : ∀ room : Nat,
    entriesThatFit room entries ≤ entries.length ∧
    ((entries.take (entriesThatFit room entries)).map List.length).sum ≤ room ∧
    (entriesThatFit room entries = entries.length ∨
      room < ((entries.take (entriesThatFit room entries + 1)).map List.length).sum) := by
  induction entries with
  | nil => exact fun room => ⟨Nat.le_refl _, Nat.zero_le _, .inl rfl⟩
  | cons e entries ih =>
    intro room
    by_cases fits : e.length ≤ room
    · obtain ⟨few, inRoom, most⟩ := ih (room - e.length)
      rw [entriesThatFit, if_pos fits]
      refine ⟨Nat.succ_le_succ few, ?_, most.imp (congrArg Nat.succ) fun more => ?_⟩
      · rw [List.take_succ_cons, List.map_cons, List.sum_cons]
        omega
      · rw [List.take_succ_cons, List.map_cons, List.sum_cons]
        omega
    · rw [entriesThatFit, if_neg fits]
      exact ⟨Nat.zero_le _, Nat.zero_le _, .inr (by simpa using fits)⟩

/-- R161: the data of a READ_TABLE reply, with the continuation written out. -/
theorem tableData_eq (id : TableId) (first : Nat) (entries : List (List Byte)) :
    let n := entriesThatFit 1012 entries
    tableData id first entries = u8 id.code ++ u16 first ++ u16 n ++
      (if n < entries.length then [1] ++ u16 (first + n) else [0] ++ u16 0) ++ (entries.take n).flatten := by
  intro n
  show u8 id.code ++ u16 first ++ u16 n ++ flag (decide (n < entries.length)) ++
    u16 (if decide (n < entries.length) = true then first + n else 0) ++ (entries.take n).flatten = _
  by_cases more : n < entries.length <;> simp [more, flag]

/-! ### The read-only tables (R3, R14, R37, R60, R80, R99, R112, R126, R141) -/

section entries
variable (s : State) (i : Nat)

theorem State.tableEntry_stored {id : TableId} (h : id ∈ TableId.stored) : s.tableEntry id i = s.tables.entry id i := by
  cases id
  case nodes | points | watch | saturation | fogMap | sinkMap | zoneMap | channels | schedule | thresholds | fogTune
    | sinkTune | dispatch | zoneSet | timers | flagEnables | lightProfile => rfl
  all_goals exact absurd h (by decide)

/-- R37: the capped mark. -/
theorem flag_capped (m : ChannelRec) (r : ChannelRun) : flag (capped m r) =
    [if m.mapped = true ∧ isSet m.heatBearing = true ∧ r.commanded < m.commandedFor .normal r.demand then (1 : Byte)
      else 0] := by
  rw [flag_mark, capped]
  simp only [Bool.and_eq_true, decide_eq_true_iff, and_assoc]

theorem sentQuality_bytes (q : Option Quality) : opt8 (q.map Quality.code) = match q with
    | some q => [1, match q with | .never => (0 : Byte) | .good => 1 | .suspect => 2 | .fault => 3 | .stale => 4]
    | none => [0, 0] := by
  obtain _ | q := q
  · rfl
  · exact congr_append (a := [1]) rfl (u8_quality q)

theorem opt32_seconds (timer : Option Nat) : opt32 (timer.map remainingSeconds) = match timer with
    | some ms => [1] ++ u32 ((ms + 999) / 1000)
    | none => [0, 0, 0, 0, 0] := by
  cases timer <;> rfl

theorem opt16_seconds (timer : Option Nat) : opt16 (timer.map remainingSeconds) =
    match timer.map fun ms => (ms + 999) / 1000 with | some n => [1] ++ u16 n | none => [0, 0, 0] := by
  cases timer <;> rfl

/-- R80: of the two timers of the dehumidifier the one that runs. -/
theorem FogUnit.timer_bytes (f : FogUnit) : opt16 (f.timer.map remainingSeconds) =
    match (match f.runTimer with | some ms => some ms | none => f.restTimer).map fun ms => (ms + 999) / 1000 with
    | some n => [1] ++ u16 n
    | none => [0, 0, 0] := by
  rw [opt16_seconds, FogUnit.timer]
  cases f.runTimer <;> rfl

theorem splitField_spelled (p : Option Split) : splitField p = match p with
    | some p => [1] ++ u16 p.grant ++ u16 p.offeredSum ++ u16 p.residual
    | none => [0, 0, 0, 0, 0, 0, 0] := by
  cases p <;> rfl

/-- R126: an operation at place `j` of the memory port queue. -/
theorem MemOp.bytes_spelled (j : Nat) (op : MemOp) :
    let number := fun n : Option Nat => match n with | some n => [1] ++ u16 n | none => [0, 0, 0]
    op.bytes j = (match op with
      | .activate b r => [0] ++ number (some b) ++ number (some r)
      | .rowWrite _ b r _ => [1] ++ number (some b) ++ number (some r)
      | .rowRead _ b r => [2] ++ number (some b) ++ number (some r)
      | .imageSave _ _ => [3] ++ number none ++ number none) ++ [if j = 0 then (1 : Byte) else 0] := by
  intro number
  refine congr_append ?_ ((flag_mark _).trans (by simp only [beq_iff_eq]))
  cases op <;> rfl

/-- R126: the memory port queue, place by place. -/
theorem queueBytes_spelled (q : List MemOp) :
    let number := fun n : Option Nat => match n with | some n => [1] ++ u16 n | none => [0, 0, 0]
    queueBytes q = u8 q.length ++ (List.range q.length).flatMap fun j => (match q[j]? with
      | some (.activate b r) => [0] ++ number (some b) ++ number (some r)
      | some (.rowWrite _ b r _) => [1] ++ number (some b) ++ number (some r)
      | some (.rowRead _ b r) => [2] ++ number (some b) ++ number (some r)
      | some (.imageSave _ _) => [3] ++ number none ++ number none
      | none => []) ++ [if j = 0 then (1 : Byte) else 0] := by
  intro number
  refine congr_append rfl ?_
  rw [List.flatMap_def]
  refine congrArg List.flatten (List.ext_getElem? fun j => ?_)
  rw [getElem?_mapFrom, List.getElem?_map]
  by_cases lt : j < q.length
  · have at_ := List.getElem?_eq_getElem lt
    rw [List.getElem?_range lt, at_, Nat.zero_add]
    refine congrArg some ((MemOp.bytes_spelled j q[j]).trans ?_)
    dsimp only
    rw [at_]
    cases q[j] <;> rfl
  · simp [lt]

end entries

/-- Settles O11: READ_STATUS item by item, READ_TABLE check by check, the run carried, and the read-only tables. -/
theorem readsAnswered : Obligations.ReadsAnswered := by
  refine ⟨?status, fun tag table first count s h => ⟨fun unknown => ?unknown, fun id known other =>
      ⟨fun outside => ?outside, fun inside => ?inside⟩, fun known => ?scenes⟩,
    fun id first count => runInTable_iff, rfl, fun s id first count => ?run, ?tables, ?units⟩
  case status =>
    intro tag s h mark number image item1 item2 item3 item4 item5 item6 b item7 c item8
    rw [exec_readStatus h]
    refine congrArg (fun data => Host.Outcome.next (State.place _ tag 0x02 .done data)) ?_
    refine congr_append (congr_append (congr_append (congr_append (congr_append (congr_append (congr_append
      ?item1 ?item2) ?item3) ?item4) ?item5) ?item6) ?item7) rfl
    case item1 => exact congr_append (congr_append (u8_opState _) (ImageStatus.bytes_spelled _)) (u8_cause _)
    case item2 => exact congr_append rfl (flag_attn s)
    case item3 => exact congr_append rfl (List.flatMap_congr fun e _ => e.bytes_spelled)
    case item4 => exact u8_guard _
    case item5 => exact congr_append rfl (flag_mark _)
    case item6 => exact congr_append s.bankStates_spelled rfl
    case item7 =>
      exact congr_append (congr_append (congr_append ((bracketMarks_spelled ..).trans
        (congr_append b.state.bytes_spelled rfl)) rfl) rfl) (opt16_seconds b.timer)
  case unknown => exact exec_readTable h (State.readTable_unknown unknown)
  case outside => exact exec_readTable h (State.readTable_outside known other outside)
  case inside => exact exec_readTable h (State.readTable_inside known other inside)
  case scenes =>
    exact ⟨fun noRow => exec_readTable h (State.readTable_noRow known noRow),
      fun row barred => exec_readTable h (State.readTable_barred (s := s.goodFrame) known row barred)⟩
  case run =>
    intro entries taken
    obtain ⟨few, fits, most⟩ := entriesThatFit_greatest entries 1012
    exact ⟨_, few, fits, most, tableData_eq id first entries⟩
  case tables =>
    intro s i node point map ch zone quality value
    refine ⟨fun id h => s.tableEntry_stored i h, ?_, ?_, ?_, fun lt => ?_⟩
    · exact congr_append (congr_append (congr_append (u8_node _) rfl) rfl) (flag_mark _)
    · exact congr_append (congr_append (congr_append (congr_append (optS16_value _) (u8_quality _)) rfl) (optS16_value _))
        (sentQuality_bytes _)
    · exact congr_append rfl (flag_capped map ch)
    · refine (if_pos lt).trans (congr_append (congr_append (congr_append (congr_append (congr_append (congr_append
        (congr_append (congr_append ?_ rfl) rfl) rfl) rfl) rfl) rfl) rfl) (flag_mark _))
      exact congr_append (flag_mark _) (flag_mark _)
  case units =>
    intro s i mark number value seconds w st r k e
    refine ⟨u8_guard _, ?watch, fun lt => ?station, ?dehumid, ?available, fun lt => ?sink, ?trigger, ?split, fun lt => ?bank,
      fun lt => ?engine, queueBytes_spelled _, fun none_ => ?noRecord, fun a some_ => ?record, fun h tag => ?info⟩
    case watch =>
      exact congr_append (congr_append (congr_append (congr_append (congr_append (flag_mark _) (u8_watch _)) (flag_mark _))
        rfl) (opt32_seconds w.timer)) (flag_mark _)
    case station =>
      refine (if_pos lt).trans (congr_append ((flag_marks ..).trans (congr_append (congr_append (congr_append ?_
        (optS16_value _)) (optS16_value _)) rfl)) rfl)
      exact congr_append (flag_mark _) (u8_fog _)
    case dehumid =>
      exact congr_append (congr_append (congr_append (congr_append (u8_dehumid _) s.fog.timer_bytes) (flag_mark _)) rfl)
        (flag_mark _)
    case available => exact congr_append (congr_append rfl (flag_mark _)) rfl
    case sink =>
      refine (if_pos (Nat.succ_lt_succ lt)).trans ?_
      refine congr_append (congr_append (congr_append (congr_append (congr_append ?_ rfl) rfl) rfl) rfl) rfl
      exact congr_append (flag_mark _) (congrArg (fun b => [b]) (sinkKind_byte _))
    case trigger => exact congr_append (opt16_seconds _) rfl
    case split => exact splitField_spelled _
    case bank =>
      exact (if_pos lt).trans (congr_append (congr_append (congr_append (congr_append (congr_append (congr_append
        (congr_append (u8_bank _) (opt16_number _)) rfl) rfl) rfl) (flag_mark _)) (opt16_number _)) (flag_mark _))
    case engine =>
      have report : s.bankReport (i + 4) = e.bytes := by
        rw [State.bankReport, if_neg (by omega), if_pos (by omega), Nat.add_sub_cancel]
      refine report.trans ?_
      exact congr_append (congr_append (congr_append (congr_append (congr_append (congr_append (congr_append
        (u8_engine _) (opt16_number _)) (opt16_number _)) (flag_mark _)) rfl) rfl) (opt16_number _)) rfl
    case noRecord => exact (congrArg recordField none_).trans recordField_none
    case record => exact (congrArg recordField some_).trans (recordField_some a)
    case info => exact congrArg Host.Outcome.next (State.passRequest_answers h (serve := serveInfo) rfl tag codeReadInfo)

end Sys2Proof.Machine
end

section
/-! The entries of the tables of configuration, stored from bytes and read back (R162, R172, R173). -/

namespace Sys2Proof.Machine

open Sys2Proof

/-! ### Numbers and named values (R172, R173 point 2) -/

@[simp] theorem u16_bytes (a b : Byte) : u16 (a.toNat * 256 + b.toNat) = [a, b] := by
  have low : BitVec.ofNat 8 (a.toNat * 256 + b.toNat) = b :=
    BitVec.eq_of_toNat_eq (by rw [BitVec.toNat_ofNat]; omega)
  have high : (a.toNat * 256 + b.toNat) / 256 = a.toNat := by omega
  rw [u16, high, low, BitVec.ofNat_toNat, BitVec.setWidth_eq]

@[simp] theorem u8_byte (a : Byte) : u8 a.toNat = [a] := by rw [u8, BitVec.ofNat_toNat, BitVec.setWidth_eq]

@[simp] theorem u32_bytes (a b c d : Byte) :
    u32 ((a.toNat * 256 + b.toNat) * 65536 + (c.toNat * 256 + d.toNat)) = [a, b, c, d] := by
  have most : ((a.toNat * 256 + b.toNat) * 65536 + (c.toNat * 256 + d.toNat)) / 16777216 = a.toNat := by omega
  have second : BitVec.ofNat 8 (((a.toNat * 256 + b.toNat) * 65536 + (c.toNat * 256 + d.toNat)) / 65536) = b :=
    BitVec.eq_of_toNat_eq (by rw [BitVec.toNat_ofNat]; omega)
  have third : BitVec.ofNat 8 (((a.toNat * 256 + b.toNat) * 65536 + (c.toNat * 256 + d.toNat)) / 256) = c :=
    BitVec.eq_of_toNat_eq (by rw [BitVec.toNat_ofNat]; omega)
  have last : BitVec.ofNat 8 ((a.toNat * 256 + b.toNat) * 65536 + (c.toNat * 256 + d.toNat)) = d :=
    BitVec.eq_of_toNat_eq (by rw [BitVec.toNat_ofNat]; omega)
  rw [u32, most, second, third, last, BitVec.ofNat_toNat, BitVec.setWidth_eq]

@[simp] theorem u16_ofNat (a b : Byte) : u16 (BitVec.ofNat 16 (a.toNat * 256 + b.toNat)).toNat = [a, b] := by
  rw [BitVec.toNat_ofNat, Nat.mod_eq_of_lt (by omega), u16_bytes]

@[simp] theorem s16_bytes (a b : Byte) : s16 (signed (a.toNat * 256 + b.toNat)) = [a, b] := by
  rw [s16, signed, BitVec.ofInt_toInt, u16_ofNat]

@[simp] theorem NodeKind.byte_ofByte (b : Byte) : (NodeKind.ofByte b).byte = b := by
  unfold NodeKind.ofByte
  split_ifs <;> simp_all [NodeKind.byte]

@[simp] theorem UnitKind.byte_ofByte (b : Byte) : (UnitKind.ofByte b).byte = b := by
  unfold UnitKind.ofByte
  split_ifs <;> simp_all [UnitKind.byte]

@[simp] theorem Compare.byte_ofByte (b : Byte) : (Compare.ofByte b).byte = b := by
  unfold Compare.ofByte
  split_ifs <;> simp_all [Compare.byte]

@[simp] theorem WatchMode.byte_ofByte (b : Byte) : (WatchMode.ofByte b).byte = b := by
  unfold WatchMode.ofByte
  split_ifs <;> simp_all [WatchMode.byte]

@[simp] theorem EdgeSelect.byte_ofByte (b : Byte) : (EdgeSelect.ofByte b).byte = b := by
  unfold EdgeSelect.ofByte
  split_ifs <;> simp_all [EdgeSelect.byte]

@[simp] theorem Severity.byte_ofByte (b : Byte) : (Severity.ofByte b).byte = b := by
  unfold Severity.ofByte
  split_ifs <;> simp_all [Severity.byte]

@[simp] theorem StalePolicy.byte_ofByte (b : Byte) : (StalePolicy.ofByte b).byte = b := by
  unfold StalePolicy.ofByte
  split_ifs <;> simp_all [StalePolicy.byte]

@[simp] theorem Owner.byte_ofByte (b : Byte) : (Owner.ofByte b).byte = b := by
  unfold Owner.ofByte
  split_ifs <;> simp_all [Owner.byte]

@[simp] theorem SlotKind.byte_ofByte (b : Byte) : (SlotKind.ofByte b).byte = b := by
  unfold SlotKind.ofByte
  split_ifs <;> simp_all [SlotKind.byte]

@[simp] theorem SinkKind.byte_ofByte (b : Byte) : (SinkKind.ofByte b).byte = b := by
  unfold SinkKind.ofByte
  split_ifs <;> simp_all [SinkKind.byte]

@[simp] theorem Trigger.byte_ofByte (b : Byte) : (Trigger.ofByte b).byte = b := by
  unfold Trigger.ofByte
  split_ifs <;> simp_all [Trigger.byte]

@[simp] theorem Curve.byte_ofByte (b : Byte) : (Curve.ofByte b).byte = b := by
  unfold Curve.ofByte
  split_ifs <;> simp_all [Curve.byte]

/-! ### Fields that may be NONE (R173 point 5) -/

/-- The value bytes behind a presence byte 0 at `o` are 0. -/
def clearAbsent (e : List Byte) (o : Nat) : List Byte := if e.getD o 0 = 0 then (e.set (o + 1) 0).set (o + 2) 0 else e

theorem OptNum.bytes_ofBytes (bs : List Byte) (o : Nat) : (OptNum.ofBytes bs o).bytes =
    if bs.getD o 0 = 0 then [0, 0, 0] else [bs.getD o 0, bs.getD (o + 1) 0, bs.getD (o + 2) 0] := by
  by_cases absent : bs.getD o 0 = 0
  · simp only [OptNum.bytes, OptNum.ofBytes, OptNum.get, absent, if_pos]
    rfl
  · simp only [OptNum.bytes, OptNum.ofBytes, OptNum.get, absent, if_neg, not_false_eq_true, Option.getD_some]
    exact congrArg _ (u16_bytes _ _)

/-! ### Records (R173) -/

/-- Bytes of a known number, one by one. -/
theorem exists_bytes {n : Nat} {bs : List Byte} (h : bs.length = n) : ∃ f : Nat → Byte, bs = (List.range n).map f :=
  ⟨fun i => bs.getD i 0, List.ext_getElem (by simp [h]) fun i hi _ => by simp [hi]⟩

section records
variable {bs : List Byte}

theorem PointRec.bytes_ofBytes (h : bs.length = 14) : (PointRec.ofBytes bs).bytes = bs := by
  obtain ⟨f, rfl⟩ := exists_bytes h
  simp [PointRec.bytes, PointRec.ofBytes, rd16, rd8, rdS16, List.range, List.range.loop]

theorem ChannelRec.bytes_ofBytes (h : bs.length = 16) : (ChannelRec.ofBytes bs).bytes = bs := by
  obtain ⟨f, rfl⟩ := exists_bytes h
  simp [ChannelRec.bytes, ChannelRec.ofBytes, rd16, rd8, List.range, List.range.loop]

theorem ScheduleHead.bytes_ofBytes (h : bs.length = 3) : (ScheduleHead.ofBytes bs).bytes = bs := by
  obtain ⟨f, rfl⟩ := exists_bytes h
  simp [ScheduleHead.bytes, ScheduleHead.ofBytes, rd8, List.range, List.range.loop]

theorem SlotRec.bytes_ofBytes (h : bs.length = 2) : (SlotRec.ofBytes bs).bytes = bs := by
  obtain ⟨f, rfl⟩ := exists_bytes h
  simp [SlotRec.bytes, SlotRec.ofBytes, rd8, List.range, List.range.loop]

theorem DehumidTimes.bytes_ofBytes (h : bs.length = 4) : (DehumidTimes.ofBytes bs).bytes = bs := by
  obtain ⟨f, rfl⟩ := exists_bytes h
  simp [DehumidTimes.bytes, DehumidTimes.ofBytes, rd16, rd8, List.range, List.range.loop]

theorem SinkTuneRec.bytes_ofBytes (h : bs.length = 12) : (SinkTuneRec.ofBytes bs).bytes = bs := by
  obtain ⟨f, rfl⟩ := exists_bytes h
  simp [SinkTuneRec.bytes, SinkTuneRec.ofBytes, rd16, rd8, rdS16, List.range, List.range.loop]

theorem ZoneSetRec.bytes_ofBytes (h : bs.length = 9) : (ZoneSetRec.ofBytes bs).bytes = bs := by
  obtain ⟨f, rfl⟩ := exists_bytes h
  simp [ZoneSetRec.bytes, ZoneSetRec.ofBytes, rd16, rd8, rdS16, List.range, List.range.loop]

theorem TimersRec.bytes_ofBytes (h : bs.length = 4) : (TimersRec.ofBytes bs).bytes = bs := by
  obtain ⟨f, rfl⟩ := exists_bytes h
  simp [TimersRec.bytes, TimersRec.ofBytes, rd16, rd8, List.range, List.range.loop]

theorem ProfileRec.bytes_ofBytes (h : bs.length = 3) : (ProfileRec.ofBytes bs).bytes = bs := by
  obtain ⟨f, rfl⟩ := exists_bytes h
  simp [ProfileRec.bytes, ProfileRec.ofBytes, rd16, rd8, List.range, List.range.loop]

theorem u32_rd32 (h : bs.length = 4) : u32 (rd32 bs 0) = bs := by
  obtain ⟨f, rfl⟩ := exists_bytes h
  simp [rd32, rd16, rd8, List.range, List.range.loop]

theorem s16_rdS16 (h : bs.length = 2) : s16 (rdS16 bs 0) = bs := by
  obtain ⟨f, rfl⟩ := exists_bytes h
  simp [rdS16, rd16, rd8, List.range, List.range.loop]

theorem u16_rd16 (h : bs.length = 2) : u16 (BitVec.ofNat 16 (rd16 bs 0)).toNat = bs := by
  obtain ⟨f, rfl⟩ := exists_bytes h
  simp only [rd16, rd8, u16_ofNat]
  rfl

/-! ### Records with a field that may be NONE -/

theorem WatchRec.bytes_ofBytes (h : bs.length = 28) : (WatchRec.ofBytes bs).bytes = clearAbsent bs 0 := by
  obtain ⟨f, rfl⟩ := exists_bytes h
  by_cases absent : f 0 = 0#8 <;>
    simp [WatchRec.bytes, WatchRec.ofBytes, OptNum.bytes_ofBytes, clearAbsent, absent, rd16, rd8, rd32, List.range,
      List.range.loop]

theorem ZoneMapRec.bytes_ofBytes (h : bs.length = 12) : (ZoneMapRec.ofBytes bs).bytes = clearAbsent bs 0 := by
  obtain ⟨f, rfl⟩ := exists_bytes h
  by_cases absent : f 0 = 0#8 <;>
    simp [ZoneMapRec.bytes, ZoneMapRec.ofBytes, OptNum.bytes_ofBytes, clearAbsent, absent, rd16, rd8, List.range,
      List.range.loop]

theorem SinkMapRec.bytes_ofBytes (h : bs.length = 9) : (SinkMapRec.ofBytes bs).bytes = clearAbsent bs 3 := by
  obtain ⟨f, rfl⟩ := exists_bytes h
  by_cases absent : f 3 = 0#8 <;>
    simp [SinkMapRec.bytes, SinkMapRec.ofBytes, OptNum.bytes_ofBytes, clearAbsent, absent, rd16, rd8, List.range,
      List.range.loop]

theorem FogTuneRec.bytes_ofBytes (h : bs.length = 23) : (FogTuneRec.ofBytes bs).bytes = clearAbsent bs 10 := by
  obtain ⟨f, rfl⟩ := exists_bytes h
  by_cases absent : f 10 = 0#8 <;>
    simp [FogTuneRec.bytes, FogTuneRec.ofBytes, OptNum.bytes_ofBytes, clearAbsent, absent, rd16, rd8, rdS16,
      List.range, List.range.loop, -BitVec.toNat_ofNat]

theorem motor_bytes_ofBytes (h : bs.length = 3) : (OptNum.ofBytes bs 0).bytes = clearAbsent bs 0 := by
  obtain ⟨f, rfl⟩ := exists_bytes h
  by_cases absent : f 0 = 0#8 <;> simp [OptNum.bytes_ofBytes, clearAbsent, absent, List.range, List.range.loop]

theorem FogMapRec.bytes_ofBytes (h : bs.length = 9) :
    (FogMapRec.ofBytes bs).bytes = clearAbsent (clearAbsent (clearAbsent bs 0) 3) 6 := by
  obtain ⟨f, rfl⟩ := exists_bytes h
  by_cases absent : f 0 = 0#8 <;> by_cases absent' : f 3 = 0#8 <;> by_cases absent'' : f 6 = 0#8 <;>
    simp [FogMapRec.bytes, FogMapRec.ofBytes, OptNum.bytes_ofBytes, clearAbsent, absent, absent', absent'', List.range,
      List.range.loop]

theorem DispatchRec.bytes_ofBytes (h : bs.length = 16) :
    (DispatchRec.ofBytes bs).bytes = clearAbsent (clearAbsent (clearAbsent bs 0) 3) 6 := by
  obtain ⟨f, rfl⟩ := exists_bytes h
  by_cases absent : f 0 = 0#8 <;> by_cases absent' : f 3 = 0#8 <;> by_cases absent'' : f 6 = 0#8 <;>
    simp [DispatchRec.bytes, DispatchRec.ofBytes, OptNum.bytes_ofBytes, clearAbsent, absent, absent', absent'', rd16,
      rd8, List.range, List.range.loop]

/-! ### NODES (R2) -/

/-- R2: what a record of NODES holds after a write: a silent limit of 0 stands for 3, unless every byte is 0. -/
def withSilent (e : List Byte) : List Byte :=
  if (e.drop 5).take 2 = [0, 0] ∧ e ≠ List.replicate 9 0 then e.take 5 ++ [0, 3] ++ e.drop 7 else e

theorem toNat_eq_zero (b : Byte) : b.toNat = 0 ↔ b = 0#8 := BitVec.toNat_inj (x := b) (y := 0#8)

theorem NodeKind.ofByte_sensor (b : Byte) : NodeKind.ofByte b = .sensor ↔ b = 0 := by
  unfold NodeKind.ofByte
  split_ifs <;> simp_all

/-- The record as written, its silent limit not yet looked at. -/
def NodeRec.written (bs : List Byte) : NodeRec := ⟨rd16 bs 0, .ofByte (bs.getD 2 0), rd16 bs 3, rd16 bs 5, rd16 bs 7⟩

theorem NodeRec.written_present (h : bs.length = 9) : (NodeRec.written bs).present = true ↔ bs ≠ List.replicate 9 0 := by
  obtain ⟨f, rfl⟩ := exists_bytes h
  rw [← not_iff_not, Bool.not_eq_true, not_not, NodeRec.present, Bool.not_eq_false']
  simp [NodeRec.written, rd16, rd8, List.range, List.range.loop, List.replicate, toNat_eq_zero, NodeKind.ofByte_sensor, and_assoc]

theorem NodeRec.written_silent (h : bs.length = 9) : (NodeRec.written bs).silent = 0 ↔ (bs.drop 5).take 2 = [0, 0] := by
  obtain ⟨f, rfl⟩ := exists_bytes h
  simp [NodeRec.written, rd16, rd8, List.range, List.range.loop, toNat_eq_zero]

theorem NodeRec.bytes_ofBytes (h : bs.length = 9) : (NodeRec.ofBytes bs).bytes = withSilent bs := by
  have default_ : NodeRec.ofBytes bs = if (bs.drop 5).take 2 = [0, 0] ∧ bs ≠ List.replicate 9 0 then
      { NodeRec.written bs with silent := 3 } else NodeRec.written bs := by
    refine if_congr ?_ rfl rfl
    rw [Bool.and_eq_true, beq_iff_eq, and_comm]
    exact and_congr (NodeRec.written_silent h) (NodeRec.written_present h)
  rw [default_, withSilent, apply_ite NodeRec.bytes]
  obtain ⟨f, rfl⟩ := exists_bytes h
  have three : u16 3 = [0, 3] := rfl
  congr 1 <;> simp [NodeRec.bytes, NodeRec.written, rd16, rd8, List.range, List.range.loop, three]

end records

end Sys2Proof.Machine
end

section
/-! A run of entries stored (R162): what the entries written then hold, and that no other entry changes. -/

namespace Sys2Proof.Machine

open Sys2Proof

/-! ### One entry stored -/

/-- R162: the tables that are stored entry by entry. -/
def TableId.held (id : TableId) : Prop := id.tableClass = .structural ∨ id.tableClass = .tunable

/-- What entry `i` of a table holds once bytes are stored in it. -/
def TableId.entryStored (id : TableId) (i : Nat) (e : List Byte) : List Byte :=
  if id = .nodes then withSilent e else (id.presenceBytes i).foldl clearAbsent e

section store
variable (t : Tables) {id : TableId} {i : Nat} {e : List Byte}

theorem Tables.entry_store_self (held : id.held) (lt : i < id.entries) (length : e.length = id.entryLength i) :
    (t.store id i e).entry id i = id.entryStored i e := by
  cases id
  case nodes => exact (congrArg NodeRec.bytes (Tab.get_set_self _ _ _ lt)).trans (NodeRec.bytes_ofBytes length)
  case points => exact (congrArg PointRec.bytes (Tab.get_set_self _ _ _ lt)).trans (PointRec.bytes_ofBytes length)
  case watch => exact (congrArg WatchRec.bytes (Tab.get_set_self _ _ _ lt)).trans (WatchRec.bytes_ofBytes length)
  case saturation => exact (congrArg u32 (Tab.get_set_self _ _ _ lt)).trans (u32_rd32 length)
  case sinkMap => exact (congrArg SinkMapRec.bytes (Tab.get_set_self _ _ _ lt)).trans (SinkMapRec.bytes_ofBytes length)
  case zoneMap => exact (congrArg ZoneMapRec.bytes (Tab.get_set_self _ _ _ lt)).trans (ZoneMapRec.bytes_ofBytes length)
  case channels => exact (congrArg ChannelRec.bytes (Tab.get_set_self _ _ _ lt)).trans (ChannelRec.bytes_ofBytes length)
  case thresholds => exact (congrArg s16 (Tab.get_set_self _ _ _ lt)).trans (s16_rdS16 length)
  case sinkTune => exact (congrArg SinkTuneRec.bytes (Tab.get_set_self _ _ _ lt)).trans (SinkTuneRec.bytes_ofBytes length)
  case zoneSet => exact (congrArg ZoneSetRec.bytes (Tab.get_set_self _ _ _ lt)).trans (ZoneSetRec.bytes_ofBytes length)
  case dispatch => exact DispatchRec.bytes_ofBytes length
  case timers => exact TimersRec.bytes_ofBytes length
  case flagEnables => exact u16_rd16 length
  case lightProfile => exact ProfileRec.bytes_ofBytes length
  case fogMap =>
    by_cases station : i < 8
    · have nine : e.length = 9 := length.trans (if_pos station)
      simp [Tables.store, Tables.entry, station, TableId.entryStored, TableId.presenceBytes, FogMapRec.bytes_ofBytes nine]
    · have three : e.length = 3 := length.trans (if_neg station)
      simp [Tables.store, Tables.entry, station, TableId.entryStored, TableId.presenceBytes, motor_bytes_ofBytes three]
  case fogTune =>
    by_cases station : i < 8
    · have long : e.length = 23 := length.trans (if_pos station)
      simp [Tables.store, Tables.entry, station, TableId.entryStored, TableId.presenceBytes, FogTuneRec.bytes_ofBytes long]
    · have four : e.length = 4 := length.trans (if_neg station)
      simp [Tables.store, Tables.entry, station, TableId.entryStored, TableId.presenceBytes, DehumidTimes.bytes_ofBytes four]
  case schedule =>
    by_cases head : i = 0
    · have three : e.length = 3 := length.trans (if_pos head)
      simp [Tables.store, Tables.entry, head, TableId.entryStored, TableId.presenceBytes, ScheduleHead.bytes_ofBytes three]
    · have two : e.length = 2 := length.trans (if_neg head)
      have slot : i - 1 < 128 := by simp only [TableId.entries] at lt; omega
      simp [Tables.store, Tables.entry, head, TableId.entryStored, TableId.presenceBytes, SlotRec.bytes_ofBytes two, slot]
  all_goals obtain no | no := held <;> cases no

theorem Tables.entry_store_ne {j : Nat} (lt : i < id.entries) (lt' : j < id.entries) (ne : i ≠ j) (e : List Byte) :
    (t.store id i e).entry id j = t.entry id j := by
  cases id
  case nodes | points | watch | sinkMap | zoneMap | channels | sinkTune | zoneSet | saturation | thresholds =>
    simp only [Tables.store, Tables.entry, Tab.get_set_ne _ _ _ _ ne]
  case dispatch | timers | flagEnables | lightProfile => simp only [TableId.entries] at lt lt'; omega
  case fogMap | fogTune =>
    simp only [TableId.entries] at lt lt'
    by_cases written : i < 8 <;> by_cases read : j < 8 <;> simp [Tables.store, Tables.entry, written, read, ne]
    omega
  case schedule =>
    have slots : i ≠ 0 → j ≠ 0 → i - 1 ≠ j - 1 := by omega
    by_cases written : i = 0 <;> by_cases read : j = 0 <;> simp [Tables.store, Tables.entry, written, read]
    · omega
    · rw [Tab.get_set_ne _ _ _ _ (slots written read)]
  all_goals rfl

/-- The entries that a store changes are those of its own table: each other table has its own field. -/
theorem Tables.entry_store_table (other : TableId) (j : Nat) (e : List Byte) : (t.store id i e).entry other j =
    if other = id then (t.store id i e).entry id j else t.entry other j := by
  cases id
  case fogMap | fogTune | schedule =>
    rw [Tables.store]
    split <;> cases other <;> rfl
  all_goals cases other <;> rfl

theorem Tables.entry_store_other {other : TableId} (ne : other ≠ id) (j : Nat) (e : List Byte) :
    (t.store id i e).entry other j = t.entry other j := (t.entry_store_table other j e).trans (if_neg ne)

end store

/-! ### The runs of a content -/

theorem TableId.runLength_succ (id : TableId) (i n : Nat) :
    id.runLength i (n + 1) = id.entryLength i + id.runLength (i + 1) n := by
  rw [TableId.runLength, TableId.runLength, List.range_succ_eq_map, List.map_cons, List.sum_cons, List.map_map]
  refine congrArg (id.entryLength i + List.sum ·) (List.map_congr_left fun k _ => ?_)
  exact congrArg id.entryLength (by omega)

theorem splitRuns_fst (len : Nat → Nat) (n : Nat) : ∀ i content,
    (splitRuns len i n content).map Prod.fst = List.range' i n := by
  induction n with
  | zero => exact fun _ _ => rfl
  | succ n ih => exact fun i content => congrArg (i :: ·) (ih (i + 1) _)

/-- A content as long as its entries is put together from the runs. -/
theorem splitRuns_whole (id : TableId) (n : Nat) : ∀ i content, content.length = id.runLength i n →
    ((splitRuns id.entryLength i n content).map Prod.snd).flatten = content ∧
    ∀ k e, (k, e) ∈ splitRuns id.entryLength i n content → e.length = id.entryLength k := by
  induction n with
  | zero =>
    intro i content length
    rw [List.length_eq_zero_iff.1 length]
    exact ⟨rfl, fun k e h => nomatch h⟩
  | succ n ih =>
    intro i content length
    rw [TableId.runLength_succ] at length
    obtain ⟨rest, lengths⟩ := ih (i + 1) (content.drop (id.entryLength i)) (by rw [List.length_drop]; omega)
    refine ⟨?_, fun k e h => ?_⟩
    · rw [splitRuns, List.map_cons, List.flatten_cons, rest, List.take_append_drop]
    · obtain same | other := List.mem_cons.1 h
      · cases same
        rw [List.length_take]
        omega
      · exact lengths k e other

theorem mem_splitRuns_const {len : Nat → Nat} {m : Nat} (const : ∀ i, len i = m) (n : Nat) : ∀ i content k, k < n →
    (i + k, (content.drop (m * k)).take m) ∈ splitRuns len i n content := by
  induction n with
  | zero => exact fun _ _ _ h => absurd h (Nat.not_lt_zero _)
  | succ n ih =>
    intro i content k lt
    rw [splitRuns, const]
    obtain _ | k := k
    · exact List.mem_cons_self
    · have rest := ih (i + 1) (content.drop m) k (Nat.lt_of_succ_lt_succ lt)
      rw [List.drop_drop, Nat.add_assoc, Nat.add_comm 1, Nat.add_comm m, ← Nat.mul_succ] at rest
      exact List.mem_cons_of_mem _ rest

/-! ### A run stored -/

section run
variable {id : TableId} (held : id.held)
include held

/-- The entries named in a list of runs, each once, hold what was stored, and no other changes. -/
theorem Tables.entry_stores (l : List (Nat × List Byte)) : ∀ t : Tables, (l.map Prod.fst).Nodup →
    (∀ k e, (k, e) ∈ l → k < id.entries ∧ e.length = id.entryLength k) →
    (∀ k e, (k, e) ∈ l → (l.foldl (fun t e => t.store id e.1 e.2) t).entry id k = id.entryStored k e) ∧
    (∀ k, k < id.entries → k ∉ l.map Prod.fst → (l.foldl (fun t e => t.store id e.1 e.2) t).entry id k = t.entry id k) ∧
    (∀ other, other ≠ id → ∀ k, (l.foldl (fun t e => t.store id e.1 e.2) t).entry other k = t.entry other k) := by
  induction l with
  | nil => exact fun t _ _ => ⟨fun k e h => (nomatch h), fun _ _ _ => rfl, fun _ _ _ => rfl⟩
  | cons first l ih =>
    intro t once fits
    obtain ⟨i, bytes⟩ := first
    obtain ⟨lt, length⟩ := fits i bytes List.mem_cons_self
    obtain ⟨fresh, once⟩ := List.nodup_cons.1 once
    obtain ⟨written, kept, others⟩ := ih (t.store id i bytes) once fun k e h => fits k e (List.mem_cons_of_mem _ h)
    refine ⟨fun k e h => ?_, fun k lt' h => ?_, fun other ne k => ?_⟩
    · obtain same | later := List.mem_cons.1 h
      · cases same
        exact (kept i lt fresh).trans (t.entry_store_self held lt length)
      · exact written k e later
    · obtain ⟨ne, later⟩ := not_or.1 (mt List.mem_cons.2 h)
      exact (kept k lt' later).trans (t.entry_store_ne lt lt' (Ne.symm ne) bytes)
    · exact (others other ne k).trans (t.entry_store_other ne k bytes)

variable {first n : Nat} {content : List Byte} (inside : first + n ≤ id.entries)
  (length : content.length = id.runLength first n)
include inside length

theorem Tables.entry_storeRun (t : Tables) :
    (∀ k e, (k, e) ∈ splitRuns id.entryLength first n content →
      (t.storeRun id first n content).entry id k = id.entryStored k e) ∧
    (∀ k, k < id.entries → (k < first ∨ first + n ≤ k) →
      (t.storeRun id first n content).entry id k = t.entry id k) ∧
    (∀ other, other ≠ id → ∀ k, (t.storeRun id first n content).entry other k = t.entry other k) := by
  have numbers := splitRuns_fst id.entryLength n first content
  obtain ⟨-, lengths⟩ := splitRuns_whole id n first content length
  obtain ⟨written, kept, others⟩ := Tables.entry_stores held (splitRuns id.entryLength first n content) t
    (by rw [numbers]; exact List.nodup_range') fun k e h => by
      have number := List.mem_map_of_mem (f := Prod.fst) h
      rw [numbers, List.mem_range'_1] at number
      exact ⟨by dsimp only at number; omega, lengths k e h⟩
  refine ⟨written, fun k lt apart => kept k lt ?_, others⟩
  rw [numbers, List.mem_range'_1]
  omega

end run

/-- A run of one entry, as its store. -/
theorem Tables.storeRun_one (t : Tables) (id : TableId) (i : Nat) {e : List Byte} (length : e.length = id.entryLength i) :
    t.storeRun id i 1 e = t.store id i e := by
  show t.store id i (e.take (id.entryLength i)) = _
  rw [← length, List.take_length]

end Sys2Proof.Machine
end

section
/-! WRITE_TABLE (R118, R162): the content of a scene row, the refusals, and the run values of what is written in CONFIG. -/

namespace Sys2Proof

/-- The first place of which `p` holds. -/
theorem firstFrom_eq_some {α : Type} {p : Nat → α → Bool} {l : List α} : ∀ {k i : Nat} {a : α}, l[i]? = some a →
    p (k + i) a = true → (∀ j b, j < i → l[j]? = some b → p (k + j) b = false) → firstFrom p k l = some (k + i) := by
  induction l with
  | nil => exact fun h => by cases h
  | cons x l ih =>
    intro k i a at_ holds earlier
    obtain _ | i := i
    · cases at_
      exact if_pos holds
    · have front : p k x = false := earlier 0 x (Nat.succ_pos i) rfl
      rw [firstFrom, front, if_neg Bool.false_ne_true, ih at_ (by rwa [Nat.add_right_comm]) fun j b lt at_ => by
        rw [Nat.add_right_comm]
        exact earlier (j + 1) b (Nat.succ_lt_succ lt) at_, Nat.add_right_comm]
      rfl

theorem firstFrom_eq_none {α : Type} {p : Nat → α → Bool} {l : List α} : ∀ {k : Nat},
    (∀ j b, l[j]? = some b → p (k + j) b = false) → firstFrom p k l = none := by
  induction l with
  | nil => exact fun _ => rfl
  | cons x l ih =>
    intro k none_
    have front : p k x = false := none_ 0 x rfl
    rw [firstFrom, front, if_neg Bool.false_ne_true]
    exact ih fun j b at_ => by
      rw [Nat.add_right_comm]
      exact none_ (j + 1) b at_

end Sys2Proof

namespace Sys2Proof.Machine

open Sys2Proof

/-! ### The pairs of a row (R113) -/

theorem pairsOf_getElem? (n : Nat) : ∀ (bs : List Byte) (i : Nat), (pairsOf n bs)[i]? =
    if i < n then some (rd16 bs (4 * i), rd16 bs (4 * i + 2)) else none := by
  induction n with
  | zero => exact fun _ _ => rfl
  | succ n ih =>
    intro bs i
    obtain _ | i := i
    · rfl
    · have shifted (o : Nat) : rd16 (bs.drop 4) o = rd16 bs (4 + o) := by
        simp [rd16, rd8, List.getD_eq_getElem?_getD, Nat.add_assoc]
      rw [pairsOf, List.getElem?_cons_succ, ih, shifted, shifted]
      simp only [Nat.succ_lt_succ_iff, Nat.mul_succ, Nat.add_comm 4, Nat.add_right_comm _ 2 4]

/-- R113: pair `i` is out of range, or names a channel seen before it. -/
def pairBad (seen : List Nat) (l : List (Nat × Nat)) (i : Nat) : Prop :=
  ∃ p, l[i]? = some p ∧
    (512 ≤ p.1 ∨ 1000 < p.2 ∨ p.1 ∈ seen ∨ ∃ j q, j < i ∧ l[j]? = some q ∧ q.1 = p.1)

theorem pairBad_zero (seen : List Nat) (p : Nat × Nat) (l : List (Nat × Nat)) :
    pairBad seen (p :: l) 0 ↔ ¬ (p.1 < Config.channelCount ∧ p.2 ≤ 1000 ∧ p.1 ∉ seen) := by
  simp only [pairBad, Config.channelCount]
  constructor
  · rintro ⟨_, ⟨⟩, h⟩ ⟨channel, level, fresh⟩
    obtain h | h | h | ⟨j, _, h, _⟩ := h
    · omega
    · omega
    · exact fresh h
    · exact Nat.not_lt_zero j h
  · intro h
    refine ⟨p, rfl, ?_⟩
    by_contra none_
    simp only [not_or, Nat.not_le, Nat.not_lt] at none_
    exact h ⟨none_.1, none_.2.1, none_.2.2.1⟩

theorem pairBad_succ (seen : List Nat) (p : Nat × Nat) (l : List (Nat × Nat)) (i : Nat) :
    pairBad seen (p :: l) (i + 1) ↔ pairBad (p.1 :: seen) l i := by
  have earlier (ch : Nat) : (ch ∈ seen ∨ ∃ j q, j < i + 1 ∧ (p :: l)[j]? = some q ∧ q.1 = ch) ↔
      (ch ∈ p.1 :: seen ∨ ∃ j q, j < i ∧ l[j]? = some q ∧ q.1 = ch) := by
    rw [List.mem_cons, or_assoc, or_left_comm]
    refine or_congr_right ⟨?_, ?_⟩
    · rintro ⟨_ | j, q, lt, at_, same⟩
      · cases at_
        exact .inl same.symm
      · exact .inr ⟨j, q, Nat.lt_of_succ_lt_succ lt, at_, same⟩
    · rintro (rfl | ⟨j, q, lt, at_, same⟩)
      · exact ⟨0, p, Nat.succ_pos i, rfl, rfl⟩
      · exact ⟨j + 1, q, Nat.succ_lt_succ lt, at_, same⟩
  exact exists_congr fun q => and_congr_right fun _ => or_congr_right (or_congr_right (earlier q.1))

theorem badPairFrom_some (l : List (Nat × Nat)) : ∀ (k : Nat) (seen : List Nat) (i : Nat), pairBad seen l i →
    (∀ j, j < i → ¬ pairBad seen l j) → badPairFrom k seen l = some (k + i) := by
  induction l with
  | nil => rintro _ _ _ ⟨_, ⟨⟩, _⟩
  | cons p l ih =>
    intro k seen i bad earlier
    obtain _ | i := i
    · exact if_neg ((pairBad_zero seen p l).1 bad)
    · have good := not_not.1 (mt (pairBad_zero seen p l).2 (earlier 0 (Nat.succ_pos i)))
      refine (if_pos good).trans ((ih (k + 1) (p.1 :: seen) i ((pairBad_succ ..).1 bad) fun j lt bad' =>
        earlier (j + 1) (Nat.succ_lt_succ lt) ((pairBad_succ ..).2 bad')).trans ?_)
      rw [Nat.add_right_comm]
      rfl

theorem badPairFrom_none (l : List (Nat × Nat)) : ∀ (k : Nat) (seen : List Nat), (∀ i, ¬ pairBad seen l i) →
    badPairFrom k seen l = none := by
  induction l with
  | nil => exact fun _ _ _ => rfl
  | cons p l ih =>
    intro k seen none_
    exact (if_pos (not_not.1 (mt (pairBad_zero seen p l).2 (none_ 0)))).trans
      (ih (k + 1) (p.1 :: seen) fun i bad => none_ (i + 1) ((pairBad_succ ..).2 bad))

/-! ### The content of a row refused (R118 checks 3 and 4) -/

section content
variable (content : List Byte)

/-- R173 point 7: the content is as long as its channel count asks for. -/
def contentWhole (content : List Byte) : Prop := content.length = 4 * (content.getD 0 0).toNat + 3

theorem SceneRow.ofBytes_whole {content : List Byte} (whole : contentWhole content) : SceneRow.ofBytes content =
    some ⟨(content.getD 0 0).toNat, pairsOf (content.getD 0 0).toNat content.tail,
      rd16 content (1 + 4 * (content.getD 0 0).toNat)⟩ := by
  obtain _ | ⟨c, rest⟩ := content
  · cases whole
  · refine (if_pos (Nat.succ_inj.1 whole)).trans ?_
    rw [Nat.add_comm 1]
    rfl

theorem SceneRow.ofBytes_ragged {content : List Byte} (ragged : ¬ contentWhole content) :
    SceneRow.ofBytes content = none := by
  obtain _ | ⟨c, rest⟩ := content
  · rfl
  · exact if_neg (mt (congrArg Nat.succ) ragged)

theorem Tables.rowRefusal_ragged (t : Tables) {content : List Byte} (ragged : ¬ contentWhole content) :
    t.rowRefusal content = some (.badEntry none) := by
  rw [Tables.rowRefusal, SceneRow.ofBytes_ragged ragged]

theorem rd16_tail (bs : List Byte) (o : Nat) : rd16 bs.tail o = rd16 bs (1 + o) := by
  rw [Nat.add_comm]
  cases bs <;> rfl

/-- The pairs that the content counts. -/
def contentPairs (content : List Byte) : List (Nat × Nat) := pairsOf (content.getD 0 0).toNat content.tail

theorem contentPairs_getElem? (i : Nat) : (contentPairs content)[i]? = if i < (content.getD 0 0).toNat then
    some (rd16 content (1 + 4 * i), rd16 content (3 + 4 * i)) else none := by
  rw [contentPairs, pairsOf_getElem?, rd16_tail, rd16_tail, Nat.add_comm (4 * i), ← Nat.add_assoc]

/-- R113: pair `i` of the content is out of range, or names the channel of an earlier one. -/
def contentPairBad (content : List Byte) (i : Nat) : Prop :=
  512 ≤ rd16 content (1 + 4 * i) ∨ 1000 < rd16 content (3 + 4 * i) ∨
    ∃ j, j < i ∧ rd16 content (1 + 4 * j) = rd16 content (1 + 4 * i)

theorem pairBad_contentPairs (i : Nat) : pairBad [] (contentPairs content) i ↔
    i < (content.getD 0 0).toNat ∧ contentPairBad content i := by
  by_cases lt : i < (content.getD 0 0).toNat
  · have at_ : (contentPairs content)[i]? = _ := (contentPairs_getElem? content i).trans (if_pos lt)
    simp only [pairBad, at_, Option.some.injEq, exists_eq_left', lt, true_and, List.not_mem_nil, false_or,
      contentPairBad]
    refine or_congr_right (or_congr_right (exists_congr fun j => ⟨?_, ?_⟩))
    · rintro ⟨q, lt', at_, same⟩
      rw [contentPairs_getElem?, if_pos (lt'.trans lt), Option.some.injEq] at at_
      subst at_
      exact ⟨lt', same⟩
    · rintro ⟨lt', same⟩
      exact ⟨_, lt', (contentPairs_getElem? content j).trans (if_pos (lt'.trans lt)), same⟩
  · have at_ : (contentPairs content)[i]? = none := (contentPairs_getElem? content i).trans (if_neg lt)
    simp only [pairBad, at_, lt, reduceCtorEq, false_and, exists_false]

section whole
variable {content} (t : Tables) (whole : contentWhole content)
include whole

theorem Tables.rowRefusal_whole (few : (content.getD 0 0).toNat ≤ 48) : t.rowRefusal content =
    match badPairFrom 0 [] (contentPairs content) with
    | some i => some (.badEntry (some i))
    | none =>
      if 6000 < rd16 content (1 + 4 * (content.getD 0 0).toNat) then some (.badEntry none)
      else (firstFrom (fun _ p => !t.lightingChannel p.1) 0 (contentPairs content)).map fun i => .badEntry (some i) := by
  rw [Tables.rowRefusal, SceneRow.ofBytes_whole whole]
  exact if_neg (Nat.not_lt.2 few)

theorem Tables.rowRefusal_many (many : 48 < (content.getD 0 0).toNat) :
    t.rowRefusal content = some (.badEntry none) := by
  rw [Tables.rowRefusal, SceneRow.ofBytes_whole whole]
  exact if_pos many

variable (few : (content.getD 0 0).toNat ≤ 48)
include few

theorem Tables.rowRefusal_badPair {i : Nat} (lt : i < (content.getD 0 0).toNat) (bad : contentPairBad content i)
    (earlier : ∀ j, j < i → ¬ contentPairBad content j) : t.rowRefusal content = some (.badEntry (some i)) := by
  have first := badPairFrom_some (contentPairs content) 0 [] i ((pairBad_contentPairs content i).2 ⟨lt, bad⟩)
    fun j lt' bad' => earlier j lt' ((pairBad_contentPairs content j).1 bad').2
  rw [Tables.rowRefusal_whole t whole few, first, Nat.zero_add]

variable (good : ∀ i, i < (content.getD 0 0).toNat → ¬ contentPairBad content i)
include good

theorem Tables.rowRefusal_goodPairs : t.rowRefusal content =
    if 6000 < rd16 content (1 + 4 * (content.getD 0 0).toNat) then some (.badEntry none)
    else (firstFrom (fun _ p => !t.lightingChannel p.1) 0 (contentPairs content)).map fun i => .badEntry (some i) := by
  have none_ := badPairFrom_none (contentPairs content) 0 [] fun i bad =>
    good i ((pairBad_contentPairs content i).1 bad).1 ((pairBad_contentPairs content i).1 bad).2
  rw [Tables.rowRefusal_whole t whole few, none_]

variable (fade : rd16 content (1 + 4 * (content.getD 0 0).toNat) ≤ 6000)
include fade

theorem Tables.rowRefusal_foreign {i : Nat} (lt : i < (content.getD 0 0).toNat)
    (foreign : t.lightingChannel (rd16 content (1 + 4 * i)) = false)
    (earlier : ∀ j, j < i → t.lightingChannel (rd16 content (1 + 4 * j)) = true) :
    t.rowRefusal content = some (.badEntry (some i)) := by
  have first := firstFrom_eq_some (p := fun _ p => !t.lightingChannel p.1) (k := 0)
    ((contentPairs_getElem? content i).trans (if_pos lt)) (by simp [foreign]) fun j b lt' at_ => by
      rw [contentPairs_getElem?, if_pos (lt'.trans lt), Option.some.injEq] at at_
      subst at_
      simp [earlier j lt']
  rw [Tables.rowRefusal_goodPairs t whole few good, if_neg (Nat.not_lt.2 fade), first, Nat.zero_add]
  rfl

theorem Tables.rowRefusal_none
    (own : ∀ i, i < (content.getD 0 0).toNat → t.lightingChannel (rd16 content (1 + 4 * i)) = true) :
    t.rowRefusal content = none := by
  have none_ := firstFrom_eq_none (p := fun _ p => !t.lightingChannel p.1) (l := contentPairs content) (k := 0)
    fun j b at_ => by
      rw [contentPairs_getElem?] at at_
      split_ifs at at_ with lt
      cases at_
      simp [own j lt]
  rw [Tables.rowRefusal_goodPairs t whole few good, if_neg (Nat.not_lt.2 fade), none_]
  rfl

end whole

/-- R113: a channel that LIGHTING does not own. -/
theorem Tables.lightingChannel_iff (t : Tables) (ch : Nat) : t.lightingChannel ch = false ↔
    ((t.channels.get ch).mapped = false ∨ (t.channels.get ch).owner ≠ .lighting) := by
  rw [Tables.lightingChannel, Bool.and_eq_false_iff, beq_eq_false_iff_ne]

end content

/-! ### The refusals (R118, R162) -/

section refused
variable {s : State} {tag table : Byte} {first count : Word16} {content : List Byte}

theorem exec_writeTable (h : s.servesFreely) {t : State} {a : Answer}
    (answered : s.goodFrame.writeTable tag table first count content = (t, some a)) :
    exec (.writeTable tag table first count content) s = .next (t.place tag 0x04 a.result a.data) := by
  refine congrArg Host.Outcome.next (State.request_answers h.1 ?_ tag codeWriteTable)
  rw [restricted_closed (s := s.goodFrame) h.2]
  exact answered

theorem State.writeTable_unknown (unknown : TableId.ofCode table.toNat = none) :
    s.writeTable tag table first count content = (s, some (.plain .badRequest)) := by
  rw [State.writeTable, unknown]

section known
variable {id : TableId} (known : TableId.ofCode table.toNat = some id)
include known

theorem State.writeTable_readOnly (readOnly : id.tableClass = .readOnly) :
    s.writeTable tag table first count content = (s, some (.plain .badRequest)) := by
  simp [State.writeTable, known, readOnly]

variable (writable : id.tableClass ≠ .readOnly)
include writable

theorem State.writeTable_saving (saving : s.saving = true) :
    s.writeTable tag table first count content = (s, some (.plain .busy)) := by
  simp [State.writeTable, known, writable, saving]

variable (idle : s.saving = false)
include idle

section run
variable (other : id ≠ .scenes)
include other

theorem State.writeTable_mismatch (mismatch : runMatches id first.toNat count.toNat content = false) :
    s.writeTable tag table first count content = (s, some (.badEntry none)) := by
  simp [State.writeTable, known, writable, idle, other, mismatch]

variable (fits : runMatches id first.toNat count.toNat content = true)
include fits

theorem State.writeTable_inConfig (config : s.inRun = false) : s.writeTable tag table first count content =
    (((s.storeRun id first.toNat (runCount id first.toNat count.toNat) content).resetWritten id first.toNat
      (runCount id first.toNat count.toNat)), some (.plain .done)) := by
  simp [State.writeTable, known, writable, idle, other, fits, config, State.writeConfig]

theorem State.writeTable_inRun (run : s.inRun = true) : s.writeTable tag table first count content =
    ((s.writeRunning id first.toNat (runCount id first.toNat count.toNat) content).1,
      some (s.writeRunning id first.toNat (runCount id first.toNat count.toNat) content).2) := by
  simp [State.writeTable, known, writable, idle, other, fits, run]

end run

end known

/-- R162 step 5: a structural table is not written in RUN. -/
theorem State.writeRunning_structural (s : State) {id : TableId} (structural : id.tableClass = .structural) (f n : Nat)
    (content : List Byte) : s.writeRunning id f n content = (s, .plain .state) := by
  cases id
  case nodes | points | watch | saturation | fogMap | sinkMap | zoneMap | channels | schedule => rfl
  all_goals cases structural

section scenes
variable (known : TableId.ofCode table.toNat = some .scenes) (idle : s.saving = false)
include known idle

theorem State.writeTable_noRow
    (noRow : count.toNat ≠ 1 ∨ 4 ≤ first.toNat / 256 ∨ 32 ≤ first.toNat % 256) :
    s.writeTable tag table first count content = (s, some (.badEntry none)) := by
  by_cases one : count.toNat = 1
  · have outside : sceneInRange (sceneBank first) (sceneRow first) = false :=
      Bool.eq_false_iff.2 fun inside => by
        rw [sceneInRange, Bool.and_eq_true, decide_eq_true_iff, decide_eq_true_iff] at inside
        simp only [sceneBank, sceneRow] at inside
        omega
    simp [State.writeTable, known, idle, TableId.tableClass, one, State.writeRow, outside]
  · simp [State.writeTable, known, idle, TableId.tableClass, one]

variable (one : count.toNat = 1) (bank : first.toNat / 256 < 4) (row : first.toNat % 256 < 32)
include one bank row

theorem State.writeTable_row : s.writeTable tag table first count content =
    match s.tables.rowRefusal content with
    | some a => (s, some a)
    | none =>
      if s.rowActive (first.toNat / 256) (first.toNat % 256) = true then (s, some (.plain .rowActive))
      else if s.longBarred = true then (s, some (.plain .busy))
      else (s.joinMemory (.rowWrite tag (first.toNat / 256) (first.toNat % 256) content), none) := by
  have inside : sceneInRange (sceneBank first) (sceneRow first) = true := by simp [sceneInRange, sceneBank, sceneRow, bank, row]
  simp only [State.writeTable, known, idle, TableId.tableClass, one, State.writeRow, inside]
  rfl

end scenes

end refused

theorem State.rowActive_iff (s : State) (b r : Nat) : s.rowActive b r = true ↔
    (s.bank b).row = some r ∧ ((s.bank b).state = .activating ∨ (s.bank b).state = .active) := by
  simp [State.rowActive]

end Sys2Proof.Machine
end

section
/-! What WRITE_TABLE stores in CONFIG and what it refuses (R118, R161, R162): the statement O13. -/

namespace Sys2Proof.Machine

open Sys2Proof

/-! ### A write in CONFIG -/

theorem inWrite_iff (first n i : Nat) : inWrite first n i = true ↔ first ≤ i ∧ i < first + n := by
  simp [inWrite]

theorem rewritten_get {α : Type} [Inhabited α] {k : Nat} (first n : Nat) (f : Nat → α) (t : Tab α k) {i : Nat} (lt : i < k) :
    (rewritten first n f t).get i = if first ≤ i ∧ i < first + n then f i else t.get i :=
  (Tab.get_mapIdx _ _ _ lt).trans (if_congr (inWrite_iff first n i) rfl rfl)

theorem exec_writeTable_inConfig {tag table : Byte} {first count : Word16} {content : List Byte} {s : State}
    {id : TableId} (h : s.servesFreely) (config : s.loader.op = .config) (idle : s.saving = false)
    (known : TableId.ofCode table.toNat = some id) (writable : id.tableClass ≠ .readOnly) (other : id ≠ .scenes)
    (fits : runMatches id first.toNat count.toNat content = true) :
    exec (.writeTable tag table first count content) s =
      .next (((s.goodFrame.storeRun id first.toNat (runCount id first.toNat count.toNat) content).resetWritten id
        first.toNat (runCount id first.toNat count.toNat)).place tag 0x04 .done []) :=
  exec_writeTable h (State.writeTable_inConfig known writable idle other fits
    (by rw [State.goodFrame_inRun, State.inRun, config]; rfl))

theorem Tables.channel_stored (t : Tables) {i : Nat} {content : List Byte} (lt : i < 512) (length : content.length = 16) :
    (t.storeRun .channels i 1 content).entry .channels i = content ∧
    (∀ j, j ≠ i → (t.storeRun .channels i 1 content).channels.get j = t.channels.get j) ∧
    { t.storeRun .channels i 1 content with channels := t.channels } = t := by
  rw [t.storeRun_one .channels i length]
  exact ⟨t.entry_store_self (.inl rfl) lt length, fun j ne => Tab.get_set_ne _ _ _ _ ne.symm, rfl⟩

theorem Tables.run_stored (t : Tables) {id : TableId} {first n : Nat} {content : List Byte} (held : id.held)
    (inside : first + n ≤ id.entries) (length : content.length = id.runLength first n) :
    let u := t.storeRun id first n content
    let written := splitRuns id.entryLength first n content
    (id ≠ .nodes → ∀ k e, (k, e) ∈ written → u.entry id k = (id.presenceBytes k).foldl clearAbsent e) ∧
    (written.map Prod.fst = List.range' first n ∧ (written.map Prod.snd).flatten = content ∧
      ∀ k e, (k, e) ∈ written → e.length = id.entryLength k) ∧
    (id = .nodes → ∀ k, k < n → u.entry .nodes (first + k) = withSilent ((content.drop (9 * k)).take 9)) ∧
    (∀ i, i < id.entries → (i < first ∨ first + n ≤ i) → u.entry id i = t.entry id i) ∧
    (∀ other, other ≠ id → ∀ i, u.entry other i = t.entry other i) := by
  obtain ⟨stored, kept, others⟩ := Tables.entry_storeRun held inside length t
  refine ⟨fun ne k e h => (stored k e h).trans (if_neg ne),
    ⟨splitRuns_fst _ n first content, splitRuns_whole id n first content length⟩, ?_, kept, others⟩
  rintro rfl k lt
  exact (stored _ _ (mem_splitRuns_const (m := 9) (fun _ => rfl) n first content k lt)).trans (if_pos rfl)

/-- R3, R14, R25, R43, R65: the run values of the records written. -/
theorem State.resetWritten_spelled (s : State) (first n : Nat) :
    let written := fun i => first ≤ i ∧ i < first + n
    (∃ runs, s.resetWritten .nodes first n = { s with seg := { s.seg with nodes := runs } } ∧
      ∀ i, i < 48 → runs.get i = if written i then ⟨.unknown, 0, 0, false, false⟩ else s.seg.nodes.get i) ∧
    (∃ runs, s.resetWritten .points first n = { s with points := { s.points with runs := runs } } ∧
      ∀ p, p < 256 → runs.get p = if written p then ⟨none, .never, 0, none, none⟩ else s.points.runs.get p) ∧
    (∃ image, s.resetWritten .channels first n = { s with image := image } ∧
      ∀ ch, ch < 512 → image.get ch =
        let r := s.tables.channels.get ch
        if written ch then if r.mapped = true then ⟨r.start, r.commandedFor .normal r.start⟩ else ⟨0, 0⟩
        else s.image.get ch) ∧
    (∃ runs, s.resetWritten .watch first n = { s with watch := { s.watch with runs := runs } } ∧
      ∀ k, k < 32 → runs.get k = ⟨false, .idle, 0, none, !s.tables.chained k⟩) ∧
    (first < 8 → ∃ stations, s.resetWritten .fogMap first n = { s with fog := { s.fog with stations := stations } } ∧
      ∀ i, i < 8 → stations.get i = ⟨.unknown, none, none, false, false, 0, none⟩) ∧
    (8 ≤ first → s.resetWritten .fogMap first n = s) ∧
    (∀ id, id ∉ [TableId.nodes, .points, .channels, .watch, .fogMap] → s.resetWritten id first n = s) := by
  refine ⟨⟨_, rfl, fun _ => rewritten_get _ _ _ _⟩, ⟨_, rfl, fun _ => rewritten_get _ _ _ _⟩, ⟨_, rfl, fun _ => rewritten_get _ _ _ _⟩,
    ⟨_, rfl, fun _ => Tab.get_mapIdx _ _ _⟩, fun station => ⟨_, if_pos station, fun i => Tab.get_replicate i _⟩,
    fun motor => if_neg (Nat.not_lt.2 motor), fun id other => ?_⟩
  cases id
  case nodes | points | channels | watch | fogMap => exact absurd (by decide) other
  all_goals rfl

/-! ### The lengths of a run -/

theorem runMatches_iff (id : TableId) (first count : Nat) (content : List Byte) :
    let n := if count = 0 then id.entries - first else count
    runMatches id first count content = true ↔ first < id.entries ∧ first + n ≤ id.entries ∧
      content.length = ((List.range n).map fun k => id.entryLength (first + k)).sum := by
  rw [runMatches, runInTable, Bool.and_eq_true, Bool.and_eq_true, decide_eq_true_iff, decide_eq_true_iff, beq_iff_eq,
    and_assoc]
  rfl

theorem entryLength_spelled : ∀ e ∈ [(TableId.nodes, 9), (.points, 14), (.watch, 28), (.saturation, 4), (.fogMap, 9),
      (.sinkMap, 9), (.zoneMap, 12), (.channels, 16), (.schedule, 3), (.thresholds, 2), (.fogTune, 23), (.sinkTune, 12),
      (.dispatch, 16), (.zoneSet, 9), (.timers, 4), (.flagEnables, 2), (.lightProfile, 3)], ∀ i, i < e.1.entries →
    e.1.entryLength i = if e.1 = .schedule ∧ 0 < i then 2 else if e.1 = .fogMap ∧ i = 8 then 3
      else if e.1 = .fogTune ∧ i = 8 then 4 else e.2 := by
  simp only [List.forall_mem_cons, List.not_mem_nil, false_imp_iff, implies_true, and_true, reduceCtorEq, false_and,
    if_false, true_and, TableId.entries, TableId.entryLength]
  refine ⟨fun i lt => ?_, fun i lt => ?_, fun i lt => ?_⟩
  all_goals split_ifs <;> omega

/-! ### The refusals -/

/-- R118 checks 3 and 4: each fault of a row's content, and a content without one. -/
theorem Tables.rowRefusal_spelled (t : Tables) (content : List Byte) :
    let n := (content.getD 0 0).toNat
    let channel := fun i => rd16 content (1 + 4 * i)
    let fade := rd16 content (1 + 4 * n)
    let whole := content.length = 4 * n + 3 ∧ n ≤ 48
    let bad := fun i => 512 ≤ channel i ∨ 1000 < rd16 content (3 + 4 * i) ∨ ∃ j, j < i ∧ channel j = channel i
    let foreign := fun i => (t.channels.get (channel i)).mapped = false ∨ (t.channels.get (channel i)).owner ≠ .lighting
    let first := fun (p : Nat → Prop) i => i < n ∧ p i ∧ ∀ j, j < i → ¬ p j
    let refused := fun data => t.rowRefusal content = some ⟨.badEntry, data⟩
    (¬ whole → refused [0, 0, 0]) ∧
    (∀ i, whole → first bad i → refused (1 :: u16 i)) ∧
    (whole → (∀ i, i < n → ¬ bad i) →
      (6000 < fade → refused [0, 0, 0]) ∧
      (∀ i, fade ≤ 6000 → first foreign i → refused (1 :: u16 i)) ∧
      (fade ≤ 6000 → (∀ i, i < n → ¬ foreign i) → t.rowRefusal content = none)) := by
  intro n channel fade whole bad foreign first refused
  have owned {i : Nat} (h : ¬ foreign i) : t.lightingChannel (channel i) = true :=
    Bool.not_eq_false _ ▸ mt (t.lightingChannel_iff _).1 h
  refine ⟨fun not_whole => ?_, fun i whole h => ?_, fun whole good => ⟨fun slow => ?_, fun i quick h => ?_, ?_⟩⟩
  · by_cases long : contentWhole content
    · exact t.rowRefusal_many long (Nat.lt_of_not_le fun few => not_whole ⟨long, few⟩)
    · exact t.rowRefusal_ragged long
  · exact t.rowRefusal_badPair whole.1 whole.2 h.1 h.2.1 h.2.2
  · exact (t.rowRefusal_goodPairs whole.1 whole.2 good).trans (if_pos slow)
  · exact t.rowRefusal_foreign whole.1 whole.2 good quick h.1 ((t.lightingChannel_iff _).2 h.2.1)
      fun j lt => owned (h.2.2 j lt)
  · exact fun quick own => t.rowRefusal_none whole.1 whole.2 good quick fun i lt => owned (own i lt)

section refused
variable {s : State} {tag table : Byte} {first count : Word16} {content : List Byte} (h : s.servesFreely)
include h

/-- R118: the refusals of a scene row. -/
theorem exec_writeTable_row_refused (known : TableId.ofCode table.toNat = some .scenes) (idle : s.saving = false)
    (one : count.toNat = 1) (bank : first.toNat / 256 < 4) (row : first.toNat % 256 < 32) :
    let answers := fun (result : ResultCode) (data : List Byte) =>
      exec (.writeTable tag table first count content) s = .next (s.goodFrame.place tag 0x04 result data)
    (∀ a, s.tables.rowRefusal content = some a → answers a.result a.data) ∧
    (s.tables.rowRefusal content = none →
      (s.rowActive (first.toNat / 256) (first.toNat % 256) = true → answers .rowActive []) ∧
      (¬ s.rowActive (first.toNat / 256) (first.toNat % 256) = true → s.longBarred = true → answers .busy [])) := by
  have served := State.writeTable_row (s := s.goodFrame) (tag := tag) (content := content) known idle one bank row
  rw [State.goodFrame_tables, State.goodFrame_rowActive, State.goodFrame_longBarred] at served
  refine ⟨fun a refusal => exec_writeTable h ?_, fun good => ⟨fun active => exec_writeTable h (a := .plain .rowActive) ?_,
    fun inactive barred => exec_writeTable h (a := .plain .busy) ?_⟩⟩
  · rw [served, refusal]
  · rw [served, good]
    exact if_pos active
  · rw [served, good]
    exact (if_neg inactive).trans (if_pos barred)

/-- R162: the refusals of a WRITE_TABLE, in the order of its checks. -/
theorem exec_writeTable_refused :
    let answers := fun (result : ResultCode) (data : List Byte) =>
      exec (.writeTable tag table first count content) s = .next (s.goodFrame.place tag 0x04 result data)
    let bank := first.toNat / 256
    let row := first.toNat % 256
    (TableId.ofCode table.toNat = none → answers .badRequest []) ∧
    (∀ id, TableId.ofCode table.toNat = some id →
      (id.tableClass = .readOnly → answers .badRequest []) ∧
      (id.tableClass ≠ .readOnly → s.saving = true → answers .busy []) ∧
      (id.tableClass ≠ .readOnly → s.saving = false →
        (id ≠ .scenes → runMatches id first.toNat count.toNat content = false → answers .badEntry [0, 0, 0]) ∧
        (id.tableClass = .structural → s.inRun = true → runMatches id first.toNat count.toNat content = true →
          answers .state []) ∧
        (id = .scenes → count.toNat ≠ 1 ∨ 4 ≤ bank ∨ 32 ≤ row → answers .badEntry [0, 0, 0]) ∧
        (id = .scenes → count.toNat = 1 → bank < 4 → row < 32 →
          (∀ a, s.tables.rowRefusal content = some a → answers a.result a.data) ∧
          (s.tables.rowRefusal content = none →
            (s.rowActive bank row = true → answers .rowActive []) ∧
            (¬ s.rowActive bank row = true → s.longBarred = true → answers .busy []))))) := by
  refine ⟨fun unknown => exec_writeTable h (State.writeTable_unknown unknown), fun id known =>
    ⟨fun readOnly => exec_writeTable h (State.writeTable_readOnly known readOnly),
    fun writable saving => exec_writeTable h (State.writeTable_saving known writable saving),
    fun writable idle => ⟨fun other mismatch =>
      exec_writeTable h (State.writeTable_mismatch known writable idle other mismatch),
    fun structural run fits => exec_writeTable h (a := .plain .state) ?_, ?_, ?_⟩⟩⟩
  · have other : id ≠ .scenes := by rintro rfl; cases structural
    rw [State.writeTable_inRun (s := s.goodFrame) known writable idle other fits run, State.writeRunning_structural _ structural]
  · rintro rfl noRow
    exact exec_writeTable h (State.writeTable_noRow known idle noRow)
  · rintro rfl
    exact exec_writeTable_row_refused h known idle

end refused

/-- Settles O13: a store is followed entry by entry, and each refusal is one outcome of the checks of R118 and R162. -/
theorem writesInConfig : Obligations.WritesInConfig := by
  refine ⟨fun _ _ _ _ _ _ _ h config idle known writable other fits =>
      exec_writeTable_inConfig h config idle known writable other fits,
    fun t _ _ => t.channel_stored, fun t _ _ _ _ => t.run_stored, State.resetWritten_spelled, fun _ _ _ _ _ s h => ?_,
    runMatches_iff, entryLength_spelled, Tables.rowRefusal_spelled⟩
  simp only [← State.rowActive_iff s]
  exact exec_writeTable_refused h

end Sys2Proof.Machine
end

section
/-! The ranges that a tunable table is checked against when it is written (R40, R64, R81, R84, R101, R127, R163), as plain
conditions, and the lowest entry that is out of range. -/

namespace Sys2Proof

section first
variable {α : Type} {n : Nat} [Inhabited α] {t : Tab α n} {p : Nat → α → Bool} {bad : Nat → Prop}
  (iff : ∀ i, bad i ↔ i < n ∧ p i (t.get i) = true)
include iff

theorem Tab.first_of_lowest {i : Nat} (holds : bad i) (lowest : ∀ j, j < i → ¬ bad j) : t.first p = some i := by
  obtain ⟨lt, holds⟩ := (iff i).1 holds
  rw [Tab.first_eq_find?, List.find?_range_eq_some]
  refine ⟨holds, List.mem_range.2 lt, fun j below => ?_⟩
  rw [Bool.not_eq_true']
  exact Bool.eq_false_iff.2 fun earlier => lowest j below ((iff j).2 ⟨below.trans lt, earlier⟩)

theorem Tab.first_of_no (no : ∀ i, ¬ bad i) : t.first p = none := by
  obtain none_ | ⟨i, found⟩ := (t.first p).eq_none_or_eq_some
  · exact none_
  · exact absurd ((iff i).2 (Tab.first_some found)) (no i)

end first

end Sys2Proof

namespace Sys2Proof.Machine

open Sys2Proof

/-- A check that fails where its ranges are not kept. -/
theorem fails_iff {check : Bool} {fits : Prop} (h : check = false ↔ fits) : check = true ↔ ¬ fits := by
  rw [← h, Bool.not_eq_false]

/-! ### One record in range -/

theorem within_iff (lo hi n : Nat) : within lo hi n = true ↔ lo ≤ n ∧ n ≤ hi := by simp [within]

theorem withinInt_iff (lo hi z : Int) : withinInt lo hi z = true ↔ lo ≤ z ∧ z ≤ hi := by simp [withinInt]

theorem twoValued_iff (b : Byte) : twoValued b = true ↔ b = 0 ∨ b = 1 := by simp [twoValued]

theorem TimersRec.outOfRange_iff (r : TimersRec) : r.outOfRange = true ↔
    r.bracketLimit < 1 ∨ 600 < r.bracketLimit ∨ r.silenceLimit < 1 ∨ 60 < r.silenceLimit := by
  simp only [TimersRec.outOfRange, Bool.or_eq_true, Bool.not_eq_true', ← Bool.not_eq_true, within_iff]
  omega

theorem FogTuneRec.outOfRange_iff (r : FogTuneRec) : r.outOfRange = false ↔ r.fits := by
  simp only [FogTuneRec.outOfRange, FogTuneRec.fits, Bool.or_eq_false_iff, Bool.not_eq_false', within_iff, withinInt_iff,
    twoValued_iff, Nat.zero_le, true_and, and_assoc]

theorem DehumidTimes.outOfRange_iff (r : DehumidTimes) : r.outOfRange = false ↔ r.fits := by
  simp only [DehumidTimes.outOfRange, DehumidTimes.fits, Bool.or_eq_false_iff, Bool.not_eq_false', within_iff, and_assoc]

theorem ProfileRec.outOfRange_iff (r : ProfileRec) : r.outOfRange = false ↔ r.fits := by
  simp only [ProfileRec.outOfRange, ProfileRec.fits, Bool.or_eq_false_iff, Bool.not_eq_false', Bool.or_eq_true, beq_iff_eq,
    List.mem_cons, List.not_mem_nil, or_false, or_assoc]

theorem Tables.pointIs_iff (t : Tables) (u : UnitKind) (p : Option Nat) : t.pointIs u p = true ↔ t.pointFits u p := by
  cases p <;> simp [Tables.pointIs, Tables.pointFits, and_assoc]

theorem Tables.dispatchFails_iff (t : Tables) (r : DispatchRec) : t.dispatchFails r = false ↔ t.dispatchFits r := by
  simp only [Tables.dispatchFails, Tables.dispatchFits, Bool.or_eq_false_iff, Bool.not_eq_false', Bool.and_eq_false_imp,
    within_iff, t.pointIs_iff, beq_iff_eq, beq_eq_false_iff_ne, ne_eq, and_assoc]

theorem Tables.sinkTuneFails_iff (t : Tables) (i : Nat) (r : SinkTuneRec) : t.sinkTuneFails i r = true ↔
    t.sinkInUse i = true ∧ ¬ r.fits (t.sinkMap.get i).kind := by
  rw [Tables.sinkTuneFails, Bool.and_eq_true]
  refine and_congr_right fun _ => fails_iff ?_
  simp only [SinkTuneRec.fits, Bool.or_eq_false_iff, Bool.not_eq_false', Bool.and_eq_false_imp, within_iff, withinInt_iff,
    beq_iff_eq, Nat.zero_le, true_and, and_assoc]

theorem Tables.zoneSetFails_iff (t : Tables) (z : Nat) (r : ZoneSetRec) : t.zoneSetFails z r = true ↔
    t.zoneInUse z = true ∧ ¬ r.fits := by
  rw [Tables.zoneSetFails, Bool.and_eq_true]
  refine and_congr_right fun _ => fails_iff ?_
  simp only [ZoneSetRec.fits, Bool.or_eq_false_iff, Bool.not_eq_false', within_iff, withinInt_iff, twoValued_iff,
    Nat.zero_le, true_and, and_assoc]

theorem WatchRec.bandEmpty_iff (r : WatchRec) (thresholds : Tab Int 32) : r.bandEmpty thresholds = true ↔
    r.compare = .outside ∧
      thresholds.get r.highThreshold - r.hysteresis < thresholds.get r.threshold + r.hysteresis := by
  simp [WatchRec.bandEmpty]

/-! ### The fan channel of a station (R24, R64) -/

theorem Tables.mem_motorRefs (t : Tables) (ch : Nat) : ch ∈ t.motorRefs ↔ t.motor.get = some ch := by
  simp [Tables.motorRefs]

theorem Tables.mem_fanRefs (t : Tables) (l : List Nat) (ch : Nat) : ch ∈ t.fanRefs l ↔
    ∃ j ∈ l, t.stationInUse j = true ∧ (t.fogTune.get j).fan.get = some ch := by
  simp [Tables.fanRefs, and_assoc]

theorem Tables.refGood_iff (t : Tables) (owner : Owner) (earlier : List Nat) (ch : Nat) :
    t.refGood owner earlier ch = true ↔ t.refFits owner earlier ch := by
  simp [Tables.refGood, Tables.refFits, and_assoc]

theorem Tables.optRefGood_iff (t : Tables) (owner : Owner) (earlier : List Nat) (ref : Option Nat) :
    t.optRefGood owner earlier ref = true ↔ ∀ ch, ref = some ch → t.refFits owner earlier ch := by
  cases ref <;> simp [Tables.optRefGood, t.refGood_iff]

/-- R64: the fan channels named before that of station `i` of a write: the motor's, those of the stations not written,
and those of the lower stations written. -/
theorem Tables.mem_earlierFans (t : Tables) (written : Nat → Bool) {i : Nat} (lt : i < 8) (here : written i = true) (ch : Nat) :
    ch ∈ t.motorRefs ++ t.fanRefs ((List.range 8).filter fun j => !written j) ++
        t.fanRefs ((List.range i).filter written) ↔
      t.motor.get = some ch ∨ ∃ j, j < 8 ∧ j ≠ i ∧ t.stationInUse j = true ∧ (written j = true → j < i) ∧
        (t.fogTune.get j).fan.get = some ch := by
  simp only [List.mem_append, Tables.mem_motorRefs, Tables.mem_fanRefs, List.mem_filter, List.mem_range,
    Bool.not_eq_true', or_assoc]
  refine or_congr_right ⟨?_, ?_⟩
  · rintro (⟨j, ⟨below, apart⟩, inUse, names⟩ | ⟨j, ⟨below, -⟩, inUse, names⟩)
    · exact ⟨j, below, fun same => (by rw [same, here] at apart; cases apart), inUse,
        fun both => (by rw [apart] at both; cases both), names⟩
    · exact ⟨j, below.trans lt, below.ne, inUse, fun _ => below, names⟩
  · rintro ⟨j, below, -, inUse, lower, names⟩
    by_cases written_ : written j = true
    · exact .inr ⟨j, ⟨lower written_, written_⟩, inUse, names⟩
    · exact .inl ⟨j, ⟨below, Bool.not_eq_true _ ▸ written_⟩, inUse, names⟩

/-- R64: the tune entry of station `i` is in range, and its fan channel one that it may name. -/
def Tables.stationTuneFits (t : Tables) (written : Nat → Prop) (i : Nat) : Prop :=
  (t.fogTune.get i).fits ∧ ∀ ch, (t.fogTune.get i).fan.get = some ch →
    ch < 512 ∧ (t.channels.get ch).mapped = true ∧ (t.channels.get ch).owner = .fog ∧ t.motor.get ≠ some ch ∧
    ∀ j, j < 8 → j ≠ i → t.stationInUse j = true → (written j → j < i) → (t.fogTune.get j).fan.get ≠ some ch

theorem Tables.tuneFails_iff (t : Tables) (written : Nat → Bool) {i : Nat} (lt : i < 8) (here : written i = true) :
    t.tuneFails (t.motorRefs ++ t.fanRefs ((List.range 8).filter fun j => !written j) ++
        t.fanRefs ((List.range i).filter written)) (t.fogTune.get i) = false ↔
      t.stationTuneFits (written · = true) i := by
  rw [Tables.tuneFails, Bool.or_eq_false_iff, FogTuneRec.outOfRange_iff, Bool.not_eq_false', Tables.optRefGood_iff]
  refine and_congr_right fun _ => forall_congr' fun ch => imp_congr_right fun _ => ?_
  rw [Tables.refFits, t.mem_earlierFans written lt here, not_or]
  refine and_congr_right fun _ => and_congr_right fun _ => and_congr_right fun _ => and_congr_right fun _ => ?_
  simp only [not_exists, not_and, ne_eq]

/-- R64: an entry of a write of FOG_TUNE that is not in range. -/
def Tables.fogTuneBad (t : Tables) (written : Nat → Prop) (i : Nat) : Prop :=
  written i ∧ ((i < 8 ∧ t.stationInUse i = true ∧ ¬ t.stationTuneFits written i) ∨ (i = 8 ∧ ¬ t.dehumid.fits))

section fogTune
variable (t : Tables) (f n : Nat)

/-- The search among the stations and the check of entry 8 after it. -/
theorem Tables.fogTuneWriteFailure_eq : t.fogTuneWriteFailure f n =
    (match t.fogTune.first fun i r => inWrite f n i && t.stationInUse i && t.tuneFails (t.motorRefs ++
        t.fanRefs ((List.range 8).filter fun j => !inWrite f n j) ++ t.fanRefs ((List.range i).filter (inWrite f n))) r with
    | some i => some i
    | none => if inWrite f n 8 && t.dehumid.outOfRange then some 8 else none) := rfl

theorem Tables.stationBad_iff (i : Nat) : (i < 8 ∧ t.fogTuneBad (inWrite f n · = true) i) ↔
    i < 8 ∧ (inWrite f n i && t.stationInUse i && t.tuneFails (t.motorRefs ++
        t.fanRefs ((List.range 8).filter fun j => !inWrite f n j) ++ t.fanRefs ((List.range i).filter (inWrite f n)))
        (t.fogTune.get i)) = true := by
  refine and_congr_right fun lt => ?_
  rw [Tables.fogTuneBad, Bool.and_eq_true, Bool.and_eq_true, and_assoc]
  refine and_congr_right fun here => ?_
  rw [fails_iff (t.tuneFails_iff (inWrite f n) lt here)]
  exact ⟨fun h => (h.resolve_right fun last => absurd last.1 lt.ne).2, fun h => .inl ⟨lt, h⟩⟩

theorem Tables.motorBad_iff : t.fogTuneBad (inWrite f n · = true) 8 ↔ (inWrite f n 8 && t.dehumid.outOfRange) = true := by
  rw [Bool.and_eq_true, fails_iff t.dehumid.outOfRange_iff]
  exact and_congr_right fun _ => ⟨fun h => (h.resolve_left fun station => absurd station.1 (Nat.lt_irrefl 8)).2,
    fun h => .inr ⟨rfl, h⟩⟩

theorem Tables.fogTuneWriteFailure_lowest {i : Nat} (holds : t.fogTuneBad (inWrite f n · = true) i)
    (lowest : ∀ j, j < i → ¬ t.fogTuneBad (inWrite f n · = true) j) : t.fogTuneWriteFailure f n = some i := by
  rw [Tables.fogTuneWriteFailure_eq]
  obtain ⟨lt, -⟩ | ⟨rfl, -⟩ := holds.2
  · rw [Tab.first_of_lowest (t.stationBad_iff f n) ⟨lt, holds⟩ fun j below bad => lowest j below bad.2]
  · rw [Tab.first_of_no (t.stationBad_iff f n) fun j bad => lowest j bad.1 bad.2]
    exact if_pos ((t.motorBad_iff f n).1 holds)

theorem Tables.fogTuneWriteFailure_no (no : ∀ i, ¬ t.fogTuneBad (inWrite f n · = true) i) :
    t.fogTuneWriteFailure f n = none := by
  rw [Tables.fogTuneWriteFailure_eq, Tab.first_of_no (t.stationBad_iff f n) fun j bad => no j bad.2]
  exact if_neg (mt (t.motorBad_iff f n).2 (no 8))

end fogTune

/-! ### Lighting at rest (R127) -/

theorem State.lightingInUse_iff (s : State) : s.lightingInUse = true ↔
    ∃ b, b < 4 ∧ ((s.bank b).state ≠ .idle ∨ (s.engine b).state ≠ .free) := by
  simp only [State.lightingInUse, Bool.or_eq_true, List.any_eq_true, Tab.mem_list, bne_iff_ne, exists_exists_and_eq_and,
    ← exists_or, ← and_or_left, State.bank, State.engine]

end Sys2Proof.Machine
end

section
/-! The tunable tables written in RUN (R40, R56, R64, R75, R82, R84, R101, R127, R162, R163): the statement O14. -/

namespace Sys2Proof.Machine

open Sys2Proof

/-! ### What a run stored leaves as it was -/

/-- A part of the tables that no store of this table changes. -/
theorem Tables.storeRun_keeps {α : Type} (part : Tables → α) {id : TableId}
    (kept : ∀ (t : Tables) (i : Nat) (e : List Byte), part (t.store id i e) = part t) (t : Tables) (f n : Nat)
    (content : List Byte) : part (t.storeRun id f n content) = part t := by
  rw [Tables.storeRun]
  induction splitRuns id.entryLength f n content generalizing t with
  | nil => rfl
  | cons e l ih => exact (ih (t.store id e.1 e.2)).trans (kept t e.1 e.2)

theorem Tables.store_fogTune_keeps {α : Type} (part : Tables → α)
    (station : ∀ (t : Tables) x, part { t with fogTune := x } = part t)
    (motor : ∀ (t : Tables) x, part { t with dehumid := x } = part t) (t : Tables) (i : Nat) (e : List Byte) :
    part (t.store .fogTune i e) = part t := by
  rw [Tables.store]
  split
  · exact station t _
  · exact motor t _

/-! ### Refused at the lowest bad entry, or taken -/

/-- R162 step 7: a write in RUN that is refused at its lowest entry out of range, or takes the part from `s` to `t`. -/
def Takes (answer : State × Answer) (s t : State) (bad : Nat → Prop) : Prop :=
  (∀ i, bad i → (∀ j, j < i → ¬ bad j) → answer = (s, .badEntry (some i))) ∧
  ((∀ i, ¬ bad i) → answer = (t, .plain .done))

section takes
variable {answer : State × Answer} {s t : State}

theorem Takes.of_first {α : Type} [Inhabited α] {m : Nat} {tab : Tab α m} {p : Nat → α → Bool} {bad : Nat → Prop}
    (iff : ∀ i, bad i ↔ i < m ∧ p i (tab.get i) = true)
    (refused : ∀ i, tab.first p = some i → answer = (s, .badEntry (some i)))
    (taken : tab.first p = none → answer = (t, .plain .done)) : Takes answer s t bad :=
  ⟨fun i holds lowest => refused i (Tab.first_of_lowest iff holds lowest), fun no => taken (Tab.first_of_no iff no)⟩

theorem Takes.of_only {c : Prop} (refused : c → answer = (s, .badEntry (some 0)))
    (taken : ¬ c → answer = (t, .plain .done)) : Takes answer s t fun i => i = 0 ∧ c := by
  refine ⟨?_, fun no => taken fun bad => no 0 ⟨rfl, bad⟩⟩
  rintro _ ⟨rfl, bad⟩ -
  exact refused bad

end takes

section exec
variable {s : State} {tag table : Byte} {first count : Word16} {content : List Byte} {id : TableId}
  (h : s.servesFreely) (run : s.inRun = true) (idle : s.saving = false)
  (known : TableId.ofCode table.toNat = some id) (tunable : id.tableClass = .tunable)
include h run idle known tunable

theorem exec_writeTable_inRun {t : State} {a : Answer}
    (answered : s.goodFrame.writeRunning id first.toNat (runCount id first.toNat count.toNat) content = (t, a))
    (fits : runMatches id first.toNat count.toNat content = true) :
    exec (.writeTable tag table first count content) s = .next (t.place tag 0x04 a.result a.data) := by
  have writable : id.tableClass ≠ .readOnly := by simp [tunable]
  have other : id ≠ .scenes := by rintro rfl; cases tunable
  refine exec_writeTable h ?_
  rw [State.writeTable_inRun (s := s.goodFrame) known writable idle other fits run, answered]

theorem exec_writeTable_takes {bad : Nat → Prop} {t : State} (takes : Takes
      (s.goodFrame.writeRunning id first.toNat (runCount id first.toNat count.toNat) content) s.goodFrame t bad)
    (fits : runMatches id first.toNat count.toNat content = true) :
    (∀ i, bad i → (∀ j, j < i → ¬ bad j) →
      exec (.writeTable tag table first count content) s = .next (s.goodFrame.place tag 0x04 .badEntry (1 :: u16 i))) ∧
    ((∀ i, ¬ bad i) → exec (.writeTable tag table first count content) s = .next (t.place tag 0x04 .done [])) :=
  ⟨fun i holds lowest => exec_writeTable_inRun h run idle known tunable (takes.1 i holds lowest) fits,
    fun no => exec_writeTable_inRun h run idle known tunable (takes.2 no) fits⟩

end exec

/-! ### Each table -/

section written
variable (s : State) (f n : Nat) (content : List Byte)

theorem State.writeThresholds_takes :
    Takes (s.writeThresholds f n content) s
      (State.watchThresholds { s with tables := s.tables.storeRun .thresholds f n content } s.tables.thresholds)
      fun k => k < 32 ∧ s.tables.chained k = false ∧ (s.tables.watch.get k).point.given = true ∧
        (s.tables.watch.get k).compare = .outside ∧
        (s.tables.storeRun .thresholds f n content).thresholds.get (s.tables.watch.get k).highThreshold -
            (s.tables.watch.get k).hysteresis <
          (s.tables.storeRun .thresholds f n content).thresholds.get (s.tables.watch.get k).threshold +
            (s.tables.watch.get k).hysteresis := by
  have watch : (s.tables.storeRun .thresholds f n content).watch = s.tables.watch :=
    Tables.storeRun_keeps Tables.watch (fun _ _ _ => rfl) ..
  refine Takes.of_first (tab := (s.tables.storeRun .thresholds f n content).watch) (p := fun k r =>
      !(s.tables.storeRun .thresholds f n content).chained k &&
        (s.tables.storeRun .thresholds f n content).watchInUse k &&
        r.bandEmpty (s.tables.storeRun .thresholds f n content).thresholds) (fun k => ?_)
    (fun k found => ?_) fun none_ => ?_
  · refine and_congr_right fun _ => ?_
    simp only [Tables.watchInUse, Tables.chained, watch, Bool.and_eq_true, Bool.not_eq_true', WatchRec.bandEmpty_iff,
      and_assoc]
    refine and_congr_right fun unchained => ?_
    rw [unchained, Bool.false_or]
  · simp only [State.writeThresholds, State.storeRun, Tables.thresholdFailure, found]
  · simp only [State.writeThresholds, State.storeRun, Tables.thresholdFailure, none_]

/-- The numbers of a run that are in use, in the order of the numbers. -/
theorem filter_inRun (l : List Nat) (inUse : Nat → Bool) :
    ((l.filter inUse).filter fun i => decide (f ≤ i) && decide (i < f + n)) =
      l.filter fun i => inUse i && decide (f ≤ i) && decide (i < f + n) := by
  rw [List.filter_filter]
  exact List.filter_congr fun i _ => by rw [Bool.and_comm, Bool.and_assoc]

theorem State.writeFogTune_takes :
    let stored := s.tables.storeRun .fogTune f n content
    let written := fun i => f ≤ i ∧ i < f + n
    let v : State := { s with tables := stored }
    Takes (s.writeFogTune f n content) s
      (v.asSeries (((List.range 8).filter fun i =>
          s.tables.stationInUse i && decide (f ≤ i) && decide (i < f + n)).foldl
        (fun u i => u.retuneStation i (s.tables.fogTune.get i)) v).publishFog)
      fun i => written i ∧
        ((i < 8 ∧ s.tables.stationInUse i = true ∧ ¬ ((stored.fogTune.get i).fits ∧
          ∀ ch, (stored.fogTune.get i).fan.get = some ch →
            ch < 512 ∧ (s.tables.channels.get ch).mapped = true ∧ (s.tables.channels.get ch).owner = .fog ∧
            s.tables.motor.get ≠ some ch ∧
            ∀ j, j < 8 → j ≠ i → s.tables.stationInUse j = true → (written j → j < i) →
              (stored.fogTune.get j).fan.get ≠ some ch)) ∨
          (i = 8 ∧ ¬ stored.dehumid.fits)) := by
  intro stored written v
  have inUse : stored.stationInUse = s.tables.stationInUse :=
    Tables.storeRun_keeps Tables.stationInUse (Tables.store_fogTune_keeps _ (fun _ _ => rfl) fun _ _ => rfl) ..
  have channels : stored.channels = s.tables.channels :=
    Tables.storeRun_keeps Tables.channels (Tables.store_fogTune_keeps _ (fun _ _ => rfl) fun _ _ => rfl) ..
  have motor : stored.motor = s.tables.motor :=
    Tables.storeRun_keeps Tables.motor (Tables.store_fogTune_keeps _ (fun _ _ => rfl) fun _ _ => rfl) ..
  have numbers : (fun i => inWrite f n i = true) = written := funext fun i => propext (inWrite_iff f n i)
  rw [← inUse, ← channels, ← motor]
  show Takes _ _ _ (stored.fogTuneBad written)
  rw [← numbers, ← filter_inRun]
  refine ⟨fun i holds lowest => ?_, fun no => ?_⟩
  · have found := stored.fogTuneWriteFailure_lowest f n holds lowest
    simp only [State.writeFogTune, State.storeRun, found, stored]
  · have none_ := stored.fogTuneWriteFailure_no f n no
    simp only [State.writeFogTune, State.storeRun, none_, stored]
    rfl

theorem State.writeSinkTune_takes :
    Takes (s.writeSinkTune f n content) s { s with tables := s.tables.storeRun .sinkTune f n content }
      fun i => (f ≤ i ∧ i < f + n) ∧ i < 8 ∧ s.tables.sinkInUse i = true ∧
        ¬ ((s.tables.storeRun .sinkTune f n content).sinkTune.get i).fits (s.tables.sinkMap.get i).kind := by
  have sinks : (s.tables.storeRun .sinkTune f n content).sinkMap = s.tables.sinkMap :=
    Tables.storeRun_keeps Tables.sinkMap (fun _ _ _ => rfl) ..
  have inUse : (s.tables.storeRun .sinkTune f n content).sinkInUse = s.tables.sinkInUse :=
    Tables.storeRun_keeps Tables.sinkInUse (fun _ _ _ => rfl) ..
  refine Takes.of_first (tab := (s.tables.storeRun .sinkTune f n content).sinkTune) (p := fun i r =>
    inWrite f n i && (s.tables.storeRun .sinkTune f n content).sinkTuneFails i r) (fun i => ?_) (fun i found => ?_)
    fun none_ => ?_
  · rw [Bool.and_eq_true, inWrite_iff, Tables.sinkTuneFails_iff, inUse, sinks, and_left_comm]
  · simp only [State.writeSinkTune, State.storeRun, found]
  · simp only [State.writeSinkTune, State.storeRun, none_]

theorem State.writeZoneSet_takes :
    let v : State := { s with tables := s.tables.storeRun .zoneSet f n content }
    Takes (s.writeZoneSet f n content) s
      (v.asSeries (((List.range 16).filter fun z =>
        s.tables.zoneInUse z && decide (f ≤ z) && decide (z < f + n)).foldl State.recomputeZone v))
      fun z => (f ≤ z ∧ z < f + n) ∧ z < 16 ∧ s.tables.zoneInUse z = true ∧
        ¬ ((s.tables.storeRun .zoneSet f n content).zoneSet.get z).fits := by
  intro v
  have zones : v.tables.zoneInUse = s.tables.zoneInUse := Tables.storeRun_keeps Tables.zoneInUse (fun _ _ _ => rfl) ..
  rw [← zones, ← filter_inRun]
  refine Takes.of_first (tab := v.tables.zoneSet) (p := fun z r => inWrite f n z && v.tables.zoneSetFails z r)
    (fun z => ?_) (fun z found => ?_) fun none_ => ?_
  · rw [Bool.and_eq_true, inWrite_iff, Tables.zoneSetFails_iff, and_left_comm]
  · simp only [v] at found
    simp only [State.writeZoneSet, State.storeRun, found]
  · simp only [v] at none_
    simp only [State.writeZoneSet, State.storeRun, none_]
    rfl

theorem DispatchRec.retimed_iff (before now : DispatchRec) : before.retimed now = true ↔
    now.trigger ≠ before.trigger ∨ now.arrivalCount ≠ before.arrivalCount ∨ now.period ≠ before.period := by
  simp only [DispatchRec.retimed, Bool.or_eq_true, bne_iff_ne, or_assoc, ne_comm]

/-- R82: the arrivals and the timer start again where a field that times the passes changed. -/
theorem State.restartDispatch_spelled (s : State) (before : DispatchRec) : s.restartDispatch before =
    { s with heat :=
        if (s.tables.dispatch.trigger ≠ before.trigger ∨ s.tables.dispatch.arrivalCount ≠ before.arrivalCount ∨
            s.tables.dispatch.period ≠ before.period) ∧ s.heatActive = true then
          { s.heat with arrivals := 0, timer := some (1000 * s.tables.dispatch.period) }
        else s.heat } := by
  simp only [State.restartDispatch, DispatchRec.retimed_iff]
  split_ifs <;> rfl

theorem State.writeDispatch_takes :
    let stored := s.tables.storeRun .dispatch f n content
    Takes (s.writeDispatch f n content) s
      { s with
        tables := stored
        heat :=
          if (stored.dispatch.trigger ≠ s.tables.dispatch.trigger ∨
              stored.dispatch.arrivalCount ≠ s.tables.dispatch.arrivalCount ∨
              stored.dispatch.period ≠ s.tables.dispatch.period) ∧ s.heatActive = true then
            { s.heat with arrivals := 0, timer := some (1000 * stored.dispatch.period) }
          else s.heat }
      fun i => i = 0 ∧ ¬ s.tables.dispatchFits stored.dispatch := by
  intro stored
  have points : stored.dispatchFits = s.tables.dispatchFits :=
    Tables.storeRun_keeps Tables.dispatchFits (fun _ _ _ => rfl) ..
  have sinks : stored.sinksInUse = s.tables.sinksInUse := Tables.storeRun_keeps Tables.sinksInUse (fun _ _ _ => rfl) ..
  have active : State.heatActive { s with tables := stored } = s.heatActive :=
    congrArg (fun l => s.inRun && !List.isEmpty l) sinks
  rw [← points, ← active]
  refine Takes.of_only (fun bad => if_pos ((fails_iff (Tables.dispatchFails_iff _ _)).2 bad)) fun good => ?_
  refine (if_neg (mt (fails_iff (Tables.dispatchFails_iff _ _)).1 good)).trans ?_
  exact congrArg (·, Answer.plain .done) (State.restartDispatch_spelled { s with tables := stored } s.tables.dispatch)

theorem State.writeProfile_takes (rest : ∀ b, b < 4 → (s.bank b).state = .idle ∧ (s.engine b).state = .free) :
    Takes (s.writeProfile f n content) s { s with tables := s.tables.storeRun .lightProfile f n content }
      fun i => i = 0 ∧ ¬ (s.tables.storeRun .lightProfile f n content).profile.fits := by
  have free : ¬ s.lightingInUse = true := by
    rw [State.lightingInUse_iff]
    rintro ⟨b, lt, busy | busy⟩
    · exact busy (rest b lt).1
    · exact busy (rest b lt).2
  exact Takes.of_only (fun bad => (if_neg free).trans (if_pos ((fails_iff (ProfileRec.outOfRange_iff _)).2 bad)))
    fun good => (if_neg free).trans (if_neg (mt (fails_iff (ProfileRec.outOfRange_iff _)).1 good))

theorem State.writeProfile_busy (inUse : ∃ b, b < 4 ∧ ((s.bank b).state ≠ .idle ∨ (s.engine b).state ≠ .free)) :
    s.writeProfile f n content = (s, .plain .busy) := if_pos (s.lightingInUse_iff.2 inUse)

end written

/-! ### TIMERS and FLAG_ENABLES -/

theorem exec_writeTimers (tag a b c d : Byte) {s : State} (h : s.servesFreely) (run : s.inRun = true)
    (idle : s.saving = false) :
    (1 ≤ a.toNat * 256 + b.toNat ∧ a.toNat * 256 + b.toNat ≤ 600 ∧ 1 ≤ c.toNat * 256 + d.toNat ∧
        c.toNat * 256 + d.toNat ≤ 60 →
      exec (.writeTable tag 0x0F 0 1 [a, b, c, d]) s =
        .next ({ s.goodFrame with tables := { s.tables with
          timers := ⟨a.toNat * 256 + b.toNat, c.toNat * 256 + d.toNat⟩ } }.place tag 0x04 .done [])) ∧
    (a.toNat * 256 + b.toNat < 1 ∨ 600 < a.toNat * 256 + b.toNat ∨ c.toNat * 256 + d.toNat < 1 ∨
        60 < c.toNat * 256 + d.toNat →
      exec (.writeTable tag 0x0F 0 1 [a, b, c, d]) s = .next (s.goodFrame.place tag 0x04 .badEntry [0, 0, 0])) := by
  have outside := TimersRec.outOfRange_iff ⟨a.toNat * 256 + b.toNat, c.toNat * 256 + d.toNat⟩
  refine ⟨fun inside => exec_writeTable_inRun h run idle (id := .timers) rfl rfl (a := .plain .done) (if_neg ?_) rfl,
    fun bad => exec_writeTable_inRun h run idle (id := .timers) rfl rfl (a := .badEntry none) (if_pos (outside.2 bad)) rfl⟩
  exact mt outside.1 (by dsimp only; omega)

theorem exec_writeEnables (tag a b : Byte) {s : State} (h : s.servesFreely) (run : s.inRun = true)
    (idle : s.saving = false) : exec (.writeTable tag 0x10 0 1 [a, b]) s =
      .next ({ s.goodFrame with tables := { s.tables with enables := a ++ b } }.place tag 0x04 .done []) := by
  have joined : BitVec.ofNat 16 (rd16 [a, b] 0) = a ++ b := by
    refine BitVec.eq_of_toNat_eq ?_
    rw [BitVec.toNat_append, ← Nat.shiftLeft_add_eq_or_of_lt b.isLt, Nat.shiftLeft_eq, BitVec.toNat_ofNat]
    exact Nat.mod_eq_of_lt (by simp only [rd16, rd8, List.getD_cons_zero, List.getD_cons_succ]; omega)
  refine exec_writeTable_inRun h run idle (id := .flagEnables) rfl rfl (a := .plain .done) ?_ rfl
  rw [← joined]
  rfl

/-! ### What a change of a threshold and of a station's tuning does (R56, R75) -/

theorem WatchRec.reads_iff (r : WatchRec) (before now : Tab Int 32) : r.reads before now = true ↔
    before.get r.threshold ≠ now.get r.threshold ∨
      (r.compare = .outside ∧ before.get r.highThreshold ≠ now.get r.highThreshold) := by
  simp [WatchRec.reads]

theorem State.watchThresholds_spelled (s : State) (before : Tab Int 32) :
    let t := s.watchThresholds before
    t.watch.guard = guardOf s.tables t.watch.runs ∧ s.besideGuard t ∧
    ∀ k, k < 32 → s.tables.chained k = false →
      let r := s.tables.watch.get k
      let changed := before.get r.threshold ≠ s.tables.thresholds.get r.threshold ∨
        (r.compare = .outside ∧ before.get r.highThreshold ≠ s.tables.thresholds.get r.highThreshold)
      (∀ p v, r.point.get = some p → changed → (s.watch.runs.get k).lost = false → s.pointValue p = some v →
        t.watch.runs.get k = (s.watchValue p v).watch.runs.get k) ∧
      (r.point.get = none ∨ ¬ changed ∨ (s.watch.runs.get k).lost = true ∨
          (∃ p, r.point.get = some p ∧ s.pointValue p = none) →
        t.watch.runs.get k = s.watch.runs.get k) := by
  refine ⟨s.watchEvent_guard _, s.watchEvent_besideGuard _, fun k lt unchained => ?_⟩
  simp only [← WatchRec.reads_iff]
  rw [State.watchThresholds, State.watchEvent_unchained lt unchained, State.directAt]
  refine ⟨fun p v fed changed kept value => ?_, fun quiet => ?_⟩
  · rw [State.watchValue, State.watchEvent_onPoint lt unchained fed, WatchRec.valueUpdate_kept kept]
    simp only [fed, unchained, changed, kept, value]
    rfl
  · obtain unfed | unchanged | lost | ⟨p, fed, unusable⟩ := quiet
    · simp only [unfed]
      rfl
    · split
      · rw [if_neg fun h => unchanged h.2.1]
        rfl
      · rfl
    · split
      · rw [if_neg fun h => by simp [lost] at h]
        rfl
      · rfl
    · simp only [fed, unusable, ite_self]
      rfl

section retune
variable (s : State) {i : Nat} (old : FogTuneRec)

/-- R75: a limit of the station changed. -/
def FogTuneRec.relimited (old now : FogTuneRec) : Prop :=
  now.warn ≠ old.warn ∨ now.risk ≠ old.risk ∨ now.hysteresis ≠ old.hysteresis

theorem State.retuneStation_moves {m : Int} (known : (s.fog.stations.get i).state ≠ .unknown)
    (limits : old.relimited (s.tables.fogTune.get i)) (margin : (s.fog.stations.get i).margin = some m)
    (moves : (s.tables.fogTune.get i).nextState (s.fog.stations.get i).state m ≠ (s.fog.stations.get i).state) :
    s.retuneStation i old = s.putFogState i ((s.tables.fogTune.get i).nextState (s.fog.stations.get i).state m) := by
  have both := And.intro known limits
  rw [FogTuneRec.relimited] at both
  simp only [State.retuneStation, margin]
  rw [if_pos both]
  exact if_pos moves

theorem State.retuneStation_stays (stays : (s.fog.stations.get i).state = .unknown ∨
      ¬ old.relimited (s.tables.fogTune.get i) ∨ (s.fog.stations.get i).margin = none ∨
      ∃ m, (s.fog.stations.get i).margin = some m ∧
        (s.tables.fogTune.get i).nextState (s.fog.stations.get i).state m = (s.fog.stations.get i).state) :
    let r := s.tables.fogTune.get i
    let st := s.fog.stations.get i
    s.retuneStation i old =
      if r.fan.get ≠ old.fan.get ∨ r.fanLevel ≠ old.fanLevel ∨ r.pattern st.state ≠ old.pattern st.state then
        s.writeDemandTo r.fan.get (r.fanDemand st.state st.step)
      else s := by
  refine if_neg (not_not.2 ?_)
  obtain unknown | same | no | ⟨m, margin, keeps⟩ := stays
  · split
    · exact if_neg fun h => h.1 unknown
    · rfl
  · split
    · exact if_neg fun h => same h.2
    · rfl
  · simp only [no]
  · simp only [margin, keeps, ite_self]

end retune

/-- Settles O14, table by table. -/
theorem timersInRun : Obligations.TimersInRun := by
  refine ⟨fun tag a b c d s h run idle => ?_, fun tag first count content s h run idle => ?_,
    State.watchThresholds_spelled, fun s i old lt => ?_⟩
  · obtain ⟨inside, outside⟩ := exec_writeTimers tag a b c d h run idle
    exact ⟨inside, outside, exec_writeEnables tag a b h run idle⟩
  · exact ⟨exec_writeTable_takes h run idle rfl rfl (s.goodFrame.writeThresholds_takes ..),
      exec_writeTable_takes h run idle rfl rfl (s.goodFrame.writeFogTune_takes ..),
      exec_writeTable_takes h run idle rfl rfl (s.goodFrame.writeSinkTune_takes ..),
      exec_writeTable_takes h run idle rfl rfl (s.goodFrame.writeDispatch_takes ..),
      exec_writeTable_takes h run idle rfl rfl (s.goodFrame.writeZoneSet_takes ..),
      fun rest => exec_writeTable_takes h run idle rfl rfl (s.goodFrame.writeProfile_takes _ _ _ rest),
      fun inUse => exec_writeTable_inRun h run idle (id := .lightProfile) rfl rfl
        (s.goodFrame.writeProfile_busy _ _ _ inUse)⟩
  · refine ⟨fun m known limits margin moves => ?_, fun stays driven => ?_, fun stays same => ?_⟩
    · have becomes := (s.putFogState_becomes lt (found := s.fog.stations.get i) rfl).2 moves
      rw [State.setStation, Tab.set_get_self] at becomes
      exact (s.retuneStation_moves old known limits margin moves).trans becomes
    · exact (s.retuneStation_stays old stays).trans (if_pos driven)
    · exact (s.retuneStation_stays old stays).trans (if_neg same)

end Sys2Proof.Machine
end

section
/-! The resets, the RESET pin and the supply (R125, R174, R175, R180): what a reset leaves, and a part held in reset. -/

namespace Sys2Proof.Machine

open Sys2Proof

variable {s : State}

/-! ### The part right after a reset (R175) -/

/-- R168: RESET_SEEN is set and its enable too. -/
theorem State.started_attn (pending : List Instr) (memory : SerialMemory) (straps : Straps) (cause : ResetCause) :
    (State.started pending memory straps cause).attn = true := by
  simp [State.attn, State.started, TrunkUnit.initial, Tables.empty]

/-- Settles O5: every table and every block of `State.started`, place by place. -/
theorem resetValues : Obligations.ResetValues := by
  intro pending memory straps cause s
  have loader : s.loader = ⟨if straps.boot = .auto then .loading else .config, .notLoaded⟩ := by
    obtain ⟨boot, _, _⟩ := straps
    cases boot <;> rfl
  have empty {α : Type} [Inhabited α] {n : Nat} {a : α} : ∀ i, i < n → (Tab.replicate n a).get i = a :=
    fun i => Tab.get_replicate i a
  refine ⟨rfl, rfl, rfl, loader, ⟨rfl, rfl, rfl, rfl, empty, empty⟩,
    ⟨empty, empty, empty, empty, empty, rfl, empty, empty, empty, rfl, empty, empty, rfl, empty⟩,
    ⟨rfl, rfl, rfl, rfl, rfl, State.started_attn ..⟩, ⟨rfl, rfl, rfl, rfl, rfl, rfl, empty⟩, empty, empty, ⟨rfl, empty⟩,
    ⟨rfl, rfl, rfl, rfl, rfl, rfl, empty⟩, ⟨rfl, rfl, rfl, rfl, rfl, rfl, fun i hi => ⟨empty i hi, empty i hi⟩⟩,
    ⟨rfl, empty⟩, ⟨rfl, fun b hb => ?bank⟩, empty, rfl⟩
  case bank =>
    have bank : s.bank b = Bank.initial := empty b hb
    rw [bank]
    exact ⟨rfl, rfl, rfl, rfl, rfl, rfl, rfl⟩

/-! ### A part held in reset (R125, R175) -/

/-- R125: a part that is stopped or has just started has no operation in flight to cut off. -/
theorem State.cutMemory_idle (h : s.store.queue = []) (cut : Nat) : s.cutMemory cut = s.memory := by
  simp [State.cutMemory, h]

/-- What a stopped part shows of itself: the power it is stopped with, the memory as the cut left it, no frame on either
line and no ATTN (log 18). -/
theorem State.stopped_spelled (s : State) (cut : Nat) (p : Power) (dead : (p.supply && !p.pinAsserted) = false) :
    (s.stopped cut p).live = false ∧ (s.stopped cut p).power = p ∧ (s.stopped cut p).memory = s.cutMemory cut ∧
    (s.stopped cut p).inRun = false ∧ (s.stopped cut p).frameOnTrunk = none ∧
    (s.stopped cut p).frameOnField = none ∧ (s.stopped cut p).attn = false :=
  ⟨dead, rfl, rfl, rfl, rfl, rfl, by simp [State.attn, State.stopped]⟩

/-- R175: a power-on with the pin asserted is a start with cause POWER at the release of the pin. -/
theorem State.stopped_released (s : State) (cut : Nat) {p : Power} (supply : p.supply = true) (held : p.powerHeld = true)
    (found : Straps) (n : Nat) :
    (s.stopped cut p).releasePin found n = State.started s.pending (s.cutMemory cut) found .power := by
  have supplied : (s.stopped cut p).power.supply = true := supply
  have powerHeld : (s.stopped cut p).power.powerHeld = true := held
  rw [State.releasePin, if_pos supplied, if_pos powerHeld, State.start, State.cutMemory_idle (by rfl)]
  rfl

/-- Settles O4: each reset by its own condition, and a part that is held until the pin is released. -/
theorem resetsStart : Obligations.ResetsStart := by
  intro s straps cut
  refine ⟨fun released => ?power, fun supply => ?pin, fun tag data rest live sending head => ?soft, fun asserted => ?held,
    fun dead => ?nothing⟩
  case power => exact congrArg Host.Outcome.next (if_neg (by simp [released]))
  case pin => exact congrArg Host.Outcome.next (if_pos supply)
  case soft =>
    have resets : s.trunk.sendingReset = true := (TrunkUnit.sendingReset_reply sending head).trans rfl
    exact congrArg Host.Outcome.next (if_pos (by rw [live, resets]; rfl))
  case held =>
    obtain ⟨dead, power, memory, shown⟩ :=
      s.stopped_spelled cut { s.power with supply := true, powerHeld := true } (by simp [asserted])
    exact ⟨_, congrArg Host.Outcome.next (if_pos asserted), dead, power, memory, rfl, shown.1, shown.2.1, shown.2.2.1,
      shown.2.2.2, fun found n => congrArg Host.Outcome.next (s.stopped_released cut rfl rfl found n)⟩
  case nothing => exact congrArg Host.Outcome.next (if_neg (by simp [dead]))

/-! ### What a dead part takes (R175) -/

section dead
variable (dead : s.live = false)
include dead

theorem State.running_dead : s.running = false := by simp [State.running, dead]

/-- R175: a command that neither a pin nor the supply brings does nothing to a part that is not live: a request finds no
receiver, and every other event asks first whether the part is live, most of them whether it is in RUN. -/
theorem exec_dead {c : Instr} (inside : c.external = false) : exec c s = .next s := by
  have still := State.running_dead dead
  cases request : c.isRequest
  case true =>
    obtain ⟨tag, code, serve, rule⟩ := exec_isRequest request
    rw [rule, State.passRequest_dead dead]
  case false =>
    cases c
    case softReset | imageLoad | trunkBadFrame | trunkFrameSent | trunkSilenceExpiry | dispatchTimerExpiry | activateComplete
      | rowWriteComplete | rowReadComplete | imageSaveComplete | activationDelivery | settleExpiry | fadeStepExpiry
      | bracketTimerExpiry => exact congrArg Host.Outcome.next (if_neg (by simp [dead]))
    case pollSent | goodReport | replyTimeout | fieldBadFrame | setSent | ignoredFieldFrameEnd | pointStale | refreshExpiry
      | refreshLapse | qualifyExpiry | releaseExpiry | holdExpiry | windowExpiry | patternStepExpiry | dehumidRunExpiry
      | dehumidRestExpiry | dispatchResultDelivery => exact congrArg Host.Outcome.next (if_neg (by simp [still]))
    case powerOn | resetPin | resetPinAsserted | powerFails => cases inside
    all_goals cases request

end dead

/-- Settles O6: the two commands stop the part, and a part that is not live takes no command from inside. -/
theorem heldInReset : Obligations.HeldInReset := by
  refine ⟨fun s cut => ⟨fun supply => ?pin, ?supply⟩, fun c s dead inside => exec_dead dead inside⟩
  case pin => exact ⟨_, congrArg Host.Outcome.next (if_pos supply), s.stopped_spelled cut _ (by simp)⟩
  case supply => exact ⟨s.losePower cut, rfl, s.stopped_spelled cut _ rfl⟩

end Sys2Proof.Machine
end

section
/-! What only few commands may change (R110, R116, R152, R161, R162, R174, R175): the supply, the serial memory, the tables
and the operating state, command by command. -/

namespace Sys2Proof.Machine

open Sys2Proof

variable {s t u : State} {memory tables op : Prop}

/-! ### The parts that most commands leave -/

/-- The waiting commands, the supply and the pins, the operating state, the serial memory and the tables. -/
def State.frameView (s : State) : List Instr × Power × OpState × SerialMemory × Tables :=
  (s.pending, s.power, s.loader.op, s.memory, s.tables)

/-- The step from `s` to `t` leaves the waiting commands and the power, and each of the other three parts where its own
condition holds. -/
structure State.Kept (memory tables op : Prop) (s t : State) : Prop where
  pending : t.pending = s.pending
  power : t.power = s.power
  memory : memory → t.memory = s.memory
  tables : tables → t.tables = s.tables
  op : op → t.loader.op = s.loader.op

theorem State.kept_of_view (h : t.frameView = s.frameView) : State.Kept memory tables op s t := by
  simp only [State.frameView, Prod.mk.injEq] at h
  obtain ⟨pending, power, op, memory, tables⟩ := h
  exact ⟨pending, power, fun _ => memory, fun _ => tables, fun _ => op⟩

theorem State.Kept.rfl : State.Kept memory tables op s s := State.kept_of_view (by rfl)

theorem State.Kept.trans (h : State.Kept memory tables op s t) (h' : State.Kept memory tables op t u) :
    State.Kept memory tables op s u :=
  ⟨h'.pending.trans h.pending, h'.power.trans h.power, fun c => (h'.memory c).trans (h.memory c),
    fun c => (h'.tables c).trans (h.tables c), fun c => (h'.op c).trans (h.op c)⟩

theorem State.Kept.mono {memory' tables' op' : Prop} (h : State.Kept memory tables op s t) (memories : memory' → memory)
    (run : tables' → tables) (ops : op' → op) : State.Kept memory' tables' op' s t :=
  ⟨h.pending, h.power, fun c => h.memory (memories c), fun c => h.tables (run c), fun c => h.op (ops c)⟩

theorem State.Kept.of_imp {tables' : Prop} (h : State.Kept memory tables op s t) (imp : tables' → tables) :
    State.Kept memory tables' op s t := h.mono id imp id

theorem State.Kept.ite {c : Prop} [Decidable c] (ht : State.Kept memory tables op s t)
    (hu : State.Kept memory tables op s u) : State.Kept memory tables op s (if c then t else u) := by
  split
  · exact ht
  · exact hu

/-! ### Requests (R158 to R160) -/

section requests
variable {serve : State → State × Option Answer}

theorem State.answer_kept (h : State.Kept memory tables op s t) (tag code : Byte) (a : Option Answer) :
    State.Kept memory tables op s (t.answer tag code a) := by
  cases a
  · exact h
  · exact h.trans (State.kept_of_view rfl)

/-- A request keeps what its own rule keeps of the part behind the good frame. -/
theorem State.passRequest_kept (h : State.Kept memory tables op s.goodFrame (serve s.goodFrame).1) (tag code : Byte) :
    State.Kept memory tables op s (s.passRequest tag code serve) :=
  have behind : State.Kept memory tables op s (serve s.goodFrame).1 :=
    State.Kept.trans (t := s.goodFrame) (State.kept_of_view rfl) h
  .ite (.ite (State.kept_of_view rfl) (State.answer_kept behind tag code _)) .rfl

theorem State.request_kept (h : State.Kept memory tables op s.goodFrame (serve s.goodFrame).1) (tag code : Byte) :
    State.Kept memory tables op s (s.request tag code serve) := by
  refine State.passRequest_kept ?_ tag code
  unfold unlessLoading
  split
  · exact .rfl
  · exact h

/-- R144: a restricted request keeps what its own rule keeps, since an abort keeps it all. -/
theorem State.restrictedRequest_kept (h : State.Kept memory tables op s.goodFrame (serve s.goodFrame).1) (tag code : Byte) :
    State.Kept memory tables op s (s.request tag code (restricted serve)) := by
  refine State.request_kept ?_ tag code
  unfold restricted
  split
  · exact State.kept_of_view (by simp [State.frameView])
  · exact h

end requests

/-! ### Staged requests and the bracket (R144 to R152) -/

/-- R110, R152: of the stageable requests SET_ZONE alone changes a table. -/
def StagedReq.leavesTables : StagedReq → Prop
  | .setZone _ _ _ _ => False
  | .setChannel _ _ | .cue _ _ _ _ | .releaseBank _ => True

section brackets
variable (s)

theorem State.takeCue_frameView (b r : Nat) (fade : Option Nat) (rel : Bool) :
    (s.takeCue b r fade rel).1.frameView = s.frameView := by
  unfold State.takeCue State.frameView
  split
  case h_6 => split <;> simp
  all_goals simp

theorem State.takeRelease_frameView (b : Nat) : (s.takeRelease b).1.frameView = s.frameView := by
  unfold State.takeRelease State.frameView
  split <;> simp

theorem State.takeItem_kept (r : StagedReq) : State.Kept memory r.leavesTables op s (s.takeItem r).1 := by
  cases r
  case setChannel ch v => exact State.kept_of_view (by simp [State.takeItem, State.frameView])
  case setZone z o a b =>
    obtain ⟨pending, power, loader, memory, _⟩ := s.applyZone_frame z o a b
    exact ⟨pending, power, fun _ => memory, False.elim, fun _ => congrArg Loader.op loader⟩
  case cue b r fade rel => exact State.kept_of_view (s.takeCue_frameView ..)
  case releaseBank b => exact State.kept_of_view (s.takeRelease_frameView b)

/-- R152: a stage without a SET_ZONE changes no table. -/
theorem State.applyStage_kept (stage : List StageItem) :
    State.Kept memory (∀ i ∈ stage, i.request.leavesTables) op s (s.applyStage stage) := by
  suffices folded : State.Kept memory (∀ i ∈ stage, i.request.leavesTables) op s
      (stage.foldl (fun s i => (s.takeItem i.request).1) s) from
    folded.trans (State.kept_of_view (by simp [State.applyStage, State.frameView]))
  induction stage generalizing s with
  | nil => exact .rfl
  | cons i stage ih =>
    exact ((s.takeItem_kept i.request).of_imp fun c => c i (List.mem_cons_self ..)).trans
      ((ih _).of_imp fun c j hj => c j (List.mem_cons_of_mem _ hj))

theorem State.abortBracket_kept (c : AbortCode) (o : Option Nat) (r : Option ResultCode) :
    State.Kept memory tables op s (s.abortBracket c o r) := State.kept_of_view (by simp [State.frameView])

theorem State.commit_kept (ordinal : Nat) :
    State.Kept memory (∀ i ∈ s.bracket.stage, i.request.leavesTables) op s (s.commit ordinal).1 := by
  unfold State.commit
  split
  · exact (s.applyStage_kept _).trans (State.kept_of_view rfl)
  · exact s.abortBracket_kept ..

theorem State.stagedCommit_kept {r : StagedReq} {o : Nat} (view : t.frameView = s.frameView)
    (stage : t.bracket.stage = s.bracket.stage ++ [⟨o, r⟩]) (ordinal : Nat) :
    State.Kept memory (s.bracket.stage = [] ∧ r.leavesTables) op s (t.commit ordinal).1 := by
  refine .trans (State.kept_of_view view) ((t.commit_kept ordinal).of_imp fun c => ?_)
  rw [stage, c.1]
  simpa using c.2

/-- R146, R147: a request staged changes no table, and where it commits, its stage does. -/
theorem State.stageItem_kept (o : Nat) (r : StagedReq) (clamped : Bool) :
    State.Kept memory (s.bracket.stage = [] ∧ r.leavesTables) op s (s.stageItem o r clamped).1 := by
  unfold State.stageItem
  dsimp only
  split
  · exact s.abortBracket_kept ..
  · split
    · split
      · refine s.stagedCommit_kept (o := o) (r := r) ?_ ?_ o <;> rfl
      · exact State.kept_of_view rfl
    all_goals exact State.kept_of_view rfl

/-- R144: so does a stageable request, whatever the bracket makes of it. -/
theorem State.takeStageable_kept {c : Checked} (good : ∀ r clamped, c = .good r clamped → tables → r.leavesTables) :
    State.Kept memory (s.bracket.stage = [] ∧ tables) op s (s.takeStageable c).1 := by
  unfold State.takeStageable
  dsimp only
  split
  · cases c with
    | refused a =>
      refine .trans (t := s.countOrdinal) (State.kept_of_view rfl) (.ite ?_ .rfl)
      exact State.abortBracket_kept ..
    | good r clamped =>
      refine .trans (t := s.countOrdinal) (State.kept_of_view rfl) ?_
      exact (s.countOrdinal.stageItem_kept _ r clamped).of_imp fun h => ⟨h.1, good r clamped rfl h.2⟩
  · cases c with
    | refused a => exact .rfl
    | good r clamped =>
      dsimp only
      split
      · exact .rfl
      all_goals exact (s.takeItem_kept r).of_imp fun h => good r clamped rfl h.2

theorem State.takeDirect_kept {c : Checked} (good : ∀ r clamped, c = .good r clamped → r.leavesTables) :
    State.Kept memory tables op s (s.takeDirect c).1 := by
  cases c with
  | refused a => exact .rfl
  | good r clamped => exact (s.takeItem_kept r).of_imp fun _ => good r clamped rfl

theorem State.openBracket_frameView (kind : BracketKind) (count : Nat) (strict notify : Bool) :
    (s.openBracket kind count strict notify).1.frameView = s.frameView := by
  unfold State.openBracket State.frameView
  dsimp only
  split <;> (repeat' split) <;> simp

theorem State.closeBracket_kept : State.Kept memory (s.bracket.stage = []) op s s.closeBracket.1 := by
  unfold State.closeBracket
  dsimp only
  split
  · exact .rfl
  · split
    · exact State.kept_of_view rfl
    · refine .trans (t := s.countOrdinal) (State.kept_of_view rfl) ?_
      exact (s.countOrdinal.commit_kept _).of_imp fun c => by simp [c]
  · exact State.kept_of_view (by simp [State.frameView])
  · exact State.kept_of_view rfl

theorem State.abandonBracket_frameView : s.abandonBracket.1.frameView = s.frameView := by
  unfold State.abandonBracket State.frameView
  dsimp only
  split <;> simp

end brackets

/-! ### The tables and the operating state (R161, R162, R174, R177, R179) -/

section tables
variable (s)

theorem State.readTable_frameView (tag table : Byte) (first count : Word16) :
    (s.readTable tag table first count).1.frameView = s.frameView := by
  unfold State.readTable State.readRow State.frameView
  (repeat' split) <;> simp

/-- The same but for the tables, which a write of a run may change. -/
def State.writeView (s : State) : List Instr × Power × OpState × SerialMemory :=
  (s.pending, s.power, s.loader.op, s.memory)

theorem State.kept_of_writeView (h : t.writeView = s.writeView) : State.Kept memory False op s t := by
  simp only [State.writeView, Prod.mk.injEq] at h
  obtain ⟨pending, power, op, memory⟩ := h
  exact ⟨pending, power, fun _ => memory, False.elim, fun _ => op⟩

theorem State.writeConfig_writeView (id : TableId) (first n : Nat) (content : List Byte) :
    (s.writeConfig id first n content).1.writeView = s.writeView := by
  cases id
  case fogMap => simp only [State.writeConfig, State.resetWritten]; split <;> rfl
  all_goals rfl

theorem State.writeRunning_writeView (id : TableId) (first n : Nat) (content : List Byte) :
    (s.writeRunning id first n content).1.writeView = s.writeView := by
  cases id
  case thresholds | fogTune | sinkTune | dispatch | zoneSet | timers | flagEnables | lightProfile =>
    simp only [State.writeRunning, State.writeThresholds, State.writeFogTune, State.writeSinkTune, State.writeDispatch,
      State.restartDispatch, State.writeZoneSet, State.writeTimers, State.writeProfile, State.writeView]
    (repeat' split) <;> simp
  all_goals rfl

theorem State.writeRow_writeView (tag : Byte) (bank row : Nat) (content : List Byte) :
    (s.writeRow tag bank row content).1.writeView = s.writeView := by
  unfold State.writeRow
  (repeat' split) <;> rfl

theorem State.writeTable_writeView (tag table : Byte) (first count : Word16) (content : List Byte) :
    (s.writeTable tag table first count content).1.writeView = s.writeView := by
  unfold State.writeTable
  split
  · rfl
  · split
    · rfl
    · split
      · rfl
      · split
        · split
          · exact s.writeRow_writeView ..
          · rfl
        · split
          · rfl
          · dsimp only
            split
            · exact s.writeRunning_writeView ..
            · exact s.writeConfig_writeView ..

theorem State.trySave_frameView (tag : Byte) : (s.trySave tag).1.frameView = s.frameView := by
  unfold State.trySave
  (repeat' split) <;> rfl

theorem State.enterRun_kept (receiving : Bool) : State.Kept memory tables False s (s.enterRun receiving) := by
  refine ⟨?_, ?_, fun _ => ?_, fun _ => ?_, False.elim⟩ <;> simp [State.enterRun]

theorem State.tryEnterRun_kept (receiving : Bool) : State.Kept memory tables False s (s.tryEnterRun receiving).1 := by
  unfold State.tryEnterRun
  split
  · exact .rfl
  · split
    · exact .rfl
    · split
      · exact .rfl
      · dsimp only
        exact s.enterRun_kept receiving

theorem State.leaveRun_kept : State.Kept memory tables False s s.leaveRun := by
  refine ⟨?_, ?_, fun _ => ?_, fun _ => ?_, False.elim⟩ <;> simp [State.leaveRun]

theorem State.endLoad_kept (receiving : Bool) : State.Kept memory False False s (s.endLoad receiving) := by
  unfold State.endLoad
  split
  · have entry := State.enterRun_kept (memory := memory) (tables := False)
    exact ⟨(entry _ receiving).pending, (entry _ receiving).power, (entry _ receiving).memory, False.elim, False.elim⟩
  · exact ⟨rfl, rfl, fun _ => rfl, False.elim, False.elim⟩

end tables

/-! ### The events (R1 to R18, R34, R35, R45 to R154) -/

section events
variable (s)

theorem State.badTrunkFrame_frameView : s.badTrunkFrame.frameView = s.frameView := by
  unfold State.badTrunkFrame State.frameView
  (repeat' split) <;> simp

theorem State.silenceEnds_frameView : s.silenceEnds.frameView = s.frameView := by
  unfold State.silenceEnds State.frameView
  (repeat' split) <;> simp

theorem State.pollSent_frameView : s.pollSent.frameView = s.frameView := by
  unfold State.pollSent State.frameView
  (repeat' split) <;> simp

theorem State.goodReport_frameView (address : Byte) (items : List Item) :
    (s.goodReport address items).frameView = s.frameView := by
  unfold State.goodReport State.reportTaken State.frameView
  (repeat' split) <;> simp

theorem State.replyTimeout_frameView (receiving : Bool) : (s.replyTimeout receiving).frameView = s.frameView := by
  unfold State.replyTimeout State.frameView
  (repeat' split) <;> simp

theorem State.fieldBadFrame_frameView : s.fieldBadFrame.frameView = s.frameView := by
  unfold State.fieldBadFrame State.frameView
  (repeat' split) <;> simp

theorem State.setSent_frameView (receiving : Bool) : (s.setSent receiving).frameView = s.frameView := by
  unfold State.setSent State.frameView
  (repeat' split) <;> simp

theorem State.ignoredFrameEnds_frameView : s.ignoredFrameEnds.frameView = s.frameView := by
  unfold State.ignoredFrameEnds State.frameView
  (repeat' split) <;> simp

theorem State.pointStale_frameView (p : Nat) : (s.pointStale p).frameView = s.frameView := by
  unfold State.pointStale State.frameView
  (repeat' split) <;> simp

theorem State.refreshExpiry_frameView (a : Nat) : (s.refreshExpiry a).frameView = s.frameView := by
  unfold State.refreshExpiry State.frameView
  (repeat' split) <;> simp

theorem State.refreshLapse_frameView (a : Nat) : (s.refreshLapse a).frameView = s.frameView := by
  unfold State.refreshLapse State.frameView
  (repeat' split) <;> simp

theorem State.watchTimer_frameView (k : Nat) (act : WatchRec → WatchRun → EntryOutcome) :
    (s.watchTimer k act).frameView = s.frameView := by
  unfold State.watchTimer State.frameView
  (repeat' split) <;> simp

theorem State.patternStep_frameView (i : Nat) : (s.patternStep i).frameView = s.frameView := by
  unfold State.patternStep State.frameView
  (repeat' split) <;> simp

theorem State.dehumidRunEnds_frameView : s.dehumidRunEnds.frameView = s.frameView := by
  unfold State.dehumidRunEnds State.frameView
  (repeat' split) <;> simp

theorem State.dehumidRestEnds_frameView : s.dehumidRestEnds.frameView = s.frameView := by
  unfold State.dehumidRestEnds State.frameView
  (repeat' split) <;> simp

theorem State.dispatchTimerEnds_frameView : s.dispatchTimerEnds.frameView = s.frameView := by
  unfold State.dispatchTimerEnds State.frameView
  (repeat' split) <;> simp

theorem State.deliverResult_frameView : s.deliverResult.frameView = s.frameView := by
  unfold State.deliverResult State.frameView
  (repeat' split) <;> simp

theorem State.activateComplete_frameView : s.activateComplete.frameView = s.frameView := by
  unfold State.activateComplete State.frameView
  (repeat' split) <;> simp

theorem State.rowReadComplete_frameView : s.rowReadComplete.frameView = s.frameView := by
  unfold State.rowReadComplete State.frameView
  (repeat' split) <;> simp

theorem State.activationDelivered_frameView (b : Nat) : (s.activationDelivered b).frameView = s.frameView := by
  unfold State.activationDelivered State.frameView
  (repeat' split) <;> simp

theorem State.settleExpiry_frameView (b : Nat) : (s.settleExpiry b).frameView = s.frameView := by
  unfold State.settleExpiry State.frameView
  (repeat' split) <;> simp

theorem State.fadeStepExpiry_frameView (b : Nat) : (s.fadeStepExpiry b).frameView = s.frameView := by
  unfold State.fadeStepExpiry State.frameView
  (repeat' split) <;> simp

theorem State.bracketTimerEnds_frameView : s.bracketTimerEnds.frameView = s.frameView := by
  unfold State.bracketTimerEnds State.frameView
  (repeat' split) <;> simp

/-- R116: the completions that write change the serial memory alone of these parts. -/
theorem State.rowWriteComplete_kept (flaws : List (Nat × Byte)) :
    State.Kept False tables op s (s.rowWriteComplete flaws) := by
  unfold State.rowWriteComplete
  (repeat' split) <;> constructor <;> simp

theorem State.imageSaveComplete_kept (flaws : List (Nat × Byte)) :
    State.Kept False tables op s (s.imageSaveComplete flaws) := by
  unfold State.imageSaveComplete
  (repeat' split) <;> constructor <;> simp [State.saveEnds_op]

theorem State.imageLoad_kept (receiving : Bool) : State.Kept memory False False s (s.imageLoad receiving) :=
  .ite (s.endLoad_kept receiving) .rfl

end events

/-! ### Every command -/

/-- R116, R179: the completions that write. -/
def writesMemory : Instr → Prop
  | .rowWriteComplete _ | .imageSaveComplete _ => True
  | _ => False

/-- R110, R162, R177: the commands that change the tables by themselves. -/
def writesTables : Instr → Prop
  | .imageLoad _ | .writeTable _ _ _ _ _ | .setZone _ _ _ _ _ => True
  | _ => False

/-- R174, R177: the commands that change the operating state. -/
def movesState : Instr → Prop
  | .imageLoad _ | .enterRun _ _ | .enterConfig _ => True
  | _ => False

/-- What a command that does not restart the part keeps of it. -/
def State.KeptBy (c : Instr) (s t : State) : Prop :=
  State.Kept (¬writesMemory c) (s.bracket.stage = [] ∧ ¬writesTables c) (¬movesState c) s t

theorem State.checkSetChannel_leavesTables {channel value : Word16} {r : StagedReq} {clamped : Bool} (s : State)
    (h : s.checkSetChannel channel value = .good r clamped) : r.leavesTables := by
  unfold State.checkSetChannel at h
  dsimp only at h
  (repeat' split at h) <;> cases h
  trivial

theorem State.checkCue_leavesTables {bank row : Byte} {fade : Option Word16} {rel clamped : Bool} {r : StagedReq} (s : State)
    (h : s.checkCue bank row fade rel = .good r clamped) : r.leavesTables := by
  unfold State.checkCue at h
  (repeat' split at h) <;> cases h
  trivial

theorem State.checkRelease_leavesTables {bank : Byte} {r : StagedReq} {clamped : Bool} (s : State)
    (h : s.checkRelease bank = .good r clamped) : r.leavesTables := by
  unfold State.checkRelease at h
  (repeat' split at h) <;> cases h
  trivial

theorem exec_kept {c : Instr} (running : c.restarts = false) : Holds (s.KeptBy c) (exec c s) := by
  have leaves {t : State} (hv : t.frameView = s.frameView) : Holds (s.KeptBy c) (.next t) :=
    holds_next (State.kept_of_view hv)
  have served {serve : State → State × Option Answer} (tag code : Byte)
      (hv : (serve s.goodFrame).1.frameView = s.frameView) : Holds (s.KeptBy c) (.next (s.request tag code serve)) :=
    holds_next (State.request_kept (State.kept_of_view hv) tag code)
  cases c
  case powerOn | resetPin | softReset | resetPinAsserted | powerFails | trunkFrameSent => cases running
  case readInfo tag | readStatus tag => exact holds_next (State.passRequest_kept (State.kept_of_view rfl) ..)
  case malformedRequest tag code =>
    exact holds_next (State.passRequest_kept (serve := serveMalformed) (State.kept_of_view rfl) ..)
  case readTable tag table first count => exact served _ _ (s.goodFrame.readTable_frameView ..)
  case clearFlags tag mask value => exact served (serve := serveClear mask value) _ _ rfl
  case resetPart tag => exact served (serve := serveResetPart) _ _ rfl
  case releaseWatch tag mask =>
    exact served (serve := serveRelease mask) _ _ (by simp [serveRelease, State.frameView])
  case openBracket tag kind count strict notify => exact served _ _ (s.goodFrame.openBracket_frameView ..)
  case abandonBracket tag => exact served _ _ s.goodFrame.abandonBracket_frameView
  case closeBracket tag =>
    exact holds_next (State.request_kept (s.goodFrame.closeBracket_kept.of_imp And.left) ..)
  case saveImage tag =>
    exact holds_next (State.restrictedRequest_kept (State.kept_of_view (s.goodFrame.trySave_frameView tag)) ..)
  case enterRun tag receiving =>
    exact holds_next (State.restrictedRequest_kept ((s.goodFrame.tryEnterRun_kept receiving).mono id id (· trivial)) ..)
  case enterConfig tag =>
    have entry : State.Kept True True False s.goodFrame s.goodFrame.enterConfig.1 := .ite s.goodFrame.leaveRun_kept .rfl
    exact holds_next (State.request_kept (entry.mono (fun _ => trivial) (fun _ => trivial) (· trivial)) ..)
  case imageLoad receiving => exact holds_next ((s.imageLoad_kept receiving).mono id (·.2 trivial) (· trivial))
  case writeTable tag table first count content =>
    have written := s.goodFrame.kept_of_writeView (op := True) (memory := True)
      (s.goodFrame.writeTable_writeView tag table first count content)
    exact holds_next (State.restrictedRequest_kept
      (written.mono (fun _ => trivial) (·.2 trivial) (fun _ => trivial)) ..)
  case setChannel tag channel value direct =>
    refine holds_next (State.request_kept ?_ ..)
    split
    · exact s.goodFrame.takeDirect_kept fun r clamped => s.goodFrame.checkSetChannel_leavesTables
    · exact (s.goodFrame.takeStageable_kept (tables := True) fun r clamped h _ =>
        s.goodFrame.checkSetChannel_leavesTables h).mono id (fun c => ⟨c.1, trivial⟩) id
  case setZone tag zone o a b =>
    exact holds_next (State.request_kept
      ((s.goodFrame.takeStageable_kept (tables := False) fun _ _ _ => False.elim).of_imp fun c => ⟨c.1, c.2 trivial⟩) ..)
  case cue tag bank row fade rel =>
    exact holds_next (State.request_kept ((s.goodFrame.takeStageable_kept (tables := True) fun r clamped h _ =>
      s.goodFrame.checkCue_leavesTables h).of_imp fun c => ⟨c.1, trivial⟩) ..)
  case releaseBank tag bank =>
    exact holds_next (State.request_kept ((s.goodFrame.takeStageable_kept (tables := True) fun r clamped h _ =>
      s.goodFrame.checkRelease_leavesTables h).of_imp fun c => ⟨c.1, trivial⟩) ..)
  case goodReport address items => exact leaves (s.goodReport_frameView address items)
  case pointStale p => exact leaves (s.pointStale_frameView p)
  case trunkBadFrame => exact leaves s.badTrunkFrame_frameView
  case trunkSilenceExpiry => exact leaves s.silenceEnds_frameView
  case pollSent => exact leaves s.pollSent_frameView
  case replyTimeout receiving => exact leaves (s.replyTimeout_frameView receiving)
  case fieldBadFrame => exact leaves s.fieldBadFrame_frameView
  case setSent receiving => exact leaves (s.setSent_frameView receiving)
  case ignoredFieldFrameEnd => exact leaves s.ignoredFrameEnds_frameView
  case refreshExpiry address => exact leaves (s.refreshExpiry_frameView address.toNat)
  case refreshLapse address => exact leaves (s.refreshLapse_frameView address.toNat)
  case qualifyExpiry k | releaseExpiry k | holdExpiry k | windowExpiry k => exact leaves (s.watchTimer_frameView k _)
  case patternStepExpiry i => exact leaves (s.patternStep_frameView i)
  case dehumidRunExpiry => exact leaves s.dehumidRunEnds_frameView
  case dehumidRestExpiry => exact leaves s.dehumidRestEnds_frameView
  case dispatchTimerExpiry => exact leaves s.dispatchTimerEnds_frameView
  case dispatchResultDelivery => exact leaves s.deliverResult_frameView
  case activateComplete => exact leaves s.activateComplete_frameView
  case rowReadComplete => exact leaves s.rowReadComplete_frameView
  case rowWriteComplete flaws => exact holds_next ((s.rowWriteComplete_kept flaws).mono (· trivial) id id)
  case imageSaveComplete flaws => exact holds_next ((s.imageSaveComplete_kept flaws).mono (· trivial) id id)
  case activationDelivery b => exact leaves (s.activationDelivered_frameView b)
  case settleExpiry b => exact leaves (s.settleExpiry_frameView b)
  case fadeStepExpiry b => exact leaves (s.fadeStepExpiry_frameView b)
  case bracketTimerExpiry => exact leaves s.bracketTimerEnds_frameView

/-- A restart leaves the commands that wait. -/
theorem exec_restart_pending {c : Instr} (restart : c.restarts = true) : Holds (·.pending = s.pending) (exec c s) := by
  cases c
  case powerOn straps cut => exact holds_next (by unfold State.powerOn; split <;> rfl)
  case resetPin straps cut => exact holds_next (by unfold State.releasePin; split <;> rfl)
  case softReset straps cut => exact holds_next (by unfold State.softReset; split <;> rfl)
  case resetPinAsserted cut => exact holds_next (by unfold State.assertPin; split <;> rfl)
  case powerFails cut => exact holds_next rfl
  case trunkFrameSent => exact holds_next (by unfold State.frameSent; (repeat' split) <;> rfl)
  all_goals cases restart

/-- No command is refused and none faults. -/
theorem exec_next (c : Instr) (s : State) : ∃ t, exec c s = .next t := by
  cases c <;> exact ⟨_, rfl⟩

/-- Settles O2: from `exec_kept`, and from `exec_restart_pending` for the commands that start or stop the part. -/
theorem commandsAnswer : Obligations.CommandsAnswer := by
  refine ⟨fun c s => ?answers, fun c s t ht running => ?frame⟩
  case answers =>
    obtain ⟨t, ht⟩ := exec_next c s
    refine ⟨t, ht, ?_⟩
    cases restart : c.restarts
    · exact (exec_kept restart t ht).pending
    · exact exec_restart_pending restart t ht
  case frame =>
    have kept := exec_kept running t ht
    refine ⟨kept.power, fun row image => kept.memory ?_, fun load write zone empty => kept.tables ⟨empty, ?_⟩,
      fun load run config => kept.op ?_⟩
    · intro writes
      cases c with
      | rowWriteComplete f => exact row f rfl
      | imageSaveComplete f => exact image f rfl
      | _ => exact writes
    · intro writes
      cases c with
      | imageLoad f => exact load f rfl
      | writeTable tag id first n content => exact write tag id first n content rfl
      | setZone tag z o a b => exact zone tag z o a b rfl
      | _ => exact writes
    · intro moves
      cases c with
      | imageLoad f => exact load f rfl
      | enterRun tag r => exact run tag r rfl
      | enterConfig tag => exact config tag rfl
      | _ => exact moves

end Sys2Proof.Machine
end

section
/-! IMAGE_SAVE and the cut that ends it early (R125, R176, R177, R179): the image region as each leaves it. -/

namespace Sys2Proof.Machine

open Sys2Proof

variable {s : State} {m : List Host.Cell}

/-! ### A save cut off (R125, R179) -/

/-- R179: stage 1 erases the signature and no later stage writes it. -/
theorem cutImage_erased (h : Memory.wf m) (t : Tables) (cut : Nat) :
    Memory.block (cutImage m t cut) 0 4 = List.replicate 4 Config.erasedByte := by
  have erased := Memory.write_wf h 0 (List.replicate Config.headerLength Config.erasedByte)
  have body := Memory.write_wf erased Config.headerLength (t.body.take cut)
  calc Memory.block (cutImage m t cut) 0 4
    _ = Memory.block (Memory.write m 0 (List.replicate Config.headerLength Config.erasedByte)) 0 4 := by
      rw [cutImage, Memory.block_write_other body _ _ _ _ (.inl (le_refl 4)),
        Memory.block_write_other erased _ _ _ _ (.inl (by decide))]
    _ = (Memory.block (Memory.write m 0 (List.replicate Config.headerLength Config.erasedByte)) 0
          (List.replicate Config.headerLength Config.erasedByte).length).take 4 :=
      (Memory.take_block erased _ _ _ (by rw [List.length_replicate]; decide)).symm
    _ = List.replicate 4 Config.erasedByte := by
      rw [Memory.block_write h, List.take_replicate]; rfl

/-- R177 stage 1, in a region of any form. -/
theorem judgeImage_unsigned (t : Tables)
    (unsigned : (Memory.block m 0 Config.headerLength).take 4 ≠ Config.signature) :
    judgeImage m t = .error .noSignature := if_pos unsigned

theorem State.losePower_cutSave {tag : Byte} {copy : Tables} {rest : List MemOp}
    (queue : s.store.queue = .imageSave tag copy :: rest) (cut : Nat) :
    (s.losePower cut).memory.image = cutImage s.memory.image copy cut := by
  rw [State.losePower_memory, State.cutMemory, queue]; rfl

/-- R174, R175: the start behind a stop with BOOT = AUTO waits for the load, with the memory as the stop left it. -/
theorem State.powerOn_auto (released : s.power.pinAsserted = false) (idle : s.store.queue = []) (r1 r0 : Bool)
    (cut : Nat) : s.powerOn ⟨.auto, r1, r0⟩ cut = State.started s.pending s.memory ⟨.auto, r1, r0⟩ .power := by
  rw [State.powerOn, if_neg (by simp [released]), State.start, State.cutMemory_idle idle]

/-- R177: a load that finds no image leaves its reason and raises IMAGE_EVENT. -/
theorem State.imageLoad_fails {r : ImageReason} (loading : s.live = true ∧ s.loader.op = .loading)
    (judged : judgeImage s.memory.image s.tables = .error r) (receiving : Bool) :
    s.imageLoad receiving = s.loadFails r := by
  rw [State.imageLoad, if_pos (by simp [loading]), State.endLoad, judged]

/-- Settles O8: the cut left the signature erased (`cutImage_erased`), and the load judges its first stage by it. -/
theorem cutSaveLeavesNoImage : Obligations.CutSaveLeavesNoImage := by
  intro s t u v tag copy rest cut cut' r1 r0 receiving canonical released queue stop start load
  cases stop
  cases start
  cases load
  have image := State.losePower_cutSave queue cut
  have started := State.powerOn_auto (s := s.losePower cut) released rfl r1 r0 cut'
  have judged : judgeImage (s.losePower cut).memory.image .empty = .error .noSignature := by
    refine judgeImage_unsigned _ ?_
    rw [image, Memory.take_block (cutImage_wf canonical copy cut) _ _ _ (by decide), cutImage_erased canonical]
    decide
  have loads := State.imageLoad_fails
    (s := .started (s.losePower cut).pending (s.losePower cut).memory ⟨.auto, r1, r0⟩ .power) ⟨rfl, rfl⟩ judged receiving
  rw [started, loads]
  exact ⟨rfl, rfl, TrunkUnit.raise_sets ..⟩

/-! ### A save that completes (R179) -/

/-- The byte that a read-back finds where `b` was written: that of the last flaw at the address, if there is one. -/
def flawedByte (flaws : List (Nat × Byte)) (x : Nat) (b : Byte) : Byte :=
  ((flaws.filter fun f => f.1 == x).map Prod.snd).getLastD b

theorem Memory.read_spoil_last (h : Memory.wf m) (flaws : List (Nat × Byte)) (x : Nat) :
    Memory.read (Memory.spoil m flaws) x = flawedByte flaws x (Memory.read m x) := by
  induction flaws generalizing m with
  | nil => rfl
  | cons f flaws ih =>
    have spoiled := ih (Memory.write_wf h f.1 [f.2])
    rw [Memory.read_write h] at spoiled
    refine Eq.trans (show _ = Memory.read (Memory.spoil (Memory.write m f.1 [f.2]) flaws) x from rfl) (spoiled.trans ?_)
    unfold flawedByte
    by_cases here : f.1 = x
    · subst here
      simp only [if_pos (show f.1 ≤ f.1 ∧ f.1 < f.1 + [f.2].length by simp), Nat.sub_self, List.getD_cons_zero]
      rw [List.filter_cons_of_pos (by simp), List.map_cons, List.getLastD_cons]
    · have apart : ¬(f.1 ≤ x ∧ x < f.1 + [f.2].length) := by simp; omega
      rw [if_neg apart, List.filter_cons_of_neg (by simpa using here)]

/-- Of the flaws in what a save wrote those at one of its addresses are all the flaws there. -/
theorem flawedByte_saved (t : Tables) (flaws : List (Nat × Byte)) {i : Nat} (inside : i < (savedBytes t).length) (b : Byte) :
    flawedByte (savedFlaws t flaws) (4 + i) b = flawedByte flaws (4 + i) b := by
  unfold flawedByte savedFlaws
  rw [List.filter_filter]
  congr 2
  refine List.filter_congr fun f _ => ?_
  by_cases here : f.1 = 4 + i
  · simp [here, inside]
  · simp [here]

/-- The region as the read-back of a save finds it. -/
def savedImage (m : List Host.Cell) (t : Tables) (flaws : List (Nat × Byte)) : List Host.Cell :=
  Memory.spoil (writeUnsigned m t) (savedFlaws t flaws)

theorem savedImage_wf (h : Memory.wf m) (t : Tables) (flaws : List (Nat × Byte)) : Memory.wf (savedImage m t flaws) :=
  Memory.spoil_wf (writeUnsigned_wf h t) _

/-- R179: no flaw lies on the signature, which stage 1 erased (log 24). -/
theorem savedImage_unsigned (h : Memory.wf m) (t : Tables) (flaws : List (Nat × Byte)) :
    Memory.block (savedImage m t flaws) 0 4 ≠ Config.signature := by
  intro signed
  have first : Memory.read (savedImage m t flaws) 0 = Config.erasedByte := by
    refine (Memory.read_spoil (writeUnsigned_wf h t) _ 0 fun f hf => ?_).trans ?_
    · have beyond : 4 ≤ f.1 ∧ f.1 < 4 + (savedBytes t).length := by simpa using (List.mem_filter.1 hf).2
      omega
    · rw [writeUnsigned, Memory.read_write h, if_pos (by simp)]
      rfl
  have byte := Memory.getD_block (savedImage_wf h t flaws) 0 4 0 0 (by decide)
  rw [signed, first] at byte
  exact absurd byte (by decide)

theorem readBack_byte (h : Memory.wf m) (t : Tables) (flaws : List (Nat × Byte)) {i : Nat}
    (inside : i < (savedBytes t).length) :
    (readBack (savedImage m t flaws) t)[i]? = some (flawedByte flaws (4 + i) (savedBytes t)[i]) := by
  have written : Memory.read (writeUnsigned m t) (4 + i) = (savedBytes t)[i] := by
    rw [writeUnsigned, Memory.read_write h, if_pos (by simp; omega), List.getD_eq_getElem?_getD,
      List.getElem?_append_right (by simp)]
    simp [inside]
  rw [readBack, Memory.block_eq (savedImage_wf h t flaws)]
  simp only [List.getElem?_map, List.getElem?_range inside, Option.map_some, savedImage]
  rw [Memory.read_spoil_last (writeUnsigned_wf h t), written, flawedByte_saved t flaws inside]

/-- R179 stage 4: the read-back fails where the last flaw at an address gives another byte than was written. -/
theorem readBack_fails_iff (h : Memory.wf m) (t : Tables) (flaws : List (Nat × Byte)) :
    readBack (savedImage m t flaws) t ≠ savedBytes t ↔
      ∃ i b, (savedBytes t)[i]? = some b ∧ flawedByte flaws (4 + i) b ≠ b := by
  constructor
  · intro differs
    by_contra same
    push Not at same
    refine differs (List.ext_getElem? fun i => ?_)
    by_cases inside : i < (savedBytes t).length
    · rw [readBack_byte h t flaws inside, List.getElem?_eq_getElem inside,
        same i _ (List.getElem?_eq_getElem inside)]
    · rw [List.getElem?_eq_none (by simpa [readBack] using inside), List.getElem?_eq_none (by omega)]
  · rintro ⟨i, b, written, flawed⟩ same
    obtain ⟨inside, rfl⟩ := List.getElem?_eq_some_iff.1 written
    have found := readBack_byte h t flaws inside
    rw [same, written] at found
    exact flawed (Option.some.inj found).symm

/-- A byte that reads back otherwise than written has a flaw at its address. -/
theorem flaw_of_flawedByte {flaws : List (Nat × Byte)} {x : Nat} {b : Byte} (h : flawedByte flaws x b ≠ b) :
    ∃ f ∈ flaws, f.1 = x := by
  by_contra no
  push Not at no
  refine h ?_
  rw [flawedByte, List.filter_eq_nil_iff.2 (by simpa using no)]
  rfl

theorem exec_imageSaveComplete {tag : Byte} {copy : Tables} {rest : List MemOp} (live : s.live = true)
    (queue : s.store.queue = .imageSave tag copy :: rest) (flaws : List (Nat × Byte)) :
    exec (.imageSaveComplete flaws) s =
      .next (({ s with store := { s.store with queue := rest } } : State).saveEnds tag copy flaws) := by
  rw [← State.leaveMemory_of_queue queue]
  show Host.Outcome.next (s.imageSaveComplete flaws) = _
  simp [State.imageSaveComplete, live, queue]

section saveEnds
variable (s) (tag : Byte) (copy : Tables) (flaws : List (Nat × Byte))

theorem State.saveEnds_shared : (s.saveEnds tag copy flaws).memory.rows = s.memory.rows ∧
    EventFlag.imageEvent.of (s.saveEnds tag copy flaws).trunk.flags = true := by
  unfold State.saveEnds
  dsimp only
  split <;> exact ⟨rfl, TrunkUnit.raise_sets ..⟩

/-- R179: every byte read back as written. -/
theorem State.saveEnds_good (same : readBack (savedImage s.memory.image copy flaws) copy = savedBytes copy) :
    (s.saveEnds tag copy flaws).loader.image = .valid ∧
    (s.saveEnds tag copy flaws).trunk.replies = s.trunk.replies ++ [⟨tag, 0x08, .done, []⟩] ∧
    (s.saveEnds tag copy flaws).memory.image =
      Memory.write (savedImage s.memory.image copy flaws) 0 Config.signature := by
  have ends : s.saveEnds tag copy flaws = _ := if_pos same
  rw [ends]
  exact ⟨rfl, by simp [State.setImageStatus, State.setImage, codeSaveImage], rfl⟩

/-- R179: some byte read back otherwise. -/
theorem State.saveEnds_bad (differs : readBack (savedImage s.memory.image copy flaws) copy ≠ savedBytes copy) :
    (s.saveEnds tag copy flaws).loader.image = .invalid .noSignature ∧
    (s.saveEnds tag copy flaws).trunk.replies = s.trunk.replies ++ [⟨tag, 0x08, .failed, []⟩] ∧
    (s.saveEnds tag copy flaws).memory.image = savedImage s.memory.image copy flaws := by
  have ends : s.saveEnds tag copy flaws = _ := if_neg differs
  rw [ends]
  exact ⟨rfl, by simp [State.setImageStatus, State.setImage, codeSaveImage], rfl⟩

end saveEnds

/-- The signature does not touch header and body behind it. -/
theorem signed_block (h : Memory.wf m) (t : Tables) (same : readBack m t = savedBytes t) :
    Memory.block (Memory.write m 0 Config.signature) 0 (4 + (savedBytes t).length) = Config.signature ++ savedBytes t := by
  have signed := Memory.write_wf h 0 Config.signature
  rw [← List.take_append_drop 4 (Memory.block _ 0 _), Memory.take_block signed _ _ _ (by omega),
    Memory.drop_block signed, Nat.add_sub_cancel_left]
  have behind : Memory.block (Memory.write m 0 Config.signature) (0 + 4) (savedBytes t).length = savedBytes t :=
    (Memory.block_write_other h 0 4 _ Config.signature (.inr (le_refl 4))).trans same
  rw [behind]
  exact congrArg (· ++ savedBytes t) (Memory.block_write h 0 Config.signature)

/-- Settles O21: the read-back decides (`readBack_fails_iff`), and each of its two ends leaves what R179 gives. -/
theorem saveCompletes : Obligations.SaveCompletes := by
  intro flaws s tag copy rest live canonical queue
  refine ⟨_, exec_imageSaveComplete live queue flaws, by simp, by simp, (State.saveEnds_shared ..).1,
    (State.saveEnds_shared ..).2, State.saveEnds_op .., ?_⟩
  have fails := readBack_fails_iff canonical copy flaws
  by_cases same : readBack (savedImage s.memory.image copy flaws) copy = savedBytes copy
  · obtain ⟨status, replies, image⟩ :=
      State.saveEnds_good { s with store := { s.store with queue := rest } } tag copy flaws same
    refine ⟨.inl ⟨status, replies, ?_⟩, fun invalid => ?_, fun flawed => absurd same (fails.2 flawed)⟩
    · rw [image]
      exact signed_block (savedImage_wf canonical copy flaws) copy same
    · rw [status] at invalid
      cases invalid
  · obtain ⟨status, replies, image⟩ :=
      State.saveEnds_bad { s with store := { s.store with queue := rest } } tag copy flaws same
    refine ⟨.inr ⟨status, replies, ?_, ?_⟩, fun _ => fails.1 same, fun _ => status⟩
    · rw [image]
      exact savedImage_unsigned canonical copy flaws
    · obtain ⟨i, b, written, flawed⟩ := fails.1 same
      obtain ⟨f, mem, address⟩ := flaw_of_flawedByte flawed
      have inside := (List.getElem?_eq_some_iff.1 written).1
      exact ⟨f, mem, by omega, by omega⟩

end Sys2Proof.Machine
end

section
/-! IMAGE_LOAD (R176, R177): the five stages of the judgement in plain words of the header's bytes, and the load of a saved
image. -/

namespace Sys2Proof.Machine

open Sys2Proof

variable {s : State} {m : List Host.Cell} {t : Tables}

/-! ### The region read from its first bytes -/

/-- The first bytes of a block, in a region of any form. -/
theorem Memory.take_block_any (m : List Host.Cell) : ∀ {a n k : Nat}, k ≤ n →
    (Memory.block m a n).take k = Memory.block m a k := by
  induction m with
  | nil => intro a n k hk; simp [Memory.block, hk]
  | cons c m ih =>
    intro a n k hk
    unfold Memory.block
    split
    · exact ih hk
    · rename_i ahead
      by_cases far : a + n ≤ c.1
      · rw [if_pos far, if_pos (by omega), List.take_replicate, Nat.min_eq_left hk]
      · rw [if_neg far]
        by_cases near : a + k ≤ c.1
        · rw [if_pos near, List.take_append_of_le_length (by simp; omega), List.take_replicate,
            Nat.min_eq_left (by omega)]
        · rw [if_neg near, List.take_append, List.take_of_length_le (by simp; omega), List.length_replicate,
            show k - (c.1 - a) = k - (c.1 - a) - 1 + 1 by omega, List.take_succ_cons, ih (by omega),
            show k - (c.1 - a) - 1 = a + k - c.1 - 1 by omega]

/-! ### The directory (R176) -/

/-- Exactly one of `f 0`, …, `f (n - 1)` passes `p`. -/
theorem length_filter_range_eq_one {α : Type} (f : Nat → α) (p : α → Bool) (n : Nat) :
    (((List.range n).map f).filter p).length = 1 ↔
      ∃ i, i < n ∧ p (f i) = true ∧ ∀ j, j < n → p (f j) = true → j = i := by
  have card : (((List.range n).map f).filter p).length = ((Finset.range n).filter fun i => p (f i) = true).card := by
    rw [List.filter_map, List.length_map]
    simp only [Finset.card, Finset.filter, Finset.range, Multiset.range, Multiset.filter_coe, Multiset.coe_card,
      Function.comp_def, Bool.decide_eq_true]
  rw [card, Finset.card_eq_one]
  simp only [Finset.ext_iff, Finset.mem_filter, Finset.mem_range, Finset.mem_singleton]
  constructor
  · rintro ⟨i, only⟩
    obtain ⟨lt, passes⟩ := (only i).2 rfl
    exact ⟨i, lt, passes, fun j hj pj => (only j).1 ⟨hj, pj⟩⟩
  · rintro ⟨i, lt, passes, only⟩
    exact ⟨i, fun j => ⟨fun hj => only j hj.1 hj.2, fun hj => hj ▸ ⟨lt, passes⟩⟩⟩

/-- The table that the `i`-th entry of a header's directory names, by its code. -/
def namedCode (header : List Byte) (i : Nat) : Nat := rd8 header (11 + 9 * i)

/-- R177 stage 2: each of the stored tables is named by one entry only. -/
theorem directoryComplete_iff (header : List Byte) : directoryComplete (directoryOf header) = true ↔
    ∀ id ∈ TableId.stored, ∃ i, i < 17 ∧ namedCode header i = id.code ∧
      ∀ j, j < 17 → namedCode header j = id.code → j = i := by
  simp only [directoryComplete, directoryOf, List.all_eq_true, beq_iff_eq, length_filter_range_eq_one, namedCode]

/-- Then every entry names a stored table: 17 entries name 17 tables. -/
theorem named_of_complete {header : List Byte} (complete : directoryComplete (directoryOf header) = true) {i : Nat}
    (hi : i < 17) : ∃ id, TableId.ofCode (namedCode header i) = some id := by
  have named := (directoryComplete_iff header).1 complete
  choose! place inside code only using named
  have injective : Set.InjOn place (TableId.stored.toFinset : Set TableId) := by
    intro a ha b hb same
    have ha := List.mem_toFinset.1 (Finset.mem_coe.1 ha)
    have hb := List.mem_toFinset.1 (Finset.mem_coe.1 hb)
    have codes : a.code = b.code := (code a ha).symm.trans ((congrArg (namedCode header) same).trans (code b hb))
    exact Option.some.inj ((ofCode_code a ha).symm.trans ((congrArg TableId.ofCode codes).trans (ofCode_code b hb)))
  have all : TableId.stored.toFinset.image place = Finset.range 17 := by
    refine Finset.eq_of_subset_of_card_le (fun j hj => ?_) ?_
    · obtain ⟨id, hid, rfl⟩ := Finset.mem_image.1 hj
      exact Finset.mem_range.2 (inside id (List.mem_toFinset.1 hid))
    · rw [Finset.card_image_of_injOn injective]
      decide
  obtain ⟨id, hid, rfl⟩ := Finset.mem_image.1 (all ▸ Finset.mem_range.2 hi)
  have hid := List.mem_toFinset.1 hid
  exact ⟨id, by rw [code id hid, ofCode_code id hid]⟩

theorem TableId.wholeLength_eq (id : TableId) :
    id.wholeLength = ((List.range id.entries).map id.entryLength).sum := by
  simp [TableId.wholeLength, TableId.runLength]

/-- R177 stage 3. -/
theorem directory_fits_iff {header : List Byte} (complete : directoryComplete (directoryOf header) = true) (bodyLength : Nat) :
    (directoryOf header).all (DirEntry.fits bodyLength) = true ↔
      ∀ i, i < 17 → rd32 header (12 + 9 * i) + rd32 header (16 + 9 * i) ≤ bodyLength ∧
        ∀ id, TableId.ofCode (namedCode header i) = some id →
          rd32 header (16 + 9 * i) = ((List.range id.entries).map id.entryLength).sum := by
  simp only [directoryOf, List.all_map, List.all_eq_true, List.mem_range, Function.comp_def, DirEntry.fits,
    Bool.and_eq_true, decide_eq_true_eq]
  refine forall_congr' fun i => forall_congr' fun hi => and_congr_right fun _ => ?_
  obtain ⟨id, code⟩ := named_of_complete complete hi
  rw [show rd8 header (11 + 9 * i) = namedCode header i from rfl, code]
  simp [TableId.wholeLength_eq]

/-- R177 stage 5: what the directory loads, entry by entry. -/
theorem loads_directory (header body : List Byte) (t : Tables) :
    (directoryOf header).foldl (fun t e => t.loadTable body e) t =
      (List.range 17).foldl (fun u i => match TableId.ofCode (namedCode header i) with
        | some id => u.storeRun id 0 id.entries ((body.drop (rd32 header (12 + 9 * i))).take (rd32 header (16 + 9 * i)))
        | none => u) t := by
  rw [directoryOf, List.foldl_map]
  rfl

/-! ### The stages (R177) -/

section stages
variable {header : List Byte} (head : Memory.block m 0 Config.headerLength = header)
include head

theorem judgeImage_format (signed : header.take 4 = Config.signature)
    (bad : ¬(rd8 header 4 = Config.formatVersion ∧ directoryComplete (directoryOf header) = true)) :
    judgeImage m t = .error .format := by
  subst head
  unfold judgeImage
  rw [if_neg (not_not.2 signed), if_pos]
  rwa [Bool.not_eq_true', ← Bool.not_eq_true, ← not_and_or]

variable (signed : header.take 4 = Config.signature)
  (formatted : rd8 header 4 = Config.formatVersion ∧ directoryComplete (directoryOf header) = true)
include signed formatted

theorem judgeImage_length (bad : ¬(rd32 header 5 ≤ Config.imageRegion - Config.headerLength ∧
      (directoryOf header).all (DirEntry.fits (rd32 header 5)) = true)) : judgeImage m t = .error .length := by
  subst head
  unfold judgeImage
  rw [if_neg (not_not.2 signed), if_neg (by simp [formatted]), if_pos]
  rwa [← not_le, Bool.not_eq_true', ← Bool.not_eq_true, ← not_and_or]

variable (measured : rd32 header 5 ≤ Config.imageRegion - Config.headerLength ∧
    (directoryOf header).all (DirEntry.fits (rd32 header 5)) = true)
  {body : List Byte} (holds : Memory.block m Config.headerLength (rd32 header 5) = body)
include measured holds

theorem judgeImage_check (bad : (crc16 body).toNat ≠ rd16 header 9) : judgeImage m t = .error .check := by
  subst head holds
  unfold judgeImage
  rw [if_neg (not_not.2 signed), if_neg (by simp [formatted]), if_neg (by rw [measured.2]; simpa using measured.1),
    if_pos bad]

variable (checked : (crc16 body).toNat = rd16 header 9) {loaded : Tables}
  (loads : (directoryOf header).foldl (fun t e => t.loadTable body e) t = loaded)
include checked loads

theorem judgeImage_validation {id : TableId} {entry : Nat} (fails : loaded.validate = some (id, entry)) :
    judgeImage m t = .error (.validation id entry) := by
  subst head holds loads
  unfold judgeImage
  rw [if_neg (not_not.2 signed), if_neg (by simp [formatted]), if_neg (by rw [measured.2]; simpa using measured.1),
    if_neg (not_not.2 checked)]
  simp only [fails]

theorem judgeImage_good (passes : loaded.validate = none) :
    judgeImage m t = .ok (loaded.keepResetEnable t.enables) := by
  subst head holds loads
  unfold judgeImage
  rw [if_neg (not_not.2 signed), if_neg (by simp [formatted]), if_neg (by rw [measured.2]; simpa using measured.1),
    if_neg (not_not.2 checked)]
  simp only [passes]

end stages

/-! ### The load taken (R174, R177) -/

theorem exec_imageLoad (live : s.live = true) (loading : s.loader.op = .loading) (receiving : Bool) :
    exec (.imageLoad receiving) s = .next (s.endLoad receiving) :=
  congrArg Host.Outcome.next (if_pos (by simp [live, loading]))

theorem State.endLoad_good {tables : Tables} (judged : judgeImage s.memory.image s.tables = .ok tables) (receiving : Bool) :
    s.endLoad receiving = s.loadPasses tables receiving := by
  rw [State.endLoad, judged]

theorem State.endLoad_bad {reason : ImageReason} (judged : judgeImage s.memory.image s.tables = .error reason)
    (receiving : Bool) : s.endLoad receiving = s.loadFails reason := by
  rw [State.endLoad, judged]

/-- What the entry to RUN leaves of the state and sets in every one. -/
theorem State.enterRun_common (s : State) (receiving : Bool) :
    (s.enterRun receiving).loader = { s.loader with op := .run } ∧ (s.enterRun receiving).tables = s.tables ∧
    (s.enterRun receiving).memory = s.memory ∧ (s.enterRun receiving).trunk = s.trunk ∧
    (s.enterRun receiving).power = s.power ∧ (s.enterRun receiving).watch.guard = .normal ∧
    (s.enterRun receiving).bracket.state = .idle ∧ ∀ b, b < 4 → ((s.enterRun receiving).engine b).state = .free := by
  refine ⟨?_, ?_, ?_, ?_, ?_, ?_, ?_, fun b lt => ?_⟩ <;> simp [State.enterRun, State.applyStart, State.engine]
  rw [Tab.get_replicate (h := lt)]
  rfl

/-- Settles O20: the stages by the lemmas above, the header's bytes put for the directory, and the image of a save by
`judgeImage_saved`, whose directory loads each table from its own bytes (`loads_saved`). -/
theorem imageLoaded : Obligations.ImageLoaded := by
  refine ⟨fun receiving s live loading => ⟨fun tables judged => ?good, fun reason judged => ?bad, fun unsigned => ?none⟩,
    fun m t canonical => ?stages, fun m t w canonical own valid => ?saved⟩
  case good =>
    obtain ⟨loader, sameTables, memory, trunk, power, guard, bracket, engines⟩ := State.enterRun_common
      { s with tables := tables, loader := { s.loader with image := .valid } } receiving
    refine ⟨_, exec_imageLoad live loading receiving, ?_⟩
    rw [State.endLoad_good judged, State.loadPasses]
    generalize State.enterRun _ receiving = entered at *
    exact ⟨loader, sameTables, memory, trunk, power, guard, bracket, engines, rfl⟩
  case bad =>
    exact (exec_imageLoad live loading receiving).trans (congrArg Host.Outcome.next (State.endLoad_bad judged receiving))
  case none =>
    refine judgeImage_unsigned _ ?_
    rwa [Memory.take_block_any _ (by decide)]
  case stages =>
    intro header bodyLength body named offset length signed formatted measured checked loaded
    have formats : formatted ↔ rd8 header 4 = Config.formatVersion ∧ directoryComplete (directoryOf header) = true := by
      rw [directoryComplete_iff]
      refine and_congr_left fun _ => ?_
      exact ⟨fun h => congrArg BitVec.toNat h, fun h => BitVec.eq_of_toNat_eq h⟩
    have measures (h : formatted) : measured ↔ rd32 header 5 ≤ Config.imageRegion - Config.headerLength ∧
        (directoryOf header).all (DirEntry.fits (rd32 header 5)) = true := by
      rw [directory_fits_iff (formats.1 h).2]
      rfl
    have loads : (directoryOf header).foldl (fun t e => t.loadTable body e) t = loaded := loads_directory header body t
    refine ⟨fun unsigned => judgeImage_unsigned t unsigned,
      fun sig bad => judgeImage_format rfl sig (bad ∘ formats.2),
      fun sig format bad => judgeImage_length rfl sig (formats.1 format) (bad ∘ (measures format).2),
      fun sig format measure bad =>
        judgeImage_check rfl sig (formats.1 format) ((measures format).1 measure) rfl bad,
      fun sig format measure check => ?_⟩
    have measure := (measures format).1 measure
    have format := formats.1 format
    exact ⟨fun id entry fails => judgeImage_validation rfl sig format measure rfl check loads fails,
      fun passes => judgeImage_good rfl sig format measure rfl check loads passes⟩
  case saved =>
    have judged := judgeImage_saved canonical t w
    rw [loads_saved, own, valid] at judged
    exact judged

end Sys2Proof.Machine
end

section
/-! ENTER_CONFIG (R12, R59, R79, R98, R109, R124, R140, R148, R174): what the way out of RUN leaves of every block. -/

namespace Sys2Proof.Machine

open Sys2Proof

variable {s t : State}

/-! ### The open bracket aborted (R148) -/

theorem State.stopBracket_closed (closed : s.bracket.state.isOpen = false) : s.stopBracket = s := by
  rw [State.stopBracket, if_neg (by simp [closed])]

/-- The record that ENTER_CONFIG leaves: the request is counted. -/
def State.stopRecord (s : State) : AbortRecord :=
  s.bracket.abortRecord s.watch.guard .stop (some (min 65535 (s.bracket.ordinal + 1))) none

theorem State.stopBracket_open (opened : s.bracket.state.isOpen = true) : s.stopBracket.bracket = { s.bracket with
    ordinal := min 65535 (s.bracket.ordinal + 1)
    stage := []
    timer := none
    state := .aborted s.bracket.state.depth
    record := some s.stopRecord } := by
  rw [State.stopBracket, if_pos opened]
  exact State.abortBracket_bracket (s := s.countOrdinal) opened ..

theorem State.stopBracket_flags (opened : s.bracket.state.isOpen = true) :
    EventFlag.bracketAborted.of s.stopBracket.trunk.flags = true := by
  rw [State.stopBracket, if_pos opened]
  dsimp only
  rw [State.abortBracket_trunk (s := s.countOrdinal) opened]
  exact TrunkUnit.raiseAborted_sets ..

theorem State.stopBracket_replies (s : State) : s.stopBracket.trunk.replies = s.trunk.replies := by
  unfold State.stopBracket
  split
  · exact State.abortBracket_replies ..
  · rfl

/-! ### The port queue behind the operation in flight (R124) -/

/-- R124: the replies to the long requests among these operations. -/
def removedReplies (ops : List MemOp) : List Reply :=
  ops.filterMap fun op => match op with
    | .rowWrite tag _ _ _ => some ⟨tag, 0x04, .failed, []⟩
    | .rowRead tag _ _ => some ⟨tag, 0x03, .failed, []⟩
    | .imageSave tag _ => some ⟨tag, 0x08, .failed, []⟩
    | .activate _ _ => none

theorem State.failRemoved_replies (s : State) (ops : List MemOp) :
    (s.failRemoved ops).trunk.replies = s.trunk.replies ++ removedReplies ops ∧
    (s.failRemoved ops).trunk.flags = s.trunk.flags ∧ (s.failRemoved ops).trunk.reports = s.trunk.reports := by
  unfold State.failRemoved removedReplies
  induction ops generalizing s with
  | nil => simp
  | cons op ops ih =>
    obtain ⟨replies, flags, reports⟩ := ih _
    rw [List.foldl_cons, replies, flags, reports]
    cases op <;> simp [codeWriteTable, codeReadTable, codeSaveImage]

theorem State.flushMemory_trunk (s : State) : s.flushMemory.trunk.replies = s.trunk.replies ++ removedReplies s.store.queue.tail ∧
    s.flushMemory.trunk.flags = s.trunk.flags ∧ s.flushMemory.trunk.reports = s.trunk.reports := by
  have failed :=
    State.failRemoved_replies { s with store := { s.store with queue := s.store.queue.take 1 } } s.store.queue.tail
  unfold State.flushMemory
  dsimp only
  split <;> exact failed

theorem State.flushMemory_queue (s : State) : s.flushMemory.store.queue = s.store.queue.take 1 := by
  unfold State.flushMemory
  dsimp only
  split <;> simp

/-- R124: an ACTIVATE in flight orphans its bank, and no other changes. -/
theorem State.flushMemory_bank (s : State) {b : Nat} (lt : b < 4) :
    ∃ orphan, s.flushMemory.bank b = { s.bank b with orphan := orphan } ∧
      (orphan = true ↔ (s.bank b).orphan = true ∨ ∃ r rest, s.store.queue = .activate b r :: rest) := by
  unfold State.flushMemory State.bank
  cases queue : s.store.queue with
  | nil => exact ⟨(s.store.banks.get b).orphan, rfl, by simp⟩
  | cons op rest =>
    cases op with
    | activate b' r =>
      by_cases here : b' = b
      · subst here
        exact ⟨true, by simp [lt], by simp⟩
      · exact ⟨(s.store.banks.get b).orphan, by simp [here], by simp [here]⟩
    | rowWrite | rowRead | imageSave => exact ⟨(s.store.banks.get b).orphan, by simp, by simp⟩

/-! ### The way out of RUN (R174) -/

section leaveRun
variable (s)

/-- The blocks that the way out of RUN leaves, or puts at rest whatever they hold. -/
theorem State.leaveRun_blocks :
    (s.leaveRun.loader = { s.loader with op := .config } ∧ s.leaveRun.tables = s.tables ∧
      s.leaveRun.memory = s.memory ∧ s.leaveRun.power = s.power ∧ s.leaveRun.image = s.image ∧
      s.leaveRun.points = s.points) ∧
    s.leaveRun.seg = { s.seg with phase := .silent, replyTimer := none, urgent := [], log := [] } ∧
    s.leaveRun.watch = ⟨s.tables.watchRests false, .normal⟩ ∧ s.leaveRun.fog = .initial ∧
    s.leaveRun.heat = { s.heat with timer := none, arrivals := 0 } ∧
    s.leaveRun.zones = { s.zones with deliveries := [] } ∧
    s.leaveRun.store = ⟨s.stopBracket.flushMemory.store.banks.map Bank.rest, s.store.queue.take 1, []⟩ ∧
    s.leaveRun.engines = .replicate 4 .initial ∧ s.leaveRun.bracket = s.stopBracket.bracket := by
  simp [State.leaveRun, State.flushMemory_queue, State.watchEnterConfig, State.fogEnterConfig]

/-- What the two flags of the way out add to the trunk interface, behind the abort and the replies of the port queue. -/
theorem State.leaveRun_trunk : ∃ u : State, u.trunk = s.stopBracket.flushMemory.trunk ∧
    s.leaveRun.trunk = ((u.raiseIf (s.watch.guard != .normal) .guardChanged).raiseIf
      (s.tables.stationsInUse.any fun i => (s.fog.stations.get i).state != .unknown) .fogChanged).trunk := by
  refine ⟨{ s.stopBracket.flushMemory with bracket := s.stopBracket.bracket }, rfl, ?_⟩
  simp [State.leaveRun, State.watchEnterConfig, State.fogEnterConfig, State.raiseIf_trunk]

theorem State.leaveRun_replies :
    s.leaveRun.trunk.replies = s.trunk.replies ++ removedReplies s.store.queue.tail := by
  obtain ⟨u, behind, trunk⟩ := s.leaveRun_trunk
  rw [trunk, State.raiseIf_replies, State.raiseIf_replies, behind, (State.flushMemory_trunk _).1,
    State.stopBracket_replies]
  simp

/-- The flags of the way out: that of the abort, of a guard level that leaves its value, and of a station that does. -/
theorem State.leaveRun_flags :
    (s.bracket.state.isOpen = true → EventFlag.bracketAborted.of s.leaveRun.trunk.flags = true) ∧
    (s.watch.guard ≠ .normal → EventFlag.guardChanged.of s.leaveRun.trunk.flags = true) ∧
    ((∃ i, i < 8 ∧ s.tables.stationInUse i = true ∧ (s.fog.stations.get i).state ≠ .unknown) →
      EventFlag.fogChanged.of s.leaveRun.trunk.flags = true) := by
  obtain ⟨u, behind, trunk⟩ := s.leaveRun_trunk
  rw [trunk]
  refine ⟨fun opened => ?abort, fun level => ?guard, fun ⟨i, lt, used, known⟩ => ?fog⟩
  case abort =>
    refine ((u.raiseIf_flagsKept ..).trans (State.raiseIf_flagsKept ..)).kept _ ?_
    rw [behind, (State.flushMemory_trunk _).2.1]
    exact State.stopBracket_flags opened
  case guard =>
    exact (State.raiseIf_flagsKept ..).kept _ (u.raiseIf_sets (by simpa using level) _)
  case fog =>
    refine State.raiseIf_sets _ (List.any_eq_true.2 ⟨i, ?_, by simpa using known⟩) _
    exact List.mem_filter.2 ⟨List.mem_range.2 lt, used⟩

/-- With nothing to tell, the way out tells nothing. -/
theorem State.leaveRun_quiet (closed : s.bracket.state.isOpen = false) (level : s.watch.guard = .normal)
    (known : ∀ i, i < 8 → s.tables.stationInUse i = true → (s.fog.stations.get i).state = .unknown) :
    s.leaveRun.trunk.flags = s.trunk.flags ∧ s.leaveRun.trunk.reports = s.trunk.reports := by
  obtain ⟨u, behind, trunk⟩ := s.leaveRun_trunk
  have noFog : (s.tables.stationsInUse.any fun i => (s.fog.stations.get i).state != .unknown) = false := by
    refine List.any_eq_false.2 fun i hi => ?_
    obtain ⟨lt, used⟩ := List.mem_filter.1 hi
    simpa using known i (List.mem_range.1 lt) used
  have same : s.leaveRun.trunk = s.flushMemory.trunk := by
    rw [State.stopBracket_closed closed] at behind
    rw [trunk, noFog, level, ← behind]
    rfl
  rw [same]
  exact (s.flushMemory_trunk).2

/-- R124, R140: every bank IDLE, orphaned if it was or if its ACTIVATE is in flight. -/
theorem State.leaveRun_lighting {b : Nat} (lt : b < 4) :
    s.leaveRun.engine b = ⟨.free, none, none, false, 0, 0, none, []⟩ ∧
    ∃ orphan, s.leaveRun.bank b = { Bank.initial with orphan := orphan } ∧
      (orphan = true ↔ (s.bank b).orphan = true ∨ ∃ r rest, s.store.queue = .activate b r :: rest) := by
  obtain ⟨-, -, -, -, -, -, store, engines, -⟩ := s.leaveRun_blocks
  obtain ⟨orphan, bank, orphaned⟩ := s.stopBracket.flushMemory_bank lt
  refine ⟨?_, orphan, ?_, ?_⟩
  · rw [State.engine, engines, Tab.get_replicate (h := lt)]
    rfl
  · rw [State.bank, store, Tab.get_map _ _ _ lt]
    exact congrArg Bank.rest bank
  · rw [orphaned]
    simp [State.bank]

end leaveRun

/-! ### The request (R174) -/

/-- Settles O19: the way out of RUN block by block, behind the good frame and before the answer. -/
theorem enterConfigTaken : Obligations.EnterConfigTaken := by
  intro tag s serves
  have answers (left : State) (taken : s.goodFrame.enterConfig = (left, some (.plain .done))) :
      exec (.enterConfig tag) s = .next (left.place tag 0x07 .done []) :=
    congrArg Host.Outcome.next (State.request_answers serves taken tag codeEnterConfig)
  refine ⟨fun outside => answers _ ?_, fun run => ⟨_, answers s.goodFrame.leaveRun ?_, ?_⟩⟩
  · rw [State.enterConfig, if_neg (by simpa using outside)]
  · rw [State.enterConfig, if_pos (by simpa using run)]
  obtain ⟨⟨loader, tables, memory, power, image, points⟩, seg, watch, fog, heat, zones, store, engines, bracket⟩ :=
    s.goodFrame.leaveRun_blocks
  obtain ⟨aborted, guard, stations⟩ := s.goodFrame.leaveRun_flags
  have replies := s.goodFrame.leaveRun_replies
  have quiet := s.goodFrame.leaveRun_quiet
  have lighting (b : Nat) (lt : b < 4) := s.goodFrame.leaveRun_lighting lt
  generalize s.goodFrame.leaveRun = left at *
  have runs (k : Nat) (lt : k < 32) : left.watch.runs.get k = ⟨false, .idle, 0, none, !s.tables.chained k⟩ := by
    rw [watch, Tables.watchRests, Tab.get_mapIdx _ _ _ lt]
    rfl
  refine ⟨loader, tables, memory, power, image, points, seg, congrArg WatchUnit.guard watch,
    fun k lt => ⟨congrArg WatchRun.state (runs k lt), congrArg WatchRun.timer (runs k lt)⟩,
    ⟨congrArg FogUnit.unitState fog, congrArg FogUnit.demand fog, congrArg FogUnit.promotion fog⟩,
    heat, (congrArg ZoneUnit.runs zones :), (congrArg ZoneUnit.split zones :), fun b lt => ?resting,
    congrArg SceneStore.queue store, fun closed => ?closed, fun opened => ?opened, ?replies, ?watch, runs,
    fun i lt => ?station, congrArg FogUnit.runTimer fog, congrArg FogUnit.restTimer fog, congrArg FogUnit.served fog,
    zones, congrArg SceneStore.completions store, fun b lt => ?lighting, fun opened => ?bracket,
    fun level => ?guard, fun known => ?fog, fun closed level known => ?quiet⟩
  case resting =>
    obtain ⟨engine, orphan, bank, -⟩ := lighting b lt
    exact ⟨congrArg Engine.state engine, congrArg Bank.state bank⟩
  case closed => exact bracket.trans (by rw [State.stopBracket_closed (s := s.goodFrame) closed]; rfl)
  case opened =>
    have stopped := bracket.trans (State.stopBracket_open (s := s.goodFrame) opened)
    exact ⟨congrArg BracketUnit.state stopped, congrArg BracketUnit.stage stopped, congrArg BracketUnit.record stopped⟩
  case replies =>
    rw [State.place_trunk, (TrunkUnit.place_frame _ _).2.1, replies]
    rfl
  case watch => exact watch.trans (by rw [State.place_watch, watch])
  case station =>
    have stations : left.fog.stations = .replicate 8 .initial := congrArg FogUnit.stations fog
    exact (congrArg (Tab.get · i) stations).trans (Tab.get_replicate i _ lt)
  case lighting => exact lighting b lt
  case bracket =>
    have stopped := bracket.trans (State.stopBracket_open (s := s.goodFrame) opened)
    refine ⟨?_, ?_⟩
    · rw [State.place_bracket, stopped]
      rfl
    · rw [State.place_trunk, (TrunkUnit.place_frame _ _).1]
      exact aborted opened
  case guard =>
    rw [State.place_trunk, (TrunkUnit.place_frame _ _).1]
    exact guard level
  case fog =>
    rw [State.place_trunk, (TrunkUnit.place_frame _ _).1]
    exact stations known
  case quiet =>
    rw [State.place_trunk, (TrunkUnit.place_frame _ _).1, (TrunkUnit.place_frame _ _).2.2.1]
    exact quiet closed level known

end Sys2Proof.Machine
end

section
/-! RUN validation (R178): the first failure of each table and of all of them, in plain conditions (R2, R6, R13, R23, R24,
R42, R62 to R64, R81, R83, R84, R100, R101, R127, R163). -/

namespace Sys2Proof.Machine

open Sys2Proof

/-! ### The first entry that fails -/

/-- `found` is the first of `n` entries that does not fit, if there is one. -/
structure FirstFailure (fits : Nat → Prop) (n : Nat) (found : Option Nat) : Prop where
  none : found = none → ∀ i, i < n → fits i
  some : ∀ e, found = some e → e < n ∧ ¬ fits e ∧ ∀ i, i < e → fits i

section first
variable {fits : Nat → Prop} {n : Nat} {found : Option Nat}

theorem FirstFailure.none_iff (h : FirstFailure fits n found) : found = .none ↔ ∀ i, i < n → fits i := by
  refine ⟨h.none, fun all => ?_⟩
  cases which : found with
  | none => rfl
  | some e => exact absurd (all e (h.some e which).1) (h.some e which).2.1

/-- A table walked entry by entry. -/
theorem FirstFailure.of_first {α : Type} [Inhabited α] {t : Tab α n} {p : Nat → α → Bool}
    (iff : ∀ i, i < n → (p i (t.get i) = false ↔ fits i)) : FirstFailure fits n (t.first p) where
  none h i lt := (iff i lt).1 (Tab.first_none h i lt)
  some e h := by
    obtain ⟨lt, bad⟩ := Tab.first_some h
    rw [Tab.first_eq_find?, List.find?_range_eq_some] at h
    refine ⟨lt, fun good => ?_, fun i below => (iff i (below.trans lt)).1 (by simpa using h.2.2 i below)⟩
    rw [(iff e lt).2 good] at bad
    cases bad

/-- One entry more, behind those walked. -/
theorem FirstFailure.snoc (h : FirstFailure fits n found) {last : Option Nat} (good : last = .none → fits n)
    (bad : ∀ e, last = .some e → e = n ∧ ¬ fits n) : FirstFailure fits (n + 1) (found.or last) where
  none all i lt := by
    obtain ⟨before, here⟩ := Option.or_eq_none_iff.1 all
    obtain lt | rfl := Nat.lt_succ_iff_lt_or_eq.1 lt
    · exact h.none before i lt
    · exact good here
  some e all := by
    cases which : found with
    | some e' =>
      rw [which] at all
      cases all
      obtain ⟨lt, fails, earlier⟩ := h.some e which
      exact ⟨lt.trans (Nat.lt_succ_self n), fails, earlier⟩
    | none =>
      rw [which] at all
      obtain ⟨rfl, fails⟩ := bad e all
      exact ⟨Nat.lt_succ_self e, fails, h.none which⟩

/-- A table of one entry. -/
theorem FirstFailure.single {c : Prop} [Decidable c] (iff : c ↔ ¬ fits 0) :
    FirstFailure fits 1 (if c then Option.some 0 else .none) where
  none h i lt := by
    obtain rfl := Nat.lt_one_iff.1 lt
    by_contra bad
    rw [if_pos (iff.2 bad)] at h
    cases h
  some e h := by
    split at h
    next bad =>
      cases h
      exact ⟨Nat.one_pos, iff.1 bad, fun i lt => absurd lt (Nat.not_lt_zero i)⟩
    next => cases h

/-- A table that nothing checks unless it is in use. -/
theorem FirstFailure.ite {c : Prop} [Decidable c] (h : FirstFailure fits n found) :
    FirstFailure (fun i => ¬ c → fits i) n (if c then .none else found) where
  none all i lt unused := h.none (by rwa [if_neg unused] at all) i lt
  some e all := by
    split at all
    next => cases all
    next used =>
      obtain ⟨lt, bad, earlier⟩ := h.some e all
      exact ⟨lt, fun good => bad (good used), fun i below _ => earlier i below⟩

/-- One entry more, before those walked. -/
theorem FirstFailure.cons (h : FirstFailure (fun i => fits (i + 1)) n found) (front : fits 0) :
    FirstFailure fits (n + 1) (found.map (· + 1)) where
  none all i lt := by
    cases i with
    | zero => exact front
    | succ i => exact h.none (Option.map_eq_none_iff.1 all) i (Nat.lt_of_succ_lt_succ lt)
  some e all := by
    obtain ⟨e, which, rfl⟩ := Option.map_eq_some_iff.1 all
    obtain ⟨lt, bad, earlier⟩ := h.some e which
    refine ⟨Nat.succ_lt_succ lt, bad, fun i below => ?_⟩
    cases i with
    | zero => exact front
    | succ i => exact earlier i (Nat.lt_of_succ_lt_succ below)

theorem FirstFailure.front (bad : ¬ fits 0) : FirstFailure fits (n + 1) (Option.some 0) where
  none := by rintro ⟨⟩
  some := by
    rintro _ ⟨⟩
    exact ⟨Nat.succ_pos n, bad, fun i lt => absurd lt (Nat.not_lt_zero i)⟩

theorem FirstFailure.congr {fits' : Nat → Prop} (h : FirstFailure fits n found) (iff : ∀ i, fits i ↔ fits' i) :
    FirstFailure fits' n found := (funext fun i => propext (iff i) : fits = fits') ▸ h

end first

theorem Tab.any_take {α : Type} [Inhabited α] {n i : Nat} (t : Tab α n) (le : i ≤ n) (q : α → Bool) :
    (t.list.take i).any q = false ↔ ∀ j, j < i → q (t.get j) = false := by
  rw [Tab.list_eq_map, ← List.map_take, List.take_range, Nat.min_eq_left le, List.any_eq_false]
  simp

/-! ### One entry (R2, R13, R23, R42, R62 to R64, R83, R100) -/

section entries
variable (t : Tables)

theorem Tables.nodeFails_iff {i : Nat} (lt : i < 48) : t.nodeFails i (t.nodes.get i) = false ↔ t.entryFits .nodes i := by
  simp only [Tables.nodeFails, Tables.entryFits, Bool.and_eq_false_imp]
  refine forall_congr' fun present => ?_
  simp only [Bool.or_eq_false_iff, Bool.not_eq_false', within_iff, Tab.any_take t.nodes lt.le, NodeRec.takesSet, present,
    Bool.true_and, Bool.and_eq_false_imp, Bool.or_eq_true, beq_iff_eq, beq_eq_false_iff_ne, and_assoc]

theorem Tables.nodeKind_iff (address : Nat) (barred : NodeKind) :
    (match t.nodeOf address with
      | none => true
      | some n => n.kind == barred) = false ↔ ∃ n, t.nodeOf address = some n ∧ n.kind ≠ barred := by
  cases t.nodeOf address <;> simp

theorem Tables.pointFails_iff {i : Nat} (lt : i < 256) : t.pointFails i (t.points.get i) = false ↔ t.entryFits .points i := by
  simp only [Tables.pointFails, Tables.entryFits, Bool.and_eq_false_imp]
  refine forall_congr' fun mapped => ?_
  simp only [Bool.or_eq_false_iff, Bool.not_eq_false', within_iff, Tab.any_take t.points lt.le,
    decide_eq_false_iff_not, Int.not_lt, Nat.zero_le, true_and, Bool.and_eq_false_imp, Bool.and_eq_true, beq_iff_eq,
    beq_eq_false_iff_ne, and_assoc, not_and, and_imp, ne_eq]
  exact and_congr_left fun _ => t.nodeKind_iff ..

theorem Tables.channelFails_iff {i : Nat} (lt : i < 512) :
    t.channelFails i (t.channels.get i) = false ↔ t.entryFits .channels i := by
  simp only [Tables.channelFails, Tables.entryFits, Bool.and_eq_false_imp]
  refine forall_congr' fun mapped => ?_
  simp only [Bool.or_eq_false_iff, Bool.not_eq_false', within_iff, Tab.any_take t.channels lt.le,
    decide_eq_false_iff_not, Nat.not_lt, Nat.zero_le, true_and, Bool.and_eq_false_imp, Bool.and_eq_true, beq_iff_eq,
    beq_eq_false_iff_ne, and_assoc, not_and, and_imp, ne_eq]
  exact and_congr_left fun _ => t.nodeKind_iff ..

theorem WatchRec.modeFails_iff (r : WatchRec) : r.modeFails = false ↔ r.modeFits := by
  simp only [WatchRec.modeFails, WatchRec.modeFits, Bool.or_eq_false_iff, Bool.not_eq_false', twoValued_iff, and_assoc]
  refine and_congr ?mode (and_congr_left fun _ => ?severity)
  case mode =>
    cases r.mode
    case delay => cases r.edge <;> simp [within_iff]
    all_goals simp [within_iff, and_assoc]
  case severity => cases r.severity <;> simp

theorem Tables.watchInputFails_iff (r : WatchRec) : t.watchInputFails r = false ↔ t.inputFits r := by
  simp only [Tables.watchInputFails, Tables.inputFits, WatchRec.bandEmpty, Bool.or_eq_false_iff, Bool.not_eq_false',
    twoValued_iff, within_iff, decide_eq_true_eq, and_assoc]
  cases r.compare <;> cases r.stale <;> simp [within_iff] <;> tauto

theorem Tables.watchFails_iff (k : Nat) : t.watchFails k (t.watch.get k) = false ↔ t.entryFits .watch k := by
  simp only [Tables.watchFails, Tables.entryFits, Bool.or_eq_false_iff, Bool.not_eq_false', Bool.and_eq_false_imp,
    within_iff, Nat.zero_le, true_and, t.watchInputFails_iff, WatchRec.modeFails_iff, Bool.not_eq_true', beq_eq_false_iff_ne,
    bne_eq_false_iff_eq, and_assoc, ← imp_and, ne_eq]

theorem optNum_given_iff (o : OptNum) : o.given = true ↔ o.get ≠ none := by
  simp [OptNum.given, OptNum.get]

theorem Tables.stationFails_iff (r : FogMapRec) : t.stationFails r = false ↔
    (t.pointFits .rh r.humidity.get ∧ t.pointFits .temp r.air.get ∧ t.pointFits .temp r.chill.get ∧
        r.air.get ≠ r.chill.get) ∨
      (r.humidity.get = none ∧ r.air.get = none ∧ r.chill.get = none) := by
  have given (u : UnitKind) (o : OptNum) (h : t.pointFits u o.get) : o.given = true := by
    obtain ⟨p, named, -⟩ := h
    rw [optNum_given_iff, named]
    exact Option.some_ne_none p
  have absent (o : OptNum) : o.given = false ↔ o.get = none := by
    rw [← Bool.not_eq_true, optNum_given_iff, not_not]
  unfold Tables.stationFails
  split
  next used =>
    simp only [FogMapRec.inUse, Bool.and_eq_true, optNum_given_iff] at used
    simp only [Bool.or_eq_false_iff, Bool.not_eq_false', t.pointIs_iff, beq_eq_false_iff_ne, and_assoc]
    exact (or_iff_left fun none_ => used.1.1 none_.1).symm
  next unused =>
    simp only [Bool.or_eq_false_iff, absent, and_assoc]
    refine (or_iff_right fun fits => unused ?_).symm
    simp only [FogMapRec.inUse, given _ _ fits.1, given _ _ fits.2.1, given _ _ fits.2.2.1, Bool.and_self]

theorem Tables.tuneGood_iff (earlier : List Nat) (r : FogTuneRec) : t.tuneFails earlier r = false ↔
    r.fits ∧ ∀ ch, r.fan.get = some ch → t.refFits .fog earlier ch := by
  rw [Tables.tuneFails, Bool.or_eq_false_iff, r.outOfRange_iff, Bool.not_eq_false', t.optRefGood_iff]

theorem Tables.sinkFails_iff {i : Nat} (lt : i < 8) : t.sinkFails i (t.sinkMap.get i) = false ↔ t.entryFits .sinkMap i := by
  simp only [Tables.sinkFails, Tables.entryFits, SinkMapRec.inUse, Bool.and_eq_false_imp, Bool.or_eq_false_iff,
    Bool.not_eq_false', within_iff, Tab.any_take t.sinkMap lt.le, t.pointIs_iff, t.optRefGood_iff, bne_iff_ne,
    Bool.or_eq_true, beq_iff_eq, beq_eq_false_iff_ne, and_assoc, ne_eq]

theorem Tables.zoneFails_iff (z : Nat) : t.zoneFails z (t.zoneMap.get z) = false ↔ t.entryFits .zoneMap z := by
  simp only [Tables.zoneFails, Tables.entryFits, ZoneMapRec.inUse, Bool.and_eq_false_imp, Bool.or_eq_false_iff,
    Bool.not_eq_false', within_iff, t.pointIs_iff, t.refGood_iff, Bool.and_eq_true, and_assoc]

end entries

/-! ### The saturation table (R62) -/

/-- R62: entry `i` of the saturation pressures is in range and, but for the last, below the next. -/
def pressureFits (l : List Nat) (i : Nat) : Prop :=
  1 ≤ l.getD i 0 ∧ l.getD i 0 ≤ 16777215 ∧ (i + 1 < l.length → l.getD i 0 < l.getD (i + 1) 0)

theorem saturationFailure_succ : ∀ (l : List Nat) (k : Nat),
    saturationFailure (k + 1) l = (saturationFailure k l).map (· + 1)
  | [], _ => rfl
  | [a], k => by
    unfold saturationFailure
    split <;> rfl
  | a :: b :: rest, k => by
    unfold saturationFailure
    split
    · exact saturationFailure_succ (b :: rest) (k + 1)
    · rfl

theorem saturationFailure_first : ∀ l : List Nat, FirstFailure (pressureFits l) l.length (saturationFailure 0 l)
  | [] => ⟨fun _ i lt => absurd lt (Nat.not_lt_zero i), by rintro _ ⟨⟩⟩
  | [a] => by
    have fits : within 1 16777215 a = true ↔ pressureFits [a] 0 := by simp [within_iff, pressureFits]
    unfold saturationFailure
    split
    next good => exact ⟨fun _ i lt => (Nat.lt_one_iff.1 lt) ▸ fits.1 good, by rintro _ ⟨⟩⟩
    next bad => exact .front fun good => bad (fits.2 good)
  | a :: b :: rest => by
    have fits : (within 1 16777215 a && decide (a < b)) = true ↔ pressureFits (a :: b :: rest) 0 := by
      simp [within_iff, pressureFits, and_assoc]
    unfold saturationFailure
    split
    next good =>
      rw [saturationFailure_succ]
      refine .cons ((saturationFailure_first (b :: rest)).congr fun i => ?_) (fits.1 good)
      simp [pressureFits]
    next bad => exact .front fun good => bad (fits.2 good)

/-! ### Each table (R178) -/

section tables
variable (t : Tables)

/-- R178: the first failure of each table. -/
def Tables.failureOf : TableId → Option Nat
  | .nodes => t.nodes.first t.nodeFails
  | .points => t.points.first t.pointFails
  | .channels => t.channels.first t.channelFails
  | .schedule => t.scheduleFailure
  | .watch => t.watch.first t.watchFails
  | .fogMap => t.fogMapFailure
  | .saturation => if t.stationsInUse.isEmpty then none else saturationFailure 0 t.saturation.list
  | .fogTune => t.fogTuneFailure
  | .sinkMap => t.sinkMap.first t.sinkFails
  | .dispatch => if t.sinksInUse.isEmpty then none else if t.dispatchFails t.dispatch then some 0 else none
  | .sinkTune => t.sinkTune.first t.sinkTuneFails
  | .zoneMap => t.zoneMap.first t.zoneFails
  | .zoneSet => t.zoneSet.first t.zoneSetFails
  | .timers => if t.timers.outOfRange then some 0 else none
  | .lightProfile => if t.profile.outOfRange then some 0 else none
  | .thresholds | .flagEnables | .scenes | .info | .nodeState | .pointValues | .channelValues | .watchState | .fogResult
  | .dispatchResult | .zoneResult | .bankState | .abortRecord => none

theorem Tables.validate_eq : t.validate = validationOrder.findSome? fun id => (t.failureOf id).map (id, ·) := by
  have dispatch : (if t.sinksInUse.isEmpty then none
      else if t.dispatchFails t.dispatch then some (TableId.dispatch, 0) else none) =
      (t.failureOf .dispatch).map (TableId.dispatch, ·) := by
    unfold Tables.failureOf
    split_ifs <;> rfl
  have timers : (if t.timers.outOfRange then some (TableId.timers, 0) else none) =
      (t.failureOf .timers).map (TableId.timers, ·) := by
    unfold Tables.failureOf
    split_ifs <;> rfl
  have profile : (if t.profile.outOfRange then some (TableId.lightProfile, 0) else none) =
      (t.failureOf .lightProfile).map (TableId.lightProfile, ·) := by
    unfold Tables.failureOf
    split_ifs <;> rfl
  rw [Tables.validate, dispatch, timers, profile]
  exact List.findSome?_map (f := fun id => (t.failureOf id).map (id, ·)) (p := id) (l := validationOrder)

/-- A table that nothing checks while no `i` is in use. -/
theorem unused_iff {l : List Nat} {inUse : Nat → Bool} (iff : ∀ i, i ∈ l ↔ inUse i = true) :
    ¬ l.isEmpty = true ↔ ∃ i, inUse i = true := by
  simp only [List.isEmpty_iff, List.eq_nil_iff_forall_not_mem, not_forall, not_not, iff]

theorem Tables.fogMapFailure_first : FirstFailure (t.entryFits .fogMap) 9 t.fogMapFailure := by
  have walked : t.fogMapFailure = (t.fogMap.first fun _ r => t.stationFails r).or
      (if t.optRefGood .fog [] t.motor.get then none else some 8) := by
    unfold Tables.fogMapFailure
    cases t.fogMap.first fun _ r => t.stationFails r <;> rfl
  have motor := t.optRefGood_iff .fog [] t.motor.get
  rw [walked]
  refine .snoc (.of_first fun i lt => ?station) (fun none_ => ?good) fun e some_ => ?bad
  case station =>
    rw [Tables.entryFits, if_pos lt]
    exact t.stationFails_iff _
  case good =>
    split at none_
    next good => exact motor.1 good
    next => cases none_
  case bad =>
    split at some_
    next => cases some_
    next bad =>
      cases some_
      exact ⟨rfl, fun good => bad (motor.2 good)⟩

theorem Tables.fogTuneFailure_first : FirstFailure (t.entryFits .fogTune) 9 t.fogTuneFailure := by
  have walked : t.fogTuneFailure = (t.fogTune.first fun i r =>
      t.stationInUse i && t.tuneFails (t.motorRefs ++ t.fanRefs (List.range i)) r).or
        (if t.dehumid.outOfRange then some 8 else none) := by
    unfold Tables.fogTuneFailure
    cases t.fogTune.first fun i r => t.stationInUse i && t.tuneFails (t.motorRefs ++ t.fanRefs (List.range i)) r <;> rfl
  have times := fails_iff t.dehumid.outOfRange_iff
  rw [walked]
  refine .snoc (.of_first fun i lt => ?station) (fun none_ => ?good) fun e some_ => ?bad
  case station =>
    rw [Tables.entryFits, if_pos lt, Bool.and_eq_false_imp]
    exact imp_congr_right fun _ => t.tuneGood_iff _ _
  case good =>
    split at none_
    next => cases none_
    next good => exact not_not.1 (mt times.2 good)
  case bad =>
    split at some_
    next bad =>
      cases some_
      exact ⟨rfl, times.1 bad⟩
    next => cases some_

theorem Tables.saturationTable_first : FirstFailure (t.entryFits .saturation) 101
    (if t.stationsInUse.isEmpty then none else saturationFailure 0 t.saturation.list) := by
  have walked := saturationFailure_first t.saturation.list
  rw [t.saturation.len] at walked
  refine (FirstFailure.ite walked).congr fun i => imp_congr ?used ?fits
  case used => exact unused_iff fun i => by simp [Tables.stationsInUse, Tables.stationInUse]
  case fits => exact and_congr .rfl (and_congr .rfl (imp_congr (by rw [t.saturation.len]; omega) .rfl))

theorem Tables.dispatchFailure_first : FirstFailure (t.entryFits .dispatch) 1
    (if t.sinksInUse.isEmpty then none else if t.dispatchFails t.dispatch then some 0 else none) := by
  have single : FirstFailure (fun _ => t.dispatchFits t.dispatch) 1
      (if t.dispatchFails t.dispatch then some 0 else none) := .single (fails_iff (t.dispatchFails_iff _))
  refine (FirstFailure.ite single).congr fun i => imp_congr ?used .rfl
  exact unused_iff fun i => by simp [Tables.sinksInUse, Tables.sinkInUse]

/-- R178: the first failure of every table but SCHEDULE, in the conditions of its chapter. -/
theorem Tables.failureOf_first {id : TableId} (checked : id ∈ validationOrder) (other : id ≠ .schedule) :
    FirstFailure (t.entryFits id) id.entries (t.failureOf id) := by
  cases id
  case nodes => exact .of_first fun i lt => t.nodeFails_iff lt
  case points => exact .of_first fun i lt => t.pointFails_iff lt
  case channels => exact .of_first fun i lt => t.channelFails_iff lt
  case schedule => exact absurd rfl other
  case watch => exact .of_first fun k _ => t.watchFails_iff k
  case fogMap => exact t.fogMapFailure_first
  case saturation => exact t.saturationTable_first
  case fogTune => exact t.fogTuneFailure_first
  case sinkMap => exact .of_first fun i lt => t.sinkFails_iff lt
  case dispatch => exact t.dispatchFailure_first
  case sinkTune =>
    exact .of_first fun i _ => by rw [← Bool.not_eq_true, t.sinkTuneFails_iff, not_and, not_not]; rfl
  case zoneMap => exact .of_first fun z _ => t.zoneFails_iff z
  case zoneSet =>
    exact .of_first fun z _ => by rw [← Bool.not_eq_true, t.zoneSetFails_iff, not_and, not_not]; rfl
  case timers => exact .single (by rw [t.timers.outOfRange_iff, Tables.entryFits]; omega)
  case lightProfile => exact .single (fails_iff t.profile.outOfRange_iff)
  all_goals exact absurd checked (by decide)

end tables

/-! ### SCHEDULE (R6) -/

section schedule
variable (t : Tables)

/-- R6 cases 1 and 2: the count, the rate and the timeout. -/
def Tables.headFits : Prop :=
  1 ≤ t.scheduleHead.slotCount ∧ t.scheduleHead.slotCount ≤ 128 ∧ t.scheduleHead.bitRate ≤ 3 ∧
    2 ≤ t.scheduleHead.replyTimeout ∧ t.scheduleHead.replyTimeout ≤ 100

/-- R6 cases 3 and 4: slot `n` is of this kind, and its address names no node or one that the kind bars. -/
def Tables.slotBad (kind : SlotKind) (bars : NodeKind) (n : Nat) : Prop :=
  n < t.scheduleHead.slotCount ∧ (t.slots.get n).kind = kind ∧
    (t.nodeOf (t.slots.get n).address = none ∨ ∃ r, t.nodeOf (t.slots.get n).address = some r ∧ r.kind = bars)

/-- R6 case 5: some slot sends. -/
def Tables.sends : Prop :=
  ∃ i, i < t.scheduleHead.slotCount ∧ ((t.slots.get i).kind = .poll ∨ (t.slots.get i).kind = .set)

/-- The slots that the count takes in, as a list. -/
def Tables.usedSlots : List SlotRec := t.slots.list.take t.scheduleHead.slotCount

/-- The first slot of a kind that its node bars, from 1 on. -/
def Tables.firstBad (kind : SlotKind) : Option Nat := firstFrom (fun _ r => r.kind == kind && t.slotFails r) 1 t.usedSlots

variable {t}

theorem Tables.scheduleFailure_head (bad : ¬ t.headFits) : t.scheduleFailure = some 0 := by
  have head : (!within 1 128 t.scheduleHead.slotCount) = true ∨
      (!within 0 3 t.scheduleHead.bitRate || !within 2 100 t.scheduleHead.replyTimeout) = true := by
    by_contra good
    simp only [not_or, Bool.not_eq_true, Bool.or_eq_false_iff, Bool.not_eq_false', within_iff] at good
    obtain ⟨⟨low, high⟩, ⟨-, rate⟩, least, most⟩ := good
    exact bad ⟨low, high, rate, least, most⟩
  unfold Tables.scheduleFailure
  obtain count | rest := head
  · exact if_pos count
  · dsimp only
    rw [if_pos rest, ite_self]

section good
variable (good : t.headFits)
include good

theorem Tables.scheduleFailure_good : t.scheduleFailure = (t.firstBad .poll).or ((t.firstBad .set).or
    (if t.usedSlots.any fun r => r.kind == .poll || r.kind == .set then none else some 0)) := by
  obtain ⟨low, high, rate, least, most⟩ := good
  have count : ¬ (!within 1 128 t.scheduleHead.slotCount) = true := by simp [within_iff, low, high]
  have line : ¬ (!within 0 3 t.scheduleHead.bitRate || !within 2 100 t.scheduleHead.replyTimeout) = true := by
    simp [within_iff, rate, least, most]
  unfold Tables.scheduleFailure
  dsimp only
  rw [if_neg count, if_neg line]
  unfold Tables.firstBad Tables.usedSlots
  cases firstFrom (fun _ r => r.kind == .poll && t.slotFails r) 1 (t.slots.list.take t.scheduleHead.slotCount)
  · cases firstFrom (fun _ r => r.kind == .set && t.slotFails r) 1 (t.slots.list.take t.scheduleHead.slotCount) <;> rfl
  · rfl

theorem Tables.usedSlots_getElem? (n : Nat) : t.usedSlots[n]? =
    if n < t.scheduleHead.slotCount then some (t.slots.get n) else none := by
  have small := good.2.1
  rw [Tables.usedSlots, Tab.list_eq_map, ← List.map_take, List.take_range, Nat.min_eq_left small, List.getElem?_map]
  by_cases lt : n < t.scheduleHead.slotCount <;> simp [lt]

theorem Tables.sends_iff : (t.usedSlots.any fun r => r.kind == .poll || r.kind == .set) = true ↔ t.sends := by
  rw [List.any_eq_true, Tables.sends]
  constructor
  · rintro ⟨r, mem, kind⟩
    obtain ⟨n, at_⟩ := List.mem_iff_getElem?.1 mem
    rw [Tables.usedSlots_getElem? good] at at_
    split at at_
    next lt =>
      cases at_
      exact ⟨n, lt, by simpa using kind⟩
    next => cases at_
  · rintro ⟨n, lt, kind⟩
    have at_ := (Tables.usedSlots_getElem? good n).trans (if_pos lt)
    exact ⟨t.slots.get n, List.mem_iff_getElem?.2 ⟨n, at_⟩, by simpa using kind⟩

section bars
variable {kind : SlotKind} {bars : NodeKind} (pair : kind = .poll ∧ bars = .actuator ∨ kind = .set ∧ bars = .sensor)
include pair

omit good in
theorem Tables.slotFails_iff (r : SlotRec) : (r.kind == kind && t.slotFails r) = true ↔
    r.kind = kind ∧ (t.nodeOf r.address = none ∨ ∃ n, t.nodeOf r.address = some n ∧ n.kind = bars) := by
  rw [Bool.and_eq_true, beq_iff_eq]
  refine and_congr_right fun same => ?_
  unfold Tables.slotFails
  obtain ⟨rfl, rfl⟩ | ⟨rfl, rfl⟩ := pair <;> rw [same] <;> cases t.nodeOf r.address <;> simp

theorem Tables.firstBad_eq_none (none_ : ∀ j, ¬ t.slotBad kind bars j) : t.firstBad kind = none := by
  refine firstFrom_eq_none fun j r at_ => ?_
  rw [Tables.usedSlots_getElem? good] at at_
  split at at_
  next lt =>
    cases at_
    exact Bool.eq_false_iff.2 fun bad => none_ j ⟨lt, (Tables.slotFails_iff pair _).1 bad⟩
  next => cases at_

theorem Tables.firstBad_eq_some {n : Nat} (bad : t.slotBad kind bars n) (earlier : ∀ j, j < n → ¬ t.slotBad kind bars j) :
    t.firstBad kind = some (n + 1) := by
  have at_ := (Tables.usedSlots_getElem? good n).trans (if_pos bad.1)
  rw [Nat.add_comm]
  refine firstFrom_eq_some at_ ((Tables.slotFails_iff pair _).2 bad.2) fun j r below at_ => ?_
  have lt := below.trans bad.1
  cases (at_.symm.trans ((Tables.usedSlots_getElem? good j).trans (if_pos lt)))
  exact Bool.eq_false_iff.2 fun bad => earlier j below ⟨lt, (Tables.slotFails_iff pair _).1 bad⟩

/-- Either no slot of the kind is barred by its node, or a first one is. -/
theorem Tables.firstBad_none_iff : t.firstBad kind = none ↔ ∀ j, ¬ t.slotBad kind bars j := by
  refine ⟨fun none_ => ?_, Tables.firstBad_eq_none good pair⟩
  by_contra some_
  push Not at some_
  classical
  have found := Tables.firstBad_eq_some good pair (Nat.find_spec some_) fun j below => Nat.find_min some_ below
  rw [none_] at found
  cases found

end bars

/-- R6: SCHEDULE passes where its head does, no slot is barred and some slot sends. -/
theorem Tables.scheduleFailure_none_iff : t.scheduleFailure = none ↔
    (∀ j, ¬ t.slotBad .poll .actuator j) ∧ (∀ j, ¬ t.slotBad .set .sensor j) ∧ t.sends := by
  have sends : (if t.usedSlots.any fun r => r.kind == .poll || r.kind == .set then none else some 0) = none ↔ t.sends := by
    rw [← Tables.sends_iff good]
    split <;> simp [*]
  rw [Tables.scheduleFailure_good good, Option.or_eq_none_iff, Option.or_eq_none_iff,
    Tables.firstBad_none_iff good (.inl ⟨rfl, rfl⟩), Tables.firstBad_none_iff good (.inr ⟨rfl, rfl⟩), sends]

end good

theorem Tables.not_slotBad_iff (kind : SlotKind) (bars : NodeKind) : (∀ j, ¬ t.slotBad kind bars j) ↔
    ∀ i, i < t.scheduleHead.slotCount → (t.slots.get i).kind = kind →
      ∃ n, t.nodeOf (t.slots.get i).address = some n ∧ n.kind ≠ bars := by
  refine forall_congr' fun i => ?_
  rw [Tables.slotBad, not_and, not_and]
  refine imp_congr_right fun _ => imp_congr_right fun _ => ?_
  cases t.nodeOf (t.slots.get i).address <;> simp

theorem Tables.scheduleFailure_fits : t.scheduleFailure = none ↔ t.scheduleFits := by
  have split : t.scheduleFits ↔ t.headFits ∧
      (∀ j, ¬ t.slotBad .poll .actuator j) ∧ (∀ j, ¬ t.slotBad .set .sensor j) ∧ t.sends := by
    rw [Tables.not_slotBad_iff, Tables.not_slotBad_iff]
    unfold Tables.scheduleFits Tables.headFits Tables.sends
    simp only [and_assoc, forall_and]
  rw [split]
  by_cases good : t.headFits
  · rw [Tables.scheduleFailure_none_iff good, and_iff_right good]
  · rw [Tables.scheduleFailure_head good]
    simp [good]

/-- R6: the entry that a SCHEDULE which fails is named by (log 11). -/
theorem Tables.scheduleFailure_entry {entry : Nat} (fails : t.scheduleFailure = some entry) :
    (¬ t.headFits → entry = 0) ∧
    (∀ n, t.headFits → t.slotBad .poll .actuator n → (∀ j, j < n → ¬ t.slotBad .poll .actuator j) → entry = n + 1) ∧
    (∀ n, t.headFits → (∀ j, ¬ t.slotBad .poll .actuator j) → t.slotBad .set .sensor n →
      (∀ j, j < n → ¬ t.slotBad .set .sensor j) → entry = n + 1) ∧
    (t.headFits → (∀ j, ¬ t.slotBad .poll .actuator j ∧ ¬ t.slotBad .set .sensor j) → entry = 0) := by
  refine ⟨fun bad => ?head, fun n good bad earlier => ?poll, fun n good noPoll bad earlier => ?set, fun good no => ?sends⟩
  case head =>
    rw [Tables.scheduleFailure_head bad] at fails
    exact (Option.some.inj fails).symm
  case poll =>
    rw [Tables.scheduleFailure_good good, Tables.firstBad_eq_some good (.inl ⟨rfl, rfl⟩) bad earlier] at fails
    exact (Option.some.inj fails).symm
  case set =>
    rw [Tables.scheduleFailure_good good, Tables.firstBad_eq_none good (.inl ⟨rfl, rfl⟩) noPoll,
      Tables.firstBad_eq_some good (.inr ⟨rfl, rfl⟩) bad earlier] at fails
    exact (Option.some.inj fails).symm
  case sends =>
    rw [Tables.scheduleFailure_good good, Tables.firstBad_eq_none good (.inl ⟨rfl, rfl⟩) fun j => (no j).1,
      Tables.firstBad_eq_none good (.inr ⟨rfl, rfl⟩) fun j => (no j).2, Option.none_or, Option.none_or] at fails
    split at fails
    next => cases fails
    next => exact (Option.some.inj fails).symm

end schedule

/-! ### All tables, in their order (R178) -/

section validate
variable (t : Tables)

theorem Tables.failureOf_fits {id : TableId} (checked : id ∈ validationOrder) : t.failureOf id = none ↔ t.fits id := by
  unfold Tables.fits
  split
  next schedule =>
    subst schedule
    exact t.scheduleFailure_fits
  next other => exact (t.failureOf_first checked other).none_iff

theorem Tables.validate_none_iff : t.validate = none ↔ ∀ id ∈ validationOrder, t.fits id := by
  rw [t.validate_eq, List.findSome?_eq_none_iff]
  refine forall_congr' fun id => forall_congr' fun checked => ?_
  rw [Option.map_eq_none_iff, t.failureOf_fits checked]

/-- R178: the table named is the first that does not fit. -/
theorem Tables.validate_some {id : TableId} {entry : Nat} (fails : t.validate = some (id, entry)) :
    (∃ before after, validationOrder = before ++ id :: after ∧ ∀ e ∈ before, t.fits e) ∧ id ∈ validationOrder ∧
      t.failureOf id = some entry := by
  rw [t.validate_eq, List.findSome?_eq_some_iff] at fails
  obtain ⟨before, id', after, order, found, none_⟩ := fails
  obtain ⟨entry', failure, same⟩ := Option.map_eq_some_iff.1 found
  cases same
  have checked : id ∈ validationOrder := order ▸ List.mem_append_right _ (List.mem_cons_self ..)
  refine ⟨⟨before, after, order, fun e mem => ?_⟩, checked, failure⟩
  have earlier : e ∈ validationOrder := order ▸ List.mem_append_left _ mem
  exact (t.failureOf_fits earlier).1 (Option.map_eq_none_iff.1 (none_ e mem))

end validate

end Sys2Proof.Machine
end

section
/-! The entry to RUN (R12, R14, R30, R41, R43, R59, R74, R79, R98, R101, R109, R125, R140, R143, R174): the first writes of
the fog monitor and of the zones as one series, and what every block starts with. -/

namespace Sys2Proof.Machine

open Sys2Proof

variable {s t u : State}

/-! ### Writes that come to the same (R26 to R31) -/

/-- Two states in which the same demand writes do the same to the channel image and to the urgent queue. -/
structure State.WriteAlike (s t : State) : Prop where
  tables : s.tables = t.tables
  run : s.inRun = t.inRun
  guard : s.watch.guard = t.watch.guard
  image : s.image = t.image
  urgent : s.seg.urgent = t.seg.urgent

theorem State.WriteAlike.rfl : s.WriteAlike s := ⟨.refl _, .refl _, .refl _, .refl _, .refl _⟩

theorem State.WriteAlike.trans (h : s.WriteAlike t) (h' : t.WriteAlike u) : s.WriteAlike u :=
  ⟨h.tables.trans h'.tables, h.run.trans h'.run, h.guard.trans h'.guard, h.image.trans h'.image,
    h.urgent.trans h'.urgent⟩

theorem State.writeDemand_untaken {ch : Nat} (h : ¬(s.inRun = true ∧ (s.tables.channels.get ch).mapped = true)) (level : Nat) :
    s.writeDemand ch level = s := if_neg h

theorem State.WriteAlike.writeDemand (h : s.WriteAlike t) (ch level : Nat) :
    (s.writeDemand ch level).WriteAlike (t.writeDemand ch level) := by
  obtain ⟨tables, run, guard, image, urgent⟩ := h
  by_cases taken : t.inRun = true ∧ (t.tables.channels.get ch).mapped = true
  · have taken' : s.inRun = true ∧ (s.tables.channels.get ch).mapped = true := by rwa [run, tables]
    have offers : s.demandOffers ch level = t.demandOffers ch level := by
      simp only [State.demandOffers, tables, guard, image]
    rw [State.writeDemand_mapped taken.1 taken.2, State.writeDemand_mapped taken'.1 taken'.2]
    exact ⟨tables, run, guard, by simp only [tables, guard, image], by simp only [offers, urgent]⟩
  · have taken' : ¬(s.inRun = true ∧ (s.tables.channels.get ch).mapped = true) := by rwa [run, tables]
    rw [State.writeDemand_untaken taken, State.writeDemand_untaken taken']
    exact ⟨tables, run, guard, image, urgent⟩

theorem State.WriteAlike.writeDemands (h : s.WriteAlike t) (writes : List (Nat × Nat)) :
    (s.writeDemands writes).WriteAlike (t.writeDemands writes) := by
  induction writes generalizing s t with
  | nil => exact h
  | cons w writes ih => exact ih (h.writeDemand w.1 w.2)

/-- A write to a channel that may be NONE, as a list of writes. -/
theorem State.writeDemandTo_eq (s : State) (ch : Option Nat) (level : Nat) :
    s.writeDemandTo ch level = s.writeDemands (ch.toList.map fun ch => (ch, level)) := by
  cases ch <;> rfl

/-- How the events of a series are linked changes no write. -/
theorem State.asSeries_alike (s t : State) : (s.asSeries t).WriteAlike t := ⟨rfl, rfl, rfl, rfl, rfl⟩

theorem State.writeDemandTo_besideQueue (s : State) (ch : Option Nat) (level : Nat) :
    (s.writeDemandTo ch level).besideQueue = s.besideQueue := by
  cases ch with
  | none => rfl
  | some ch => exact s.writeDemand_besideQueue ch level

/-! ### The fog monitor's first writes (R73, R74, R76, R79) -/

/-- R79: the writes of these stations at step 0 of their pattern, all UNKNOWN. -/
def Tables.fanWrites (t : Tables) (stations : List Nat) : List (Nat × Nat) :=
  stations.filterMap fun i => (t.fogTune.get i).fan.get.map fun ch =>
    (ch, if (t.fogTune.get i).watchPattern.getLsbD 0 = true then (t.fogTune.get i).fanLevel else 0)

/-- R79: these stations put to step 0 of their pattern. -/
def State.stepsPut (s : State) (stations : List Nat) : State := stations.foldl (fun s i => s.putStep i 0) s

/-- Every station is UNKNOWN. -/
def FogUnit.AllUnknown (f : FogUnit) : Prop := ∀ i, (f.stations.get i).state = .unknown

theorem FogUnit.allUnknown_initial : FogUnit.initial.AllUnknown := by
  intro i
  by_cases lt : i < 8
  · exact congrArg StationRun.state (Tab.get_replicate i _ lt)
  · exact congrArg StationRun.state (Tab.get_past _ i (by omega))

theorem State.stepsPut_tables (s : State) (stations : List Nat) : (s.stepsPut stations).tables = s.tables :=
  foldl_keep State.tables (fun u i => by simp) stations s

theorem State.stepsPut_unknown (h : s.fog.AllUnknown) (stations : List Nat) : (s.stepsPut stations).fog.AllUnknown := by
  induction stations generalizing s with
  | nil => exact h
  | cons i stations ih => exact ih fun j => (s.putStep_states i 0 j).trans (h j)

theorem State.putStep_alike (h : s.WriteAlike t) (known : s.fog.AllUnknown) (i : Nat) :
    (s.putStep i 0).WriteAlike (t.writeDemands (s.tables.fanWrites [i])) := by
  have put : (s.setStation i { s.fog.stations.get i with
      step := 0, timer := some (1000 * (s.tables.fogTune.get i).period) }).WriteAlike t :=
    State.WriteAlike.trans (t := s) ⟨rfl, rfl, rfl, rfl, rfl⟩ h
  have writes : s.tables.fanWrites [i] = (s.tables.fogTune.get i).fan.get.toList.map fun ch =>
      (ch, (s.tables.fogTune.get i).fanDemand (s.fog.stations.get i).state 0) := by
    rw [known i]
    cases fan : (s.tables.fogTune.get i).fan.get <;> simp [Tables.fanWrites, fan, FogTuneRec.fanDemand, FogTuneRec.pattern]
  rw [State.putStep, State.writeDemandTo_eq, writes]
  exact put.writeDemands _

theorem Tables.fanWrites_cons (t : Tables) (i : Nat) (stations : List Nat) :
    t.fanWrites (i :: stations) = t.fanWrites [i] ++ t.fanWrites stations :=
  List.filterMap_append (l := [i])

theorem State.stepsPut_alike (h : s.WriteAlike t) (known : s.fog.AllUnknown) (stations : List Nat) :
    (s.stepsPut stations).WriteAlike (t.writeDemands (s.tables.fanWrites stations)) := by
  induction stations generalizing s t with
  | nil => exact h
  | cons i stations ih =>
    have next := ih (State.putStep_alike h known i) (State.stepsPut_unknown known [i])
    rw [Tables.fanWrites_cons, State.writeDemands_append]
    rwa [(s.putStep_frame i 0).2.2.2.1] at next

/-- R79: the stations put to step 0 have their timers. -/
theorem State.stepsPut_fog (s : State) (stations : List Nat) :
    (∀ j, j < 8 → (s.stepsPut stations).fog.stations.get j = if j ∈ stations then { s.fog.stations.get j with
      step := 0, timer := some (1000 * (s.tables.fogTune.get j).period) } else s.fog.stations.get j) ∧
    ((s.stepsPut stations).fog.unitState = s.fog.unitState ∧ (s.stepsPut stations).fog.demand = s.fog.demand ∧
      (s.stepsPut stations).fog.runTimer = s.fog.runTimer ∧ (s.stepsPut stations).fog.restTimer = s.fog.restTimer ∧
      (s.stepsPut stations).fog.served = s.fog.served) := by
  induction stations generalizing s with
  | nil => exact ⟨fun j _ => (if_neg (List.not_mem_nil)).symm, rfl, rfl, rfl, rfl, rfl⟩
  | cons i stations ih =>
    obtain ⟨places, rest⟩ := ih (s.putStep i 0)
    rw [State.putStep_fog] at places rest
    refine ⟨fun j lt => (places j lt).trans ?_, rest⟩
    by_cases here : i = j
    · subst here
      simp [lt]
    · simp [here, Ne.symm here]

/-- R74: what the stations ask for where all are UNKNOWN. -/
def Tables.unknownDemand (t : Tables) : Nat :=
  (((List.range 8).filter fun i => t.stationInUse i).map fun i => (t.fogTune.get i).watchDemand).foldl max 0

theorem publishedDemand_unknown {f : FogUnit} (known : f.AllUnknown) (t : Tables) : publishedDemand t f = t.unknownDemand := by
  rw [publishedDemand_eq]
  simp only [known _]
  rfl

theorem publishedPromotion_unknown {f : FogUnit} (known : f.AllUnknown) (t : Tables) : publishedPromotion t f = false :=
  List.any_eq_false.2 fun i _ => by rw [known i]; decide

/-- R76: the motor's write where anything is asked for. -/
def Tables.motorWrites (t : Tables) : List (Nat × Nat) :=
  if 0 < t.unknownDemand then t.motor.get.toList.map fun ch => (ch, 1000) else []

/-- R74, R76: the first publication, by a dehumidifier that is OFF. -/
theorem State.publishFog_first (h : s.WriteAlike t) (known : s.fog.AllUnknown) (off : s.fog.unitState = .off)
    (silent : s.fog.demand = 0) :
    s.publishFog.WriteAlike (t.writeDemands s.tables.motorWrites) ∧
    s.publishFog.besideQueue = s.besideQueue ∧
    s.publishFog.fog = { s.fog with
      demand := s.tables.unknownDemand
      promotion := false
      unitState := if 0 < s.tables.unknownDemand then .running else .off
      runTimer := if 0 < s.tables.unknownDemand then some (1000 * s.tables.dehumid.minRun) else s.fog.runTimer
      restTimer := if 0 < s.tables.unknownDemand then none else s.fog.restTimer
      served := if 0 < s.tables.unknownDemand then false else s.fog.served } := by
  have demand : s.published.fog.demand = s.tables.unknownDemand := publishedDemand_unknown known s.tables
  have promotion : s.published.fog.promotion = false := publishedPromotion_unknown known s.tables
  by_cases asked : 0 < s.tables.unknownDemand
  · have put : ({ s.published with fog := { s.published.fog with
        unitState := .running
        runTimer := some (1000 * s.tables.dehumid.minRun)
        restTimer := none
        served := false } } : State).WriteAlike t := State.WriteAlike.trans (t := s) ⟨rfl, rfl, rfl, rfl, rfl⟩ h
    rw [State.publishFog_runs off silent (demand.symm ▸ asked), State.dehumidRun, Tables.motorWrites, if_pos asked]
    refine ⟨?_, ?_, ?_⟩
    · rw [State.writeDemandTo_eq]
      exact put.writeDemands _
    · exact State.writeDemandTo_besideQueue _ _ _
    · simp only [if_pos asked]
      rw [← demand, ← promotion]
      simp [State.published]
  · rw [State.publishFog_leaves (by omega) (by simp [off]), Tables.motorWrites, if_neg asked]
    simp only [if_neg asked]
    refine ⟨State.WriteAlike.trans (t := s) ⟨rfl, rfl, rfl, rfl, rfl⟩ h, rfl, ?_⟩
    rw [← demand, ← promotion, ← off]
    rfl

/-- R79: the writes of the fog monitor on entry to RUN. -/
def Tables.fogWrites (t : Tables) : List (Nat × Nat) := t.fanWrites t.stationsInUse ++ t.motorWrites

theorem State.putStep_besideQueue (s : State) (i k : Nat) : (s.putStep i k).besideQueue = s.besideQueue :=
  State.writeDemandTo_besideQueue _ _ _

/-- R79: the fog monitor with its stations put to step 0, before its record is published. -/
structure State.StepsPut (s v : State) : Prop where
  tables : v.tables = s.tables
  known : v.fog.AllUnknown
  unitState : v.fog.unitState = .off
  demand : v.fog.demand = 0
  timers : v.fog.runTimer = none ∧ v.fog.restTimer = none ∧ v.fog.served = false
  stations : ∀ i, i < 8 → v.fog.stations.get i = ⟨.unknown, none, none, false, false, 0,
    if s.tables.stationInUse i = true then some (1000 * (s.tables.fogTune.get i).period) else none⟩
  beside : v.besideQueue = s.besideQueue
  alike : ∀ t, s.WriteAlike t → v.WriteAlike (t.writeDemands (s.tables.fanWrites s.tables.stationsInUse))

theorem State.fogEnterRun_eq (s : State) : ∃ v, s.StepsPut v ∧ s.fogEnterRun = s.asSeries v.publishFog := by
  obtain ⟨places, unitState, demand, runTimer, restTimer, served⟩ :=
    State.stepsPut_fog { s with fog := .initial } s.tables.stationsInUse
  refine ⟨State.stepsPut { s with fog := .initial } s.tables.stationsInUse, ?_, rfl⟩
  refine ⟨State.stepsPut_tables .., State.stepsPut_unknown FogUnit.allUnknown_initial _, unitState, demand,
    ⟨runTimer, restTimer, served⟩, fun i lt => (places i lt).trans ?_,
    foldl_keep State.besideQueue (fun u i => u.putStep_besideQueue i 0) _ { s with fog := .initial }, fun t h => ?_⟩
  · have used : i ∈ s.tables.stationsInUse ↔ s.tables.stationInUse i = true := by
      simp [Tables.stationsInUse, lt]
    rw [show FogUnit.initial.stations.get i = StationRun.initial from Tab.get_replicate i _ lt]
    by_cases h : s.tables.stationInUse i = true
    · rw [if_pos (used.2 h), if_pos h]
      rfl
    · rw [if_neg (h ∘ used.1), if_neg h]
      rfl
  · have rest : ({ s with fog := .initial } : State).WriteAlike t :=
      State.WriteAlike.trans (t := s) ⟨rfl, rfl, rfl, rfl, rfl⟩ h
    exact State.stepsPut_alike rest FogUnit.allUnknown_initial s.tables.stationsInUse

/-- R79: what the entry to RUN makes of the fog monitor, whatever it held before, and what it writes. -/
theorem State.fogEnterRun_fog (s : State) :
    ((∀ t, s.WriteAlike t → s.fogEnterRun.WriteAlike (t.writeDemands s.tables.fogWrites)) ∧
      s.fogEnterRun.besideQueue = s.besideQueue) ∧
    (∀ i, i < 8 → s.fogEnterRun.fog.stations.get i = ⟨.unknown, none, none, false, false, 0,
      if s.tables.stationInUse i = true then some (1000 * (s.tables.fogTune.get i).period) else none⟩) ∧
    s.fogEnterRun.fog.demand = s.tables.unknownDemand ∧ s.fogEnterRun.fog.promotion = false ∧
    s.fogEnterRun.fog.served = false ∧ s.fogEnterRun.fog.restTimer = none ∧
    s.fogEnterRun.fog.unitState = (if 0 < s.tables.unknownDemand then .running else .off) ∧
    s.fogEnterRun.fog.runTimer =
      (if 0 < s.tables.unknownDemand then some (1000 * s.tables.dehumid.minRun) else none) := by
  obtain ⟨v, put, entered⟩ := s.fogEnterRun_eq
  obtain ⟨-, beside, fog⟩ := State.publishFog_first .rfl put.known put.unitState put.demand
  obtain ⟨runTimer, restTimer, served⟩ := put.timers
  rw [put.tables, runTimer, restTimer, served, ite_self, ite_self] at fog
  rw [entered]
  refine ⟨⟨fun t h => ?_, beside.trans put.beside⟩, ?_⟩
  · obtain ⟨first, -, -⟩ := State.publishFog_first (put.alike t h) put.known put.unitState put.demand
    rw [put.tables] at first
    rw [Tables.fogWrites, State.writeDemands_append]
    exact (State.asSeries_alike _ _).trans first
  · rw [State.asSeries_fog, fog]
    exact ⟨put.stations, rfl, rfl, rfl, rfl, rfl, rfl⟩

/-! ### The zones' first writes (R101, R109) -/

/-- R109: the writes of the zones on entry to RUN. -/
def Tables.zoneWrites (t : Tables) : List (Nat × Nat) :=
  t.zonesInUse.map fun z => ((t.zoneMap.get z).primary, (zoneStart t z).primary)

theorem State.zonesEnterRun_writes (h : s.WriteAlike t) :
    s.zonesEnterRun.WriteAlike (t.writeDemands s.tables.zoneWrites) ∧ s.zonesEnterRun.besideQueue = s.besideQueue := by
  have writes : (s.tables.zonesInUse.map fun z => ((s.tables.zoneMap.get z).primary,
      ((s.zones.runs.mapIdx fun z _ => zoneStart s.tables z : Tab ZoneRun 16).get z).primary)) = s.tables.zoneWrites := by
    refine List.map_congr_left fun z hz => ?_
    rw [Tab.get_mapIdx _ _ _ (List.mem_range.1 (List.mem_filter.1 hz).1)]
  have rest : ({ s with zones := ⟨s.zones.runs.mapIdx fun z _ => zoneStart s.tables z, none, []⟩ } : State).WriteAlike t :=
    State.WriteAlike.trans (t := s) ⟨rfl, rfl, rfl, rfl, rfl⟩ h
  rw [State.zonesEnterRun, writes, State.writeSeries_eq]
  exact ⟨(State.asSeries_alike _ _).trans (rest.writeDemands _), State.writeSeries_besideQueue _ _⟩

theorem State.zonesEnterRun_zones (s : State) :
    s.zonesEnterRun.zones = ⟨s.zones.runs.mapIdx fun z _ => zoneStart s.tables z, none, []⟩ := by
  simp [State.zonesEnterRun]

/-! ### The entry as a whole (R174) -/

/-- R174: the part on its way into RUN, before the first demand writes. -/
def State.entered (s : State) : State :=
  State.bracketEnterRun (State.restLighting (State.heatEnterRun (State.watchEnterRun (State.applyStart
    (State.segEnterRun { s with loader := { s.loader with op := .run }, points := .initial })))))

theorem State.enterRun_eq (s : State) (receiving : Bool) : s.enterRun receiving =
    s.entered.fogEnterRun.zonesEnterRun.startSlot (if receiving then some true else none) := rfl

/-- R30 step 2, R31: offers to an empty queue, of addresses that differ, all join. -/
theorem offers_distinct {l : List Nat} (distinct : l.Nodup) (r : JoinReason) : ∀ q : List UrgentEntry,
    (∀ e ∈ q, e.address ∉ l) → l.foldl (fun q a => offerNode q a r) q = q ++ l.map fun a => ⟨a, r⟩ := by
  induction l with
  | nil => exact fun q _ => (List.append_nil q).symm
  | cons a l ih =>
    obtain ⟨new, distinct⟩ := List.nodup_cons.1 distinct
    intro q apart
    have joins : offerNode q a r = q ++ [⟨a, r⟩] :=
      offerNode_new (fun e he same => apart e he (List.mem_cons.2 (.inl same))) r
    rw [List.foldl_cons, joins, ih distinct _ fun e he => ?_]
    · simp
    · rcases List.mem_append.1 he with he | he
      · exact fun h => apart e he (List.mem_cons_of_mem _ h)
      · rw [List.mem_singleton.1 he]
        exact new

theorem State.entered_urgent (s : State) : s.entered.seg.urgent = s.tables.setAddresses.map fun a => ⟨a, .start⟩ :=
  (offers_distinct (List.Nodup.filter _ List.nodup_range) .start [] fun _ h => absurd h List.not_mem_nil)

/-- R25, R27: a start value, and its clamp where the limit is the ceiling. -/
theorem ChannelRec.startRun_spelled (r : ChannelRec) : r.startRun =
    if r.mapped = true then ⟨r.start, max (min r.floor r.ceiling) (min r.start r.ceiling)⟩ else ⟨0, 0⟩ := by
  have limit : r.limit .normal = r.ceiling := ite_self _
  unfold ChannelRec.startRun
  refine ite_congr rfl (fun _ => congrArg _ ?_) fun _ => rfl
  rw [ChannelRec.commandedFor_eq, limit]
  omega

/-- R79, R109: the writes of the entry to RUN, in the order of the blocks (log 28). -/
def Tables.entryWrites (t : Tables) : List (Nat × Nat) := t.fogWrites ++ t.zoneWrites

/-- The first writes, of the fog monitor and of the zones, as the writes of one series. -/
theorem State.entered_writes (s : State) :
    s.entered.fogEnterRun.zonesEnterRun.WriteAlike (s.entered.writeSeries s.tables.entryWrites) ∧
    s.entered.fogEnterRun.zonesEnterRun.besideQueue = s.entered.besideQueue := by
  obtain ⟨⟨fog, besideFog⟩, -⟩ := s.entered.fogEnterRun_fog
  obtain ⟨zones, besideZones⟩ := State.zonesEnterRun_writes (fog _ .rfl)
  refine ⟨zones.trans ?_, besideZones.trans besideFog⟩
  have same : s.entered.fogEnterRun.tables = s.tables := s.entered.fogEnterRun_frame.2.2.2.1
  rw [same, show s.entered.tables = s.tables from rfl, ← State.writeDemands_append]
  exact ⟨rfl, rfl, rfl, rfl, rfl⟩

/-- R12, R30: the segment master of the entry. -/
theorem State.entered_seg (s : State) : s.entered.besideQueue =
    ⟨.replicate 48 ⟨.unknown, 0, 0, false, false⟩, 0, .silent, none, [], s.seg.checkErrors,
      s.tables.scheduleHead.bitRate, s.tables.scheduleHead.replyTimeout, [], s.seg.draws⟩ := rfl

theorem zoneStart_used {t : Tables} {z : Nat} (used : t.zoneInUse z = true) :
    zoneStart t z =
      let m := t.zoneMap.get z
      let d := min (m.coilCapacity + m.primaryCapacity) (t.zoneSet.get z).fallback
      ⟨d, min d m.coilCapacity, 0, 0, d, (t.channels.get m.coil).start, min 1000 (d * 1000 / m.primaryCapacity), true⟩ :=
  if_pos used

/-- What the first writes leave of the entered part. -/
theorem State.entered_frame (s : State) :
    s.entered.fogEnterRun.zonesEnterRun.points = .initial ∧
    s.entered.fogEnterRun.zonesEnterRun.watch = ⟨s.tables.watchRests true, .normal⟩ ∧
    s.entered.fogEnterRun.zonesEnterRun.fog = s.entered.fogEnterRun.fog ∧
    s.entered.fogEnterRun.zonesEnterRun.heat = s.entered.heat ∧
    s.entered.fogEnterRun.zonesEnterRun.zones =
      ⟨s.entered.zones.runs.mapIdx fun z _ => zoneStart s.tables z, none, []⟩ ∧
    s.entered.fogEnterRun.zonesEnterRun.store = s.entered.store ∧
    s.entered.fogEnterRun.zonesEnterRun.engines = .replicate 4 .initial ∧
    s.entered.fogEnterRun.zonesEnterRun.bracket =
      { s.bracket with state := .idle, stage := [], timer := none, ordinal := 0 } := by
  have tables : s.entered.fogEnterRun.tables = s.tables := s.entered.fogEnterRun_frame.2.2.2.1
  rw [State.zonesEnterRun_zones, tables]
  simp only [State.zonesEnterRun_frame, State.fogEnterRun_frame, true_and]
  exact ⟨rfl, rfl, rfl, rfl⟩

/-- R98: the dispatcher of the entry: no result, the valves at their start values. -/
theorem State.entered_heat (s : State) {i : Nat} (lt : i < 8) :
    s.entered.heat.sinks.get i = ⟨0, (s.tables.sinkTune.get i).sinkClass, 0, 0⟩ ∧
    s.entered.heat.valves.get i = if s.tables.sinkInUse i = true then
      ((s.tables.sinkMap.get i).valve.get.map fun ch => (s.tables.channels.get ch).start).getD 0 else 0 := by
  refine ⟨Tab.get_map _ _ _ lt, (Tab.get_map _ _ _ lt).trans ?_⟩
  have used : s.tables.sinkInUse i = (s.tables.sinkMap.get i).inUse := by simp [Tables.sinkInUse, lt]
  rw [used]
  refine ite_congr rfl (fun _ => ?_) fun _ => rfl
  dsimp only
  split <;> rename_i valve <;> exact valve ▸ rfl

theorem State.entered_heatTimer (s : State) : s.entered.heat.timer =
    if ∃ i, i < 8 ∧ s.tables.sinkInUse i = true then some (1000 * s.tables.dispatch.period) else none := by
  refine ite_congr (propext ?_) (fun _ => rfl) fun _ => rfl
  have sinks : (State.heatActive (State.watchEnterRun (State.applyStart (State.segEnterRun
      { s with loader := { s.loader with op := .run }, points := .initial })))) = !s.tables.sinksInUse.isEmpty := rfl
  rw [sinks]
  simp [Tables.sinksInUse]


/-! ### The request (R174, R178) -/

section request
variable {tag : Byte} {receiving : Bool} {a : Answer}

theorem exec_enterRun (free : s.servesFreely) (answered : s.goodFrame.tryEnterRun receiving = (t, some a)) :
    exec (.enterRun tag receiving) s = .next (t.place tag 0x06 a.result a.data) :=
  congrArg Host.Outcome.next (State.request_answers free.1
    ((restricted_closed (s := s.goodFrame) free.2 _).trans answered) tag codeEnterRun)

theorem State.tryEnterRun_inRun (run : s.inRun = true) : s.tryEnterRun receiving = (s, some (.plain .state)) := if_pos run

theorem State.tryEnterRun_saving (config : s.inRun = false) (saving : s.saving = true) :
    s.tryEnterRun receiving = (s, some (.plain .busy)) := by
  rw [State.tryEnterRun, if_neg (by simp [config]), if_pos saving]

section idle
variable (config : s.inRun = false) (idle : s.saving = false)
include config idle

theorem State.tryEnterRun_fails {id : TableId} {entry : Nat} (fails : s.tables.validate = some (id, entry)) :
    s.tryEnterRun receiving = (s, some (.badTable id entry)) := by
  rw [State.tryEnterRun, if_neg (by simp [config]), if_neg (by simp [idle]), fails]

theorem State.tryEnterRun_passes (passes : s.tables.validate = none) :
    s.tryEnterRun receiving = (s.enterRun receiving, some (.plain .done)) := by
  rw [State.tryEnterRun, if_neg (by simp [config]), if_neg (by simp [idle]), passes]

end idle

/-- What a host finds of the blocks behind the entry, whatever slot 0 has begun. -/
theorem State.enterRun_found (s : State) (receiving : Bool) :
    (s.enterRun receiving).watch = ⟨s.tables.watchRests true, .normal⟩ ∧ (s.enterRun receiving).points = .initial ∧
    (s.enterRun receiving).engines = .replicate 4 .initial ∧
    (s.enterRun receiving).store = { s.store with banks := s.store.banks.map Bank.rest, completions := [] } ∧
    (s.enterRun receiving).bracket = { s.bracket with state := .idle, stage := [], timer := none, ordinal := 0 } ∧
    (s.enterRun receiving).heat = s.entered.heat ∧ (s.enterRun receiving).zones.split = none ∧
    (s.enterRun receiving).seg.checkErrors = s.seg.checkErrors := by
  obtain ⟨points, watch, -, heat, zones, store, engines, bracket⟩ := s.entered_frame
  have beside := s.entered_writes.2
  rw [s.enterRun_eq]
  generalize s.entered.fogEnterRun.zonesEnterRun = u at *
  have steady (hold : Option Bool) : (u.startSlot hold).steady = u.steady := slotStart_steady u.settle 129 hold
  simp only [State.startSlot_frame]
  exact ⟨watch, points, engines, store, bracket, heat, (congrArg ZoneUnit.split zones :),
    (State.seg_of_steady (steady _)).2.2.1.trans (congrArg Segment.checkErrors beside :)⟩

end request

/-- Settles O18: the request by the outcomes of `State.tryEnterRun`, the entry block by block with its first writes as one
series (`State.entered_writes`), and the validation table by table (`Tables.failureOf_first`, `Tables.scheduleFailure_entry`). -/
theorem enterRunTaken : Obligations.EnterRunTaken := by
  refine ⟨fun tag receiving s free => ⟨fun run => ?run, fun config saving => ?saving,
      fun id entry config idle fails => ?fails,
      fun config idle passes => ?found, fun config idle passes => ?passes⟩,
    fun receiving s => ?entry, fun t => ⟨t.validate_none_iff, fun id entry fails => ?first⟩, fun t entry fails => ?schedule⟩
  case run => exact exec_enterRun free (State.tryEnterRun_inRun (s := s.goodFrame) run)
  case saving => exact exec_enterRun free (State.tryEnterRun_saving (s := s.goodFrame) config saving)
  case fails => exact exec_enterRun free (State.tryEnterRun_fails (s := s.goodFrame) config idle fails)
  case passes => exact exec_enterRun (a := .plain .done) free (State.tryEnterRun_passes (s := s.goodFrame) config idle passes)
  case found =>
    refine ⟨_, exec_enterRun (a := .plain .done) free (State.tryEnterRun_passes (s := s.goodFrame) config idle passes), ?_⟩
    obtain ⟨loader, tables, memory, trunk, power, -⟩ := s.goodFrame.enterRun_common receiving
    obtain ⟨watch, points, engines, store, bracket, heat, split, checkErrors⟩ := s.goodFrame.enterRun_found receiving
    generalize s.goodFrame.enterRun receiving = left at *
    have rests (k : Nat) (lt : k < 32) : left.watch.runs.get k = s.tables.watchRest true k := by
      rw [watch]
      exact Tab.get_mapIdx _ _ _ lt
    refine ⟨?inRun, (congrArg Loader.image loader :), tables, memory, power, ?trunk, (congrArg WatchUnit.guard watch :),
      fun k lt => ⟨congrArg WatchRun.state (rests k lt), congrArg WatchRun.cond (rests k lt)⟩, fun p lt => ?point,
      fun b lt => ?engine, fun b lt => ?bank, (congrArg SceneStore.queue store :), (congrArg BracketUnit.state bracket :),
      (congrArg BracketUnit.stage bracket :), (congrArg BracketUnit.record bracket :), (congrArg HeatUnit.available heat :),
      (congrArg HeatUnit.blind heat :), split, checkErrors⟩
    case inRun =>
      rw [State.inRun, State.place_loader, loader]
      rfl
    case trunk =>
      rw [State.place_trunk, State.place_trunk, trunk]
      rfl
    case point =>
      rw [State.place_points, points]
      exact congrArg PointRun.quality (Tab.get_replicate p _ lt)
    case engine =>
      rw [State.engine, State.place_engines, engines]
      exact congrArg Engine.state (Tab.get_replicate b _ lt)
    case bank =>
      rw [State.bank, State.place_store, store]
      exact congrArg Bank.state (Tab.get_map _ _ _ lt)
  case entry =>
    intro tables zone stations demand writes
    have sameWrites : writes = s.tables.entryWrites := by
      refine congrArg (s.tables.fogWrites ++ ·) (List.map_congr_left fun z hz => ?_)
      rw [zoneStart_used (List.mem_filter.1 hz).2]
    obtain ⟨alike, beside⟩ := s.entered_writes
    obtain ⟨points, watch, fog, heat, zones, store, engines, bracket⟩ := s.entered_frame
    obtain ⟨-, stationsAt, fogDemand, promotion, served, restTimer, unitState, runTimer⟩ := s.entered.fogEnterRun_fog
    have entered := s.enterRun_eq receiving
    rw [← fog] at stationsAt fogDemand promotion served restTimer unitState runTimer
    rw [← sameWrites] at alike
    generalize s.entered.fogEnterRun.zonesEnterRun = u at *
    refine ⟨s.entered, u, rfl, rfl, rfl, fun ch lt => (Tab.get_map _ _ _ lt).trans (ChannelRec.startRun_spelled _),
      s.entered_urgent, entered, alike.image, ?seg, points, fun k lt => ?watch, stationsAt, fogDemand, promotion, served,
      restTimer, unitState, runTimer, fun i lt => ?sink, ?timer, ?_, ?_, ?_, ?_, ?_, fun z lt => ?zone,
      (congrArg ZoneUnit.split zones :), (congrArg ZoneUnit.deliveries zones :), fun b lt => ?lighting,
      (congrArg SceneStore.completions store :), bracket⟩
    case seg =>
      rw [← alike.urgent]
      exact congrArg (fun g : Segment => { g with urgent := u.seg.urgent, log := u.seg.log }) (beside.trans s.entered_seg)
    case watch =>
      rw [watch, Tables.watchRests, Tab.get_mapIdx _ _ _ lt]
      refine congrArg (fun timer => (⟨false, .idle, 0, timer, !tables.chained k⟩ : WatchRun)) ?_
      simp [tables]
    case sink =>
      obtain ⟨sink, valve⟩ := s.entered_heat lt
      refine ⟨heat ▸ sink, (heat ▸ valve).trans (ite_congr rfl (fun _ => ?_) fun _ => rfl)⟩
      cases (s.tables.sinkMap.get i).valve.get <;> rfl
    case timer => exact heat ▸ s.entered_heatTimer
    case zone =>
      rw [zones]
      refine (Tab.get_mapIdx _ _ _ lt).trans ?_
      by_cases used : s.tables.zoneInUse z = true
      · exact (zoneStart_used used).trans (if_pos used).symm
      · exact (if_neg used).trans (if_neg used).symm
    case lighting =>
      refine ⟨?_, ?_⟩
      · rw [State.bank, store]
        exact Tab.get_map _ _ _ lt
      · rw [State.engine, engines]
        exact Tab.get_replicate _ _ lt
    all_goals rw [heat]; rfl

  case first =>
    obtain ⟨order, checked, failure⟩ := t.validate_some fails
    refine ⟨order, fun fits => ?_, fun other => (t.failureOf_first checked other).some entry failure⟩
    rw [(t.failureOf_fits checked).2 fits] at failure
    cases failure
  case schedule =>
    obtain ⟨-, -, failure⟩ := t.validate_some fails
    obtain ⟨head, poll, set, sends⟩ := Tables.scheduleFailure_entry failure
    exact ⟨head, fun n good bad => poll n good bad.1 bad.2, fun n good noPoll bad => set n good noPoll bad.1 bad.2, sends⟩

end Sys2Proof.Machine
end

section
/-! The step with a command waiting: what `step` does when the queue is not empty. -/

namespace Sys2Proof.Machine

/-- Settles O1: of the two branches of `step`, a queue that is not empty takes the one that runs its front. -/
theorem stepRunsFront : Obligations.StepRunsFront := by
  intro c rest s waiting
  rw [step, waiting]

end Sys2Proof.Machine
end
